-- ==== Sys2Proof/Word.lean ====
section
/-! DEFINITION. Word.lean: the words of the KS40 (widths of scope section 4, R34, R50, R75, R171) and the two fixed-size tables. -/

namespace Sys2Proof

/-- One byte of a port message, a secret or a data block. -/
abbrev Byte := BitVec 8
/-- Key material of a Key Cache entry: 512 bits (R34). -/
abbrev Key := BitVec 512
/-- A 32-byte value: salt, challenge, response, binding secret. -/
abbrev Word32 := BitVec 256
/-- A 16-byte value: tether page payload, platform identity digest. Byte 0 is the most significant. -/
abbrev Word16 := BitVec 128
/-- A count taken modulo 2^32: versions, group tags, key generations, the table generation. -/
abbrev Count32 := BitVec 32
/-- A range number, 0 to 15 (R1). -/
abbrev RangeId := Fin 16
/-- A credential slot number, 0 to 7 (R50). -/
abbrev SlotId := Fin 8
/-- The tag of a transfer in the in-flight table, 0 to 31 (R32). -/
abbrev Tag := Fin 32
/-- One of the four lanes (R38). -/
abbrev LaneId := Fin 4

/-- The range numbers in number order. -/
def allRanges : List RangeId := [0, 1, 2, 3, 4, 5, 6, 7, 8, 9, 10, 11, 12, 13, 14, 15]
/-- The slots in number order. -/
def allSlots : List SlotId := [0, 1, 2, 3, 4, 5, 6, 7]
/-- The lanes in number order. -/
def allLanes : List LaneId := [0, 1, 2, 3]
/-- The tags in number order. -/
def allTags : List Tag :=
  [0, 1, 2, 3, 4, 5, 6, 7, 8, 9, 10, 11, 12, 13, 14, 15,
   16, 17, 18, 19, 20, 21, 22, 23, 24, 25, 26, 27, 28, 29, 30, 31]

/-- The table of eight entries whose entry `i` is `f i`. -/
def tab8 {α : Type} (f : Fin 8 → α) : Vector α 8 :=
  ⟨#[f 0, f 1, f 2, f 3, f 4, f 5, f 6, f 7], rfl⟩

/-- The table of sixteen entries whose entry `i` is `f i`. -/
def tab16 {α : Type} (f : Fin 16 → α) : Vector α 16 :=
  ⟨#[f 0, f 1, f 2, f 3, f 4, f 5, f 6, f 7, f 8, f 9, f 10, f 11, f 12, f 13, f 14, f 15], rfl⟩

/-- The table of thirty-two entries whose entry `i` is `f i`. -/
def tab32 {α : Type} (f : Fin 32 → α) : Vector α 32 :=
  ⟨#[f 0, f 1, f 2, f 3, f 4, f 5, f 6, f 7, f 8, f 9, f 10, f 11, f 12, f 13, f 14, f 15,
     f 16, f 17, f 18, f 19, f 20, f 21, f 22, f 23, f 24, f 25, f 26, f 27, f 28, f 29, f 30, f 31], rfl⟩

/-- The table of four entries whose entry `i` is `f i`. -/
def tab4 {α : Type} (f : Fin 4 → α) : Vector α 4 := ⟨#[f 0, f 1, f 2, f 3], rfl⟩

end Sys2Proof
end

