-- ==== Sys2Proof/Config.lean ====
section
/-! DEFINITION. Config.lean: the free values of the model (no body: nothing can be proved of them) and the constants the manual fixes.
A value the part draws at random, and a function whose construction scope section 2 leaves out, is a free value (log 8, 12). -/

namespace Sys2Proof.Config

/-- A freshly generated 512-bit key (R4, R128, R133); the argument counts the values drawn so far. Log 8. -/
opaque freshKey : Nat → Key
/-- A freshly generated 32-byte salt (R66, R133). Log 8. -/
opaque freshSalt : Nat → Word32
/-- A freshly generated 32-byte challenge (R94). Log 8. -/
opaque freshChallenge : Nat → Word32
/-- A freshly generated 32-byte binding secret (R101). Log 8. -/
opaque freshBindingSecret : Nat → Word32
/-- The block of data the host supplies in the Transfer Port's data phase for a write (R38, R171). Log 12. -/
opaque hostBlock : Nat → List Byte
/-- The payload of an ACK page the part sends, which no receiver reads (R92). Log 28. -/
opaque ackPayload : Nat → Word16
/-- The key a lane works with where the manual leaves a referenced entry without material (log 17). -/
opaque unstatedKey : Nat → Key
/-- The block cipher on one data unit: key, 128-bit tweak, clear text (scope section 2, R38). Log 12. -/
opaque encipher : Key → BitVec 128 → List Byte → List Byte
/-- The number in the five failing-LBA bytes of a completion whose present byte says there is none (R171). Log 64. -/
opaque absentLba : Nat
/-- The inverse direction of the block cipher on one data unit (R38). Log 12. -/
opaque decipher : Key → BitVec 128 → List Byte → List Byte
/-- The part's response function: challenge and binding secret to expected response (R94). Log 12. -/
opaque response : Word32 → Word32 → Word32

/-- How many bytes, less 1, a number or a named value takes at a place in the body of a request or reply of a kind, where its values need no
more (R162, R170): 1 to 4 bytes in all, so that every body keeps to the 512 bytes of R162. Log 14. -/
opaque fieldWidth (kind place : Nat) : Fin 4
/-- The named value that bytes stand for at a place in the body of a request of a kind (R169, R170); none outside its set. Log 14. -/
opaque namedField (kind place : Nat) (α : Type) : List Byte → Option α
/-- The number that stands for a named value at a place in a reply of a kind (R162, R168). Log 14. -/
opaque fieldCode (kind place : Nat) {α : Type} : α → Nat
/-- The presence mark of a present value in a reply, less 1: any byte but 0 (R168). Log 14. -/
opaque presentMark : Fin 255

/-- Largest shadow size S_MAX in blocks (scope section 3). -/
def shadowMax : Nat := 65536
/-- Largest start or length that a RANGE-STAGE carries: the top of the 6 bytes that a value above 2^40 takes (R15, R170, log 14). -/
def stagedMax : Nat := 2 ^ 48 - 1
/-- Records a commit group may hold (R76). -/
def groupMax : Nat := 8
/-- Write attempts of one copy (R77). -/
def writeTries : Nat := 3
/-- Blocks overwritten between two persisted cursors (R130). -/
def cursorStride : Nat := 4096
/-- Failed rounds of a check, and failed enrolment exchanges, that end it (R96, R101). -/
def roundLimit : Nat := 7
/-- Stability time of the bay line in ms (R108). -/
def bayStableMs : Nat := 500
/-- Wait for an acknowledgement or a page in ms (R92). -/
def pageWaitMs : Nat := 50
/-- Wait between rounds and between enrolment exchanges in ms (R96, R101). -/
def roundWaitMs : Nat := 200
/-- Drain limit of RANGE-COMMIT in ms (R19). -/
def drainLimitMs : Nat := 2000
/-- Cap of the closed period in ms (R63). -/
def closedCapMs : Nat := 3600000

end Sys2Proof.Config
end

