-- ==== Sys2Proof/Syntax.lean ====
section
/-! DEFINITION. Syntax.lean: the commands of the KS40, one constructor of `Instr` per row of spec/opcode_table.json, with the operands
the manual gives them (R162, R170, R171, R172). A request body is carried at the level of its fields (log 14). -/

namespace Sys2Proof

/-- The two directions of a transfer and of a range's locks (R5, R24). -/
inductive Direction where
  | read | write
deriving DecidableEq, Repr

/-- Locked-read disposition (R8). -/
inductive LockedRead where
  | zero | refuse
deriving DecidableEq, Repr

/-- Sleep policy of a range (R9). -/
inductive SleepPolicy where
  | hold | drop
deriving DecidableEq, Repr

/-- Lockdown response of a range (R10). -/
inductive LockdownResponse where
  | close | hide
deriving DecidableEq, Repr

/-- The four triggers (R106). -/
inductive Trigger where
  | guessLimit | unbound | bayOpen | idle
deriving DecidableEq, Repr

/-- The four trigger actions (R106). -/
inductive Action where
  | note | relock | lockdown | wipe
deriving DecidableEq, Repr

/-- Level of the BAY line (R108). -/
inductive BayLevel where
  | open | closed
deriving DecidableEq, Repr

/-- Target of a wipe item, and owner of a segment: a range or the shadow (R26, R122). -/
inductive Owner where
  | range (r : RangeId)
  | shadow
deriving DecidableEq, Repr

/-- A body field that names a member of a named set: the member, or a value outside the set (R169). -/
inductive Field (α : Type) where
  | value (a : α)
  | unknown
deriving DecidableEq, Repr

/-- A request body: fields that fit the form of the catalogue, or bytes that do not (R166 step 1). -/
inductive Body (α : Type) where
  | fits (a : α)
  | misfit
deriving DecidableEq, Repr

/-- A record cell of the Persistent Store, or the marker cell (R74). -/
inductive Cell where
  | profile
  | cred (slot : SlotId)
  | range (r : RangeId)
  | shadow
  | counters
  | binding
  | triggers
  | lockdown
  | plan
  | token
  | marker
deriving DecidableEq, Repr

/-- Copy A or copy B of a cell (R75). -/
inductive Side where
  | a | b
deriving DecidableEq, Repr

/-- What the storage itself shows to a store scan: copies that decayed since they were written, and cells whose repair write
fails three times (R75, R82). Log 18. -/
structure ScanFindings where
  decayed : List (Cell × Side)
  repairFails : List Cell
deriving DecidableEq, Repr

/-- What a lane receives: the media controller's answer to its oldest unanswered operation (with the data of a read), or the
delivery of its next read block to the front-end controller (R38). Log 13. -/
inductive LaneEvent where
  | answer (data : List Byte)
  | delivered
deriving DecidableEq, Repr

/-- Range and directions of RANGE-UNLOCK and RANGE-LOCK, and an entry of an unlock set (R6, R7, R57). -/
structure RangeDirs where
  range : Nat
  dirs : List (Field Direction)
deriving DecidableEq, Repr

/-- Body of AUTHENTICATE (R57). -/
structure AuthArgs where
  slot : Nat
  secret : List Byte
  unlock : List RangeDirs
deriving DecidableEq, Repr

/-- Body of RANGE-STAGE (R15): each field optional; U as received. -/
structure StageArgs where
  range : Nat
  start : Option Nat
  length : Option Nat
  readLock : Option Bool
  writeLock : Option Bool
  lockedRead : Option (Field LockedRead)
  unitSize : Option Nat
  sleep : Option (Field SleepPolicy)
  response : Option (Field LockdownResponse)
  access : Option (List Nat)
  newKey : Bool
deriving DecidableEq, Repr

/-- The four policy values of a slot (R51), as received or as they stand. -/
structure Policy where
  e : Nat
  free : Nat
  base : Nat
  limit : Nat
deriving DecidableEq, Repr

/-- Body of CRED-SET (R66). -/
structure CredSetArgs where
  slot : Nat
  secret : List Byte
  policy : Option Policy
  dropUnavailable : Bool
deriving DecidableEq, Repr

/-- Body of CRED-POLICY (R68). -/
structure CredPolicyArgs where
  slot : Nat
  policy : Policy
  idleLimit : Option Nat
deriving DecidableEq, Repr

/-- Body of CRED-STATE: the slot, and whether the action field names an action of the set (R69). Log 15. -/
structure CredStateArgs where
  slot : Nat
  actionKnown : Bool
deriving DecidableEq, Repr

/-- Body of SHADOW-CONFIG (R159). -/
structure ShadowArgs where
  enabled : Option Bool
  size : Option Nat
deriving DecidableEq, Repr

/-- Body of SHADOW-LOAD: whether the action field names an action of the set (R160). Log 15. -/
structure LoadArgs where
  actionKnown : Bool
deriving DecidableEq, Repr

/-- The trigger entry of TRIGGER-SET (R107). -/
structure TriggerEntryArgs where
  trigger : Field Trigger
  action : Field Action
  autoResume : Bool
deriving DecidableEq, Repr

/-- Body of TRIGGER-SET (R107). -/
structure TriggerArgs where
  entry : Option TriggerEntryArgs
  gmax : Option Nat
  idleLimit : Option Nat
deriving DecidableEq, Repr

/-- A target of a WIPE scope as received: a range number or SHADOW (R124). -/
inductive TargetField where
  | range (n : Nat)
  | shadow
  | unknown
deriving DecidableEq, Repr

/-- Scope of WIPE (R124). -/
inductive WipeScope where
  | targets (ts : List TargetField)
  | all
deriving DecidableEq, Repr

/-- Credential of WIPE (R124). -/
inductive WipeCredential where
  | absent
  | token (t : List Byte)
  | factorySecret (f : List Byte)
deriving DecidableEq, Repr

/-- Body of WIPE (R124). -/
structure WipeArgs where
  scope : WipeScope
  overwrite : Bool
  credential : WipeCredential
deriving DecidableEq, Repr

/-- The commands, one constructor per row of spec/opcode_table.json, in the table's order. A management request carries its frame's
tag (R162). -/
inductive Instr where
  | powerOn (scan : ScanFindings)
  | powerLoss (midWrite : Bool)
  | restore
  | partRestart (scan : ScanFindings)
  | admitRequest (tag direction : Byte) (start : BitVec 40) (countLessOne : BitVec 16)
  | cancel (tag : Byte)
  | frontReset
  | mediaAcknowledge (lane : LaneId) (event : LaneEvent)
  | mediaError (lane : LaneId) (block : Nat)
  | copyWriteDone (passed : Bool)
  | groupClose (scan : ScanFindings)
  | drainWaitEnd
  | drainLimitExpiry
  | derivationComplete
  | authorityIdleExpiry
  | bayEdge (level : BayLevel)
  | bayStabilityExpiry
  | idleTimerExpiry
  | recheckTimerExpiry
  | tetherPageReceived (page : Vector Byte 20)
  | tetherFault
  | pageTimeout
  | roundWaitExpiry
  | enrolRetryExpiry
  | slpAsserted
  | sleepEntry
  | sleepDrop
  | sleepReady
  | slpReleased
  | keyStep
  | overwriteStart
  | badFrame (record : List Byte)
  | unknownKind (record : List Byte)
  | status (tag : Byte) (body : Body Unit)
  | eventsEnable (tag : Byte) (body : Body (List Nat))
  | eventsAck (tag : Byte) (body : Body (List Nat))
  | authenticate (tag : Byte) (body : Body AuthArgs)
  | authorityEnd (tag : Byte) (body : Body Unit)
  | rangeUnlock (tag : Byte) (body : Body RangeDirs)
  | rangeLock (tag : Byte) (body : Body RangeDirs)
  | rangeStage (tag : Byte) (body : Body StageArgs)
  | rangeDiscard (tag : Byte) (body : Body Unit)
  | rangeCommit (tag : Byte) (body : Body Unit)
  | rangeRead (tag : Byte) (body : Body Nat)
  | credSet (tag : Byte) (body : Body CredSetArgs)
  | credPolicy (tag : Byte) (body : Body CredPolicyArgs)
  | credStateEnable (tag : Byte) (body : Body CredStateArgs)
  | credStateDisable (tag : Byte) (body : Body CredStateArgs)
  | credStateReopen (tag : Byte) (body : Body CredStateArgs)
  | shadowConfig (tag : Byte) (body : Body ShadowArgs)
  | shadowLoadOpen (tag : Byte) (body : Body LoadArgs)
  | shadowLoadClose (tag : Byte) (body : Body LoadArgs)
  | shadowDone (tag : Byte) (body : Body Unit)
  | bindEnroll (tag : Byte) (body : Body (Option Nat))
  | bindCheck (tag : Byte) (body : Body Unit)
  | triggerSet (tag : Byte) (body : Body TriggerArgs)
  | lockdownClear (tag : Byte) (body : Body Unit)
  | wipeTokenSet (tag : Byte) (body : Body (List Byte))
  | wipeTokenClear (tag : Byte) (body : Body Unit)
  | wipe (tag : Byte) (body : Body WipeArgs)
  | resetPart (tag : Byte) (body : Body Unit)
deriving DecidableEq, Repr

end Sys2Proof
end

