-- ==== Sys2Proof/Decode.lean ====
section
/-! DEFINITION. Decode.lean: from bits to commands. spec/opcode_table.json gives no row a bit pattern, so no word spells a command; the
manual's own byte layout of the Transfer Port messages (R171) is read here. -/

namespace Sys2Proof

/-- The command a word spells by the table's bits: the table gives no row any bits, so none. -/
def decodeTableWord (_nbits _w : Nat) : Option Instr := none

/-- A number from its bytes, most significant first (section 10.5). -/
def bigEndian (bytes : List Byte) : Nat := bytes.foldl (fun n b => n * 256 + b.toNat) 0

/-- The low `k` bytes of a number, most significant first (section 10.5). -/
def bytesOf : Nat → Nat → List Byte
  | 0, _ => []
  | k + 1, n => BitVec.ofNat 8 (n / 256 ^ k) :: bytesOf k n

/-- The Transfer Port message of a command, byte by byte (R171); none for a command of another port. -/
def encodeTransferPort : Instr → Option (List Byte)
  | .admitRequest tag direction start countLessOne =>
    some ([0x01#8, tag, direction] ++ bytesOf 5 start.toNat ++ bytesOf 2 countLessOne.toNat)
  | .cancel tag => some [0x02#8, tag]
  | .frontReset => some [0x03#8]
  | _ => none

/-- The command an arriving Transfer Port message is (R171); a message whose kind is not listed, or whose length does not match its kind,
is discarded without reply: none. -/
def decodeTransferPort : List Byte → Option Instr
  | [0x01#8, tag, direction, l4, l3, l2, l1, l0, n1, n0] =>
    some (.admitRequest tag direction (BitVec.ofNat 40 (bigEndian [l4, l3, l2, l1, l0])) (BitVec.ofNat 16 (bigEndian [n1, n0])))
  | [0x02#8, tag] => some (.cancel tag)
  | [0x03#8] => some .frontReset
  | _ => none

end Sys2Proof
end

