-- ==== Sys2Proof/Machine/Records.lean ====
section
/-! DEFINITION. Machine/Records.lean: the plain data the blocks hold, one type per table or list of fields of the manual: records of the
Persistent Store, volatile entries, and the messages the part sends. -/

namespace Sys2Proof.Machine

/-! ### Persisted records -/

/-- The drive profile (scope section 3). Values at reset: log 7. -/
structure Profile where
  blockSize : Nat
  capacity : Nat
  factorySecret : List Byte
  rootKey : Key
deriving DecidableEq, Repr

/-- The unwrap value of R52, held as the inputs it is derived from (log 9). -/
structure Unwrap where
  secret : List Byte
  salt : Word32
  e : Nat
deriving DecidableEq, Repr

/-- The verifier of R50 and R52, which "is made from the unwrap value" (log 9). -/
structure Verifier where
  madeFrom : Unwrap
deriving DecidableEq, Repr

/-- A wrap list entry (R53): range number, key generation, and the wrapped key (held as the key and the verifier it is enciphered
against, log 9). -/
structure Wrap where
  range : RangeId
  generation : Count32
  key : Key
  verifier : Verifier
deriving DecidableEq, Repr

/-- State of a credential slot (R50). -/
inductive SlotState where
  | empty | active | disabled | lockedOut
deriving DecidableEq, Repr

/-- Role of a slot (R50). -/
inductive Role where
  | admin | user | recovery
deriving DecidableEq, Repr

/-- Credential record (R50). -/
structure CredRecord where
  state : SlotState
  salt : Option Word32
  verifier : Option Verifier
  policy : Policy
  failures : Nat
  wraps : List Wrap
deriving DecidableEq, Repr

/-- The configurable fields of a range entry (R1, R14). For range 0, start and length stand at 0 and mean absent. -/
structure RangeFields where
  start : Nat
  length : Nat
  readLock : Bool
  writeLock : Bool
  lockedRead : LockedRead
  unitSize : Nat
  sleep : SleepPolicy
  response : LockdownResponse
  access : List SlotId
deriving DecidableEq, Repr

/-- Range record (R1, R21): configurable fields, tweak origin, key generation, root wrap (held as the key it opens to, log 10), and in
the range 0 record the table generation. -/
structure RangeRecord where
  fields : RangeFields
  tweakOrigin : BitVec 64
  generation : Count32
  rootWrap : Option Key
  tableGeneration : Count32
deriving DecidableEq, Repr

/-- Shadow record (R13): the persisted fields and the root wrap of the shadow key (log 10). -/
structure ShadowRecord where
  enabled : Bool
  size : Nat
  rootWrap : Key
deriving DecidableEq, Repr

/-- Pending-attempt marker (R56). -/
structure AttemptMarker where
  slot : SlotId
  before : Nat
deriving DecidableEq, Repr

/-- Counters record (R56). -/
structure Counters where
  g : Nat
  marker : Option AttemptMarker
  idleLimit : Nat
deriving DecidableEq, Repr

/-- What enrolment stores (R90). -/
structure Enrolment where
  digest : Word16
  secret : Word32
deriving DecidableEq, Repr

/-- Binding record (R90); `enrolled = none` is UNENROLLED. -/
structure BindingRecord where
  enrolled : Option Enrolment
  recheck : Nat
deriving DecidableEq, Repr

/-- Entry of the trigger table (R106). -/
structure TriggerEntry where
  action : Action
  autoResume : Bool
deriving DecidableEq, Repr

/-- Trigger table (R106). -/
structure TriggerTable where
  guessLimit : TriggerEntry
  unbound : TriggerEntry
  bayOpen : TriggerEntry
  idle : TriggerEntry
  gmax : Nat
  idleLimit : Nat
deriving DecidableEq, Repr

/-- Device state (R117). -/
inductive Device where
  | normal | lockdown
deriving DecidableEq, Repr

/-- Lockdown record, and the working lockdown state (R117). -/
structure LockdownRecord where
  device : Device
  causes : List Trigger
deriving DecidableEq, Repr

/-- Step of a wipe item (R122). -/
inductive ItemStep where
  | pending | keysDestroyed | overwriting | done
deriving DecidableEq, Repr

/-- Item of the wipe plan (R122). -/
structure WipeItem where
  target : Owner
  step : ItemStep
deriving DecidableEq, Repr

/-- Wipe plan record (R122). -/
structure WipePlan where
  items : List WipeItem
  overwrite : Bool
  full : Bool
  cursor : Option Nat
deriving DecidableEq, Repr

/-- Close marker, the content of the marker cell (R75, R79). -/
structure CloseMarker where
  number : Count32
  cells : List Cell
deriving DecidableEq, Repr

/-! ### The Persistent Store -/

/-- One copy of a cell (R75); `passes` says whether its check value agrees (log 11). -/
structure CellCopy (α : Type) where
  content : α
  version : Count32
  tag : Count32
  passes : Bool
deriving DecidableEq, Repr

/-- A cell: its two copies, and which is effective; none when it failed in both copies (R75, R84). -/
structure CellPair (α : Type) where
  a : CellCopy α
  b : CellCopy α
  effective : Option Side
deriving DecidableEq, Repr

/-- A record of a commit group: the cell it is for and its whole new content (R76). -/
inductive Record where
  | cred (slot : SlotId) (r : CredRecord)
  | range (n : RangeId) (r : RangeRecord)
  | shadow (r : ShadowRecord)
  | counters (r : Counters)
  | binding (r : BindingRecord)
  | triggers (r : TriggerTable)
  | lockdown (r : LockdownRecord)
  | plan (r : WipePlan)
  | token (r : Option (List Byte))
deriving DecidableEq, Repr

/-- The three submitters (R78). -/
inductive Submitter where
  | executor | wipeEngine | triggerUnit
deriving DecidableEq, Repr

/-- What the owners do at the close of a group, beside taking up its records: the purpose of the group (R77 step 3). -/
inductive Effect where
  /-- the group of the request in execution -/
  | request
  /-- the CHARGE stage's group (R152): the marker's slot, and whether it locks out -/
  | chargeStage (slot : SlotId) (lockedOut : Bool)
  /-- a lockdown record brought up to the working state (R117) -/
  | lockdownRecord
  /-- the plan group of the WIPE in execution, which its close answers (R125) -/
  | planAccepted
  /-- a trim group (R127) -/
  | trimmed (r : RangeId)
  /-- a key step group: the new key (R127, R128) -/
  | keyStep (target : Owner) (key : Key)
  /-- a cursor group (R131) -/
  | cursor
  /-- the group that writes an item DONE, or the emptied plan after it (R132, R133) -/
  | itemDone (target : Owner)
  /-- a plan whose last item, that of the target, became DONE with the full-wipe flag clear (R133) -/
  | planEnded (target : Owner)
  /-- the final group of a full wipe: range 0's and the shadow's new keys (R133, R134) -/
  | finalCommit (key : Key)
deriving DecidableEq, Repr

/-- A commit group (R76). `rewrites` marks a key step, trim or final group, which R129 serialises; `final` a final group. -/
structure Group where
  submitter : Submitter
  records : List Record
  effects : List Effect
  rewrites : Bool
  final : Bool
deriving DecidableEq, Repr

/-- Where the writing of a group stands (R77, R81): the copy being written and the writes of it made; the marker; or the restore of a
failed group (cells still to restore, writes of the first made, cells that could not be written). -/
inductive WriteStage where
  | copies (index tries : Nat)
  | marker (tries : Nat)
  | restoring (left : List Cell) (tries : Nat) (failed : List Cell)
deriving DecidableEq, Repr

/-- The group being written, with its sequence number (R76, R77). -/
structure Writing where
  group : Group
  number : Count32
  stage : WriteStage
deriving DecidableEq, Repr

/-- The Persistent Store (R74 to R88). -/
structure Store where
  profile : CellPair Profile
  creds : Vector (CellPair CredRecord) 8
  ranges : Vector (CellPair RangeRecord) 16
  shadow : CellPair ShadowRecord
  counters : CellPair Counters
  binding : CellPair BindingRecord
  triggers : CellPair TriggerTable
  lockdown : CellPair LockdownRecord
  plan : CellPair WipePlan
  token : CellPair (Option (List Byte))
  marker : CellPair CloseMarker
  lastClosed : Count32
  writing : Option Writing
  queue : List Group
  held : List Group
  failed : List Cell
  writtenSince : List Cell
  wipeAccepted : Bool
deriving DecidableEq, Repr

/-! ### Range Table and Key Cache -/

/-- Service state of a range (R1). -/
inductive Service where
  | undefined | active | updating | lockdown | erasing
deriving DecidableEq, Repr

/-- Volatile part of a range entry (R1), with the lockdown response in force (R10, R27). -/
structure RangeLive where
  readLocked : Bool
  writeLocked : Bool
  service : Service
  inForce : LockdownResponse
deriving DecidableEq, Repr

/-- Shadow state (R13). -/
inductive ShadowState where
  | off | on | loading
deriving DecidableEq, Repr

/-- Staged entry (R14). -/
structure Staged where
  fields : RangeFields
  newKey : Bool
deriving DecidableEq, Repr

/-- State of a Key Cache entry (R34). -/
inductive KeyState where
  | empty | live | draining
deriving DecidableEq, Repr

/-- Key Cache entry (R34). -/
structure KeyEntry where
  state : KeyState
  material : Option Key
  generation : Option Count32
  refs : Nat
deriving DecidableEq, Repr

/-! ### Transfers and lanes -/

/-- Disposition of an admitted segment (R33). -/
inductive Disposition where
  | cipher | shadow | zero
deriving DecidableEq, Repr

/-- Reason of a REFUSED reply (R24). -/
inductive RefuseReason where
  | badDescriptor | starting | asleep | storeFault | tagBusy | outOfRange | erasing | rangeUpdating | lockdown | locked
  | bindingPending
deriving DecidableEq, Repr

/-- Step of a segment (R33). -/
inductive SegStep where
  | waiting | inLane | finished | discarded | stopped
deriving DecidableEq, Repr

/-- The values recorded for a CIPHER segment (R30): data units per block k, base s, tweak origin o. -/
structure TweakBase where
  k : Nat
  base : Nat
  origin : BitVec 64
deriving DecidableEq, Repr

/-- Segment record (R33). -/
structure Segment where
  owner : Owner
  first : Nat
  count : Nat
  disposition : Disposition
  tweak : Option TweakBase
  keyRef : Option Owner
  progress : Nat
  step : SegStep
deriving DecidableEq, Repr

/-- Outcome state of a transfer (R32). -/
inductive TransferState where
  | running | cancelling | aborting | done | cancelled | aborted | mediaError
deriving DecidableEq, Repr

/-- Abort reason (R32). -/
inductive AbortReason where
  | lockdown | erase | reset
deriving DecidableEq, Repr

/-- In-flight entry in use (R32). -/
structure Transfer where
  direction : Direction
  start : Nat
  count : Nat
  generation : Count32
  sequence : Nat
  segments : List Segment
  state : TransferState
  abortReason : Option AbortReason
  failingLba : Option Nat
deriving DecidableEq, Repr

/-- What a lane works (R38): a segment of an in-flight entry, a segment that belongs to no transfer any more (R46), with its owner if it
writes (R130), or an overwrite segment of the Wipe Engine (R130). -/
inductive LaneTask where
  | transfer (tag : Tag) (index : Nat)
  | cleared (write : Option Owner)
  | overwrite (first count progress : Nat)
deriving DecidableEq, Repr

/-- A lane (R38): `issued` are the blocks whose media operation is not answered yet, oldest first; `fetched` the blocks read and not
yet delivered; `failing` the block a media error named while the lane waits for its other writes (R42). -/
structure Lane where
  task : Option LaneTask
  issued : List Nat
  fetched : List (Nat × List Byte)
  stopping : Bool
  failing : Option Nat
deriving DecidableEq, Repr

/-- The arbiter's sides (R40). -/
inductive ArbiterSide where
  | transfer | wipe
deriving DecidableEq, Repr

/-! ### Credential Engine, Binding Unit, Trigger Unit, Wipe Engine, Power Unit, Event Unit -/

/-- Authority record with a holder (R71); the role is the slot's (R50). -/
structure Authority where
  slot : SlotId
  unwrap : Unwrap
deriving DecidableEq, Repr

/-- Who a derivation runs for (R52). -/
inductive DerivationUser where
  | executor | wipeEngine
deriving DecidableEq, Repr

/-- Binding state (R91). -/
inductive BindingState where
  | unenrolled | checking | bound | mismatch | fault
deriving DecidableEq, Repr

/-- Kind of a tether page (R172). -/
inductive PageKind where
  | challenge | response | ack | enrol
deriving DecidableEq, Repr

/-- Tether page (R172), less its check byte. -/
structure TetherPage where
  kind : PageKind
  toggle : Bool
  more : Bool
  acknowledge : Bool
  index : Nat
  payload : Word16
deriving DecidableEq, Repr

/-- The last page taken from the platform security module (R91, R93). -/
structure PageId where
  kind : PageKind
  index : Nat
  toggle : Bool
deriving DecidableEq, Repr

/-- Where a round or enrolment exchange stands: a page of the part waits for its acknowledgement, a page of the module is waited for,
or the 200 ms between two rounds or exchanges pass (R92, R93, R96, R101). -/
inductive ExchangePhase where
  | sending (index : Nat)
  | awaiting (index : Nat)
  | pausing
deriving DecidableEq, Repr

/-- The exchange in progress (R91). -/
inductive Exchange where
  | none
  | check (phase : ExchangePhase)
  | enrol (phase : ExchangePhase)
deriving DecidableEq, Repr

/-- Volatile state of the Binding Unit (R91, R94, R101). -/
structure Binding where
  state : BindingState
  exchange : Exchange
  reference : Option BindingState
  rounds : Nat
  toggle : Bool
  lastPage : Option PageId
  gated : List RangeId
  recheck : Option Nat
  challenge : Option Word32
  firstHalf : Option Word16
  freshSecret : Option Word32
  failures : Nat
  waitSince : Nat
deriving DecidableEq, Repr

/-- The Trigger Unit's idle timer (R110): stopped, running since a moment, or stopped at the limit. -/
inductive IdleTimer where
  | stopped
  | running (since : Nat)
  | expired
deriving DecidableEq, Repr

/-- Volatile state of the Trigger Unit (chapter 6). -/
structure TriggerUnit where
  working : LockdownRecord
  bayLine : BayLevel
  bayLevel : BayLevel
  candidate : BayLevel
  stability : Option Nat
  bayTaken : Bool
  idle : IdleTimer
  held : List Trigger
deriving DecidableEq, Repr

/-- Preparation of the full wipe's final group (R133). -/
inductive FinalPhase where
  | none
  | deriving (salt : Word32)
  | ready (salt : Word32)
  | submitted
deriving DecidableEq, Repr

/-- Volatile state of the Wipe Engine (R122, R130, R137). -/
structure Wipe where
  intended : WipePlan
  key : Option Key
  position : Option Nat
  count : Nat
  asked : Bool
  overwriting : Bool
  stepInFlight : Bool
  final : FinalPhase
deriving DecidableEq, Repr

/-- Part state (R138). -/
inductive PartState where
  | starting | ready | sleepEntering | asleep | failsafe
deriving DecidableEq, Repr

/-- Start cause (R149). -/
inductive StartCause where
  | powerOn | partReset
deriving DecidableEq, Repr

/-- Start-up stage (R151 to R155): the CHARGE group is in progress, RESTORE is due, or start-up has ended. -/
inductive StartStage where
  | charge | restoreDue | ended
deriving DecidableEq, Repr

/-- State of the Power Unit (R138, R149, R156). -/
structure Power where
  powered : Bool
  part : PartState
  stage : StartStage
  restarting : Bool
  cause : StartCause
  rollbackFound : Bool
  attemptCharged : Bool
  slp : Bool
  hold : Bool
  drained : Bool
  relocked : Bool
deriving DecidableEq, Repr

/-- Event kinds (R173). -/
inductive EventKind where
  | attemptCharged | slotLockedOut | triggerFired | lockdownEntered | lockdownLeft | wipeStepDone | wipeComplete
  | bindingChanged | bayChanged | authorityEnded | mediaViewChanged | storeRollback | storeFault | sleepReady
deriving DecidableEq, Repr

/-- State of the Event Unit (R174, R177, R179). -/
structure Events where
  pending : List EventKind
  enabled : List EventKind
  detail : List Trigger
  latchedOpen : Bool
  alert : Bool
deriving DecidableEq, Repr

/-! ### The request executor -/

/-- A direction set whose members are named. -/
structure DirSet where
  read : Bool
  write : Bool
deriving DecidableEq, Repr

/-- An unlock set entry (R57). -/
structure Unlock where
  range : RangeId
  dirs : DirSet
deriving DecidableEq, Repr

/-- How far an AUTHENTICATE has gone (R58 to R62). -/
inductive AttemptPhase where
  | charging
  | deriving
  | verdict (success : Bool)
  | settling
deriving DecidableEq, Repr

/-- An AUTHENTICATE in execution (R57 to R62). `settledAt` is the verdict time, or the FRONT_RESET of an attempt abandoned before it. -/
structure Attempt where
  slot : SlotId
  secret : List Byte
  unlock : List Unlock
  phase : AttemptPhase
  settledAt : Nat
deriving DecidableEq, Repr

/-- What is held against an affected range until the switch (R20). -/
inductive Held where
  | lockdown | erasing
deriving DecidableEq, Repr

/-- A RANGE-COMMIT in execution (R19 to R22): the affected ranges with their previous service states, what is held against them, the
range keys found in hand at its validation (R18 check 7), the fresh keys its group carries, and when the drain limit started. -/
structure Commit where
  affected : List (RangeId × Service)
  held : List (RangeId × Held)
  keys : List (RangeId × Key)
  newKeys : List (RangeId × Key)
  drainSince : Nat
deriving DecidableEq, Repr

/-- A CRED-SET in execution (R66, R67): the policy as it will stand, the new salt, the keys in hand and the ranges to be dropped. -/
structure CredSetJob where
  slot : SlotId
  secret : List Byte
  policy : Policy
  salt : Word32
  keys : List (RangeId × Key)
  dropped : List RangeId
deriving DecidableEq, Repr

/-- CRED-STATE actions (R69). -/
inductive CredAction where
  | enable | disable | reopen
deriving DecidableEq, Repr

/-- A trigger entry that passed the checks of R107. -/
structure TriggerChange where
  trigger : Trigger
  entry : TriggerEntry
deriving DecidableEq, Repr

/-- The work of the request in execution. -/
inductive Job where
  | immediate
  | attempt (a : Attempt)
  | commit (c : Commit)
  | credSet (c : CredSetJob)
  | credPolicy (slot : SlotId) (policy : Policy) (idleLimit : Option Nat)
  | credState (slot : SlotId) (action : CredAction)
  | shadowConfig (enabled : Option Bool) (size : Option Nat)
  | triggerSet (entry : Option TriggerChange) (gmax : Option Nat) (idleLimit : Option Nat)
  | lockdownClear
  | setToken (token : Option (List Byte))
  | wrongToken
  | wipe
  | enrol (recheck : Option Nat) (digest : Option Word16)
deriving DecidableEq, Repr

/-- Where the work stands with the store: not ready to submit, ready and waiting to submit (R129), or submitted. -/
inductive JobStage where
  | working | wanted | submitted
deriving DecidableEq, Repr

/-- States of the request executor (R164). -/
inductive ExecStatus where
  | free | executing | abandoned
deriving DecidableEq, Repr

/-- The request executor (R164): its state, and the kind, tag and work of the request that holds it. -/
structure Executor where
  status : ExecStatus
  kind : Nat
  tag : Byte
  job : Job
  stage : JobStage
deriving DecidableEq, Repr

/-! ### Messages the part sends -/

/-- Result codes (R168). -/
inductive Code where
  | ok | failed | busy | badFrame | unknownKind | badBody | noAuthority | lockedOut | slotState | keyUnavailable | overlap
  | outOfRange | conditionActive | lockdown | starting | asleep | bindingPending | storeFault | drainTimeout | notEnrolled
deriving DecidableEq, Repr

/-- Wipe plan summary (R122, R178). -/
structure PlanSummary where
  items : Nat
  current : Option WipeItem
  cursor : Option Nat
  overwrite : Bool
  full : Bool
deriving DecidableEq, Repr

/-- One range as STATUS reports it (R178). -/
structure RangeReport where
  service : Service
  readLocked : Bool
  writeLocked : Bool
deriving DecidableEq, Repr

/-- The fields of a STATUS reply (R178). -/
structure StatusReport where
  part : PartState
  cause : StartCause
  rollbackFound : Bool
  attemptCharged : Bool
  lockdown : LockdownRecord
  binding : BindingState
  bay : BayLevel
  latchedOpen : Bool
  shadow : ShadowState
  holder : Option (SlotId × Role)
  ranges : List RangeReport
  g : Nat
  tableGeneration : Count32
  plan : PlanSummary
  pending : List EventKind
  enabled : List EventKind
  detail : List Trigger
  inFlight : Nat
deriving DecidableEq, Repr

/-- The entry fields RANGE-READ returns of the committed table (R17): start and length absent for range 0. -/
structure RangeReadReport where
  number : RangeId
  start : Option Nat
  length : Option Nat
  committed : RangeFields
  readLocked : Bool
  writeLocked : Bool
  tweakOrigin : BitVec 64
  generation : Count32
  service : Service
  staged : Staged
  tableGeneration : Count32
deriving DecidableEq, Repr

/-- The fields a reply carries after its result code (R162, R168). -/
inductive Payload where
  | none
  | failed (remaining retryAfter : Option Nat)
  | retryAfter (n : Nat)
  | range (r : Option RangeId)
  | authenticated (role : Role) (applied : List Unlock) (skipped : List (RangeId × Code))
  | locks (readLocked writeLocked : Bool)
  | generation (g : Count32)
  | rangeRead (r : RangeReadReport)
  | credSet (policy : Policy) (dropped : List RangeId)
  | credPolicy (policy : Policy) (failures : Nat) (idleLimit : Nat)
  | credState (state : SlotState) (failures : Nat)
  | shadowConfig (enabled : Bool) (size : Nat)
  | shadowState (s : ShadowState)
  | enrolment (digest : Word16) (recheck : Nat)
  | triggers (t : TriggerTable)
  | items (n : Nat)
  | events (enabled pending : List EventKind)
  | pendingEvents (pending : List EventKind)
  | status (r : StatusReport)
deriving DecidableEq, Repr

/-- A reply record (R162): the kind byte, the request's tag, the result code and the fields it carries. -/
structure Reply where
  kind : Byte
  tag : Byte
  code : Code
  payload : Payload
deriving DecidableEq, Repr

/-- A message the part has sent, on the port the constructor names (R171, R172, R38). -/
inductive Sent where
  | admitted (tag : Byte) (segments : Nat) (generation : Count32)
  | refused (tag : Byte) (reason : RefuseReason) (owner : Option Owner)
  | cancelReply (tag : Byte) (found : Bool)
  | completion (tag : Tag) (state : TransferState) (reason : Option AbortReason) (failingLba : Option Nat)
  | data (tag : Tag) (block : Nat) (bytes : List Byte)
  | mediaRead (lane : LaneId) (lba : Nat)
  | mediaWrite (lane : LaneId) (lba : Nat) (bytes : List Byte)
  | page (p : TetherPage)
  | reply (r : Reply)
deriving DecidableEq, Repr

end Sys2Proof.Machine
end

