-- ==== Sys2Proof/Machine/Manufacture.lean ====
section
/-! DEFINITION. Machine/Manufacture.lean: the contents each record has at manufacture (R1, R13, R50, R51, R56, R74, R90, R106, R117,
R122, R126), which the final commit of a full wipe (R133) and FAILSAFE (R84) also use. -/

namespace Sys2Proof.Machine

/-- Default configurable fields of a range (R1). -/
def defaultFields : RangeFields :=
  { start := 0, length := 0, readLock := false, writeLock := false, lockedRead := .refuse, unitSize := 512, sleep := .drop,
    response := .close, access := [] }

/-- Range record at manufacture (R1); `key` is range 0's generated key. The table generation's first value is log 6. -/
def manufacturedRange (key : Key) (r : RangeId) : RangeRecord :=
  if r = 0 then
    { fields := defaultFields, tweakOrigin := 0, generation := 1, rootWrap := some key, tableGeneration := 0 }
  else
    { fields := defaultFields, tweakOrigin := 0, generation := 0, rootWrap := none, tableGeneration := 0 }

/-- Default policy (R51). -/
def defaultPolicy : Policy := { e := 16, free := 3, base := 10, limit := 0 }

/-- An EMPTY slot with the default policy (R50). -/
def emptySlot : CredRecord :=
  { state := .empty, salt := none, verifier := none, policy := defaultPolicy, failures := 0, wraps := [] }

/-- An ACTIVE slot holding the factory secret under the default policy (R50, R133). -/
def factorySlot (secret : List Byte) (salt : Word32) : CredRecord :=
  { state := .active, salt := some salt, verifier := some { madeFrom := { secret := secret, salt := salt, e := defaultPolicy.e } },
    policy := defaultPolicy, failures := 0, wraps := [] }

/-- Shadow record at manufacture (R13). -/
def manufacturedShadow (key : Key) : ShadowRecord :=
  { enabled := false, size := Config.shadowMax, rootWrap := key }

/-- Counters record at manufacture (R56). -/
def manufacturedCounters : Counters := { g := 0, marker := none, idleLimit := 300 }

/-- Binding record at manufacture (R90). -/
def manufacturedBinding : BindingRecord := { enrolled := none, recheck := 10 }

/-- Trigger table at manufacture (R106). -/
def manufacturedTriggers : TriggerTable :=
  { guessLimit := ⟨.lockdown, false⟩, unbound := ⟨.lockdown, false⟩, bayOpen := ⟨.relock, false⟩, idle := ⟨.note, false⟩,
    gmax := 40, idleLimit := 0 }

/-- Lockdown record at manufacture (R117). -/
def manufacturedLockdown : LockdownRecord := { device := .normal, causes := [] }

/-- Wipe plan without items (R122). -/
def emptyPlan : WipePlan := { items := [], overwrite := false, full := false, cursor := none }

/-- A cell as written at manufacture: both copies alike, version 1, tag 0 (R74). -/
def manufacturedCell {α : Type} (content : α) : CellPair α :=
  { a := ⟨content, 1, 0, true⟩, b := ⟨content, 1, 0, true⟩, effective := some .a }

/-- Drive profile the model's part is personalised with. DESIGN CHOICE (log 7): B and C as in the worked example of 1.9. -/
def modelProfile : Profile :=
  { blockSize := 4096, capacity := 250000000, factorySecret := List.replicate 32 0, rootKey := 0 }

/-- The Persistent Store at manufacture (R74). Keys and salt are the free values 0 to 2 (log 8). The marker cell's copies have version 1 and
tag 0 like those of the record cells; R74 gives only their content (DESIGN CHOICE, log 67). -/
def manufacturedStore : Store :=
  { profile := manufacturedCell modelProfile
    creds := tab8 fun i =>
      manufacturedCell (if i = 0 then factorySlot modelProfile.factorySecret (Config.freshSalt 2) else emptySlot)
    ranges := tab16 fun i => manufacturedCell (manufacturedRange (Config.freshKey 0) i)
    shadow := manufacturedCell (manufacturedShadow (Config.freshKey 1))
    counters := manufacturedCell manufacturedCounters
    binding := manufacturedCell manufacturedBinding
    triggers := manufacturedCell manufacturedTriggers
    lockdown := manufacturedCell manufacturedLockdown
    plan := manufacturedCell emptyPlan
    token := manufacturedCell none
    marker := manufacturedCell { number := 0, cells := [] }
    lastClosed := 0, writing := none, queue := [], held := [], failed := [], writtenSince := [], wipeAccepted := false }

/-- An EMPTY Key Cache entry (R34). -/
def emptyKey : KeyEntry := { state := .empty, material := none, generation := none, refs := 0 }

/-- An idle lane (R38, R48). -/
def idleLane : Lane := { task := none, issued := [], fetched := [], stopping := false, failing := none }

/-- The executor FREE (R164). -/
def freeExecutor : Executor := { status := .free, kind := 0, tag := 0, job := .immediate, stage := .working }

/-- The Binding Unit with no exchange (R105), in the given state. -/
def restingBinding (state : BindingState) : Binding :=
  { state := state, exchange := .none, reference := none, rounds := 0, toggle := false, lastPage := none, gated := [],
    recheck := none, challenge := none, firstHalf := none, freshSecret := none, failures := 0, waitSince := 0 }

/-- The Wipe Engine at start-up (R137), its intended plan equal to the given plan. -/
def restingWipe (plan : WipePlan) : Wipe :=
  { intended := plan, key := none, position := none, count := 0, asked := false, overwriting := false, stepInFlight := false,
    final := .none }

/-- The Event Unit at entry into STARTING (R174, R177); the latched-open flag follows the starting bay level (R179). -/
def restingEvents (bay : BayLevel) : Events :=
  { pending := [], enabled := [], detail := [], latchedOpen := bay == .open, alert := false }

/-- The Trigger Unit at entry into STARTING (R109, R121), with the BAY line at the given level. -/
def restingTriggerUnit (line : BayLevel) : TriggerUnit :=
  { working := manufacturedLockdown, bayLine := line, bayLevel := line, candidate := line, stability := none, bayTaken := false,
    idle := .stopped, held := [] }

/-- The committed entry of a range just after the table is rebuilt (R23): enabled directions closed. -/
def rebuiltRange (r : RangeId) (record : RangeRecord) : RangeLive :=
  { readLocked := record.fields.readLock, writeLocked := record.fields.writeLock,
    service := if r ≠ 0 ∧ record.fields.length = 0 then .undefined else .active,
    inForce := record.fields.response }

end Sys2Proof.Machine
end

