-- ==== Sys2Proof/Machine/State.lean ====
section
/-! DEFINITION. Machine/State.lean: the whole state of the part as plain data, the reasons a step can stop, and the state after reset. -/

namespace Sys2Proof.Machine

/-- Reasons a step can fault: none. The manual names no command and no state in which the part stops; FAILSAFE, refusals and media
errors are effects on the state. A step of this model therefore never faults (safe: nothing is cut short). -/
inductive Fault where
deriving DecidableEq, Repr

/-- Reasons a step can be refused. -/
inductive Refusal where
  /-- Raised only by an arm of `exec` whose command has no meaning yet (safe: nothing is claimed of it). No arm raises it. -/
  | notModelled (mnemonic : String)
deriving DecidableEq, Repr

/-- The state of the part. Fields marked "model's own" are not in the manual (log 1, 8, 13, 32). -/
structure State where
  /-- Power Unit (R138, R149) -/
  power : Power
  /-- Persistent Store (R74) -/
  store : Store
  /-- volatile part of the sixteen range entries (R1) -/
  table : Vector RangeLive 16
  /-- shadow state (R13) -/
  shadow : ShadowState
  /-- staging copy (R14) -/
  staging : Vector Staged 16
  /-- Key Cache entries of the ranges (R34) -/
  cache : Vector KeyEntry 16
  /-- Key Cache entry of the shadow (R34, R49) -/
  shadowEntry : KeyEntry
  /-- in-flight table by tag (R32) -/
  inflight : Vector (Option Transfer) 32
  /-- next admission sequence number (R29) -/
  nextSequence : Nat
  /-- the four lanes (R38) -/
  lanes : Vector Lane 4
  /-- model's own: media operations a lane keeps unanswered (log 13) -/
  laneWindow : Nat
  /-- last-granted side (R40) -/
  lastGranted : ArbiterSide
  /-- open-at time of each slot, in ms of the clock (R50) -/
  openAt : Vector Nat 8
  /-- authority record; none when no slot holds authority (R71) -/
  authority : Option Authority
  /-- authority idle timer: the moment it runs from (R71) -/
  authTimer : Option Nat
  /-- derivations: the first runs, the others wait (R52) -/
  derivations : List DerivationUser
  /-- Binding Unit (R91) -/
  binding : Binding
  /-- Trigger Unit -/
  trigger : TriggerUnit
  /-- Wipe Engine (R122) -/
  wipe : Wipe
  /-- Event Unit (R174) -/
  events : Events
  /-- request executor (R164) -/
  executor : Executor
  /-- model's own: the moment "now" in ms (log 1) -/
  clock : Nat
  /-- model's own: how many free values have been drawn (log 8) -/
  entropy : Nat
  /-- model's own: messages sent, oldest first (log 32) -/
  sent : List Sent
  /-- the commands waiting, first in first out -/
  pending : List Instr
deriving DecidableEq, Repr

/-- The part right after the POWER_ON reset, its store at manufacture contents, at the start of STARTING with the STORE_SCAN and CHARGE
stages ended and RESTORE due (R149, R151, R152; log 6). -/
def State.reset : State :=
  { power :=
      { powered := true, part := .starting, stage := .restoreDue, restarting := false, cause := .powerOn,
        rollbackFound := false, attemptCharged := false, slp := false, hold := false, drained := false, relocked := false }
    store := manufacturedStore
    table := tab16 fun i => rebuiltRange i (manufacturedRange (Config.freshKey 0) i)
    shadow := .off
    staging := tab16 fun _ => { fields := defaultFields, newKey := false }
    cache := tab16 fun _ => emptyKey
    shadowEntry := emptyKey
    inflight := tab32 fun _ => none
    nextSequence := 0
    lanes := tab4 fun _ => idleLane
    laneWindow := 1
    lastGranted := .transfer
    openAt := tab8 fun _ => 0
    authority := none
    authTimer := none
    derivations := []
    binding := restingBinding .unenrolled
    trigger := restingTriggerUnit .closed
    wipe := restingWipe emptyPlan
    events := restingEvents .closed
    executor := freeExecutor
    clock := 0
    entropy := 3
    sent := []
    pending := [] }

end Sys2Proof.Machine
end

