-- ==== Sys2Proof/Machine/Ops.lean ====
section
/-! DEFINITION. Machine/Ops.lean: the named reads and writes of the state that every block's operations use. -/

namespace Sys2Proof.Machine

/-! ### Reading the Persistent Store (R80, R84) -/

/-- The copy of a cell on one side (R75). -/
def CellPair.copy {α : Type} (c : CellPair α) : Side → CellCopy α
  | .a => c.a
  | .b => c.b

/-- The content a block reads from a cell: the effective copy's, and for a cell that failed in both copies its manufacture contents
(R80, R84). A cell on the list of failed cells that has kept one good copy, because only a write or a repair write of it failed (R81, R82),
is read as that copy (DEDUCED, log 78). -/
def CellPair.read {α : Type} (c : CellPair α) (lost : α) : α :=
  match c.effective with
  | some side => (c.copy side).content
  | none => lost

/-- How a range record that failed in both copies is read (R84): the defaults, with no key under the root. -/
def lostRange (r : RangeId) : RangeRecord :=
  { manufacturedRange 0 r with rootWrap := none }

/-- The drive profile in force. Its loss in both copies is asked for by `profileLost`. -/
def State.profile (s : State) : Profile := s.store.profile.read s.store.profile.a.content
/-- The drive profile is among the failed cells: it failed in both copies, or its repair failed (R84, R86). -/
def State.profileLost (s : State) : Bool := s.store.profile.effective.isNone || Cell.profile ∈ s.store.failed
/-- Working credential record of a slot (R50, R80). -/
def State.cred (s : State) (i : SlotId) : CredRecord := s.store.creds[i].read emptySlot
/-- Persisted part of the committed entry of a range (R1, R80). -/
def State.range (s : State) (r : RangeId) : RangeRecord := s.store.ranges[r].read (lostRange r)
/-- Persisted part of the shadow record (R13). A lost root wrap reads as an unstated key (log 17). -/
def State.shadowRecord (s : State) : ShadowRecord := s.store.shadow.read (manufacturedShadow (Config.unstatedKey 0))
/-- Counters record (R56); its G is the working G, "including a charge that stands" (R178). -/
def State.counters (s : State) : Counters := s.store.counters.read manufacturedCounters
/-- Binding record (R90). -/
def State.bindingRecord (s : State) : BindingRecord := s.store.binding.read manufacturedBinding
/-- Trigger table (R106). -/
def State.triggers (s : State) : TriggerTable := s.store.triggers.read manufacturedTriggers
/-- Lockdown record (R117). -/
def State.lockdownRecord (s : State) : LockdownRecord := s.store.lockdown.read manufacturedLockdown
/-- Effective wipe plan (R122). -/
def State.plan (s : State) : WipePlan := s.store.plan.read emptyPlan
/-- Wipe token cell (R126). -/
def State.token (s : State) : Option (List Byte) := s.store.token.read none
/-- Table generation, carried in the range 0 record (R21, R23). -/
def State.tableGeneration (s : State) : Count32 := (s.range 0).tableGeneration
/-- The drive is ENROLLED (R90). -/
def State.enrolled (s : State) : Bool := s.bindingRecord.enrolled.isSome

/-! ### Writing one part of the state -/

/-- Change the volatile part of one range entry. -/
def State.modRange (s : State) (r : RangeId) (f : RangeLive → RangeLive) : State :=
  { s with table := s.table.set r (f s.table[r]) }

/-- The Key Cache entry of an owner (R34). -/
def State.key (s : State) : Owner → KeyEntry
  | .range r => s.cache[r]
  | .shadow => s.shadowEntry

/-- Replace the Key Cache entry of an owner. -/
def State.setKey (s : State) (o : Owner) (k : KeyEntry) : State :=
  match o with
  | .range r => { s with cache := s.cache.set r k }
  | .shadow => { s with shadowEntry := k }

/-- Replace the in-flight entry of a tag; none is "not in use" (R32). -/
def State.setTransfer (s : State) (t : Tag) (x : Option Transfer) : State :=
  { s with inflight := s.inflight.set t x }

/-- Replace a lane. -/
def State.setLane (s : State) (l : LaneId) (x : Lane) : State :=
  { s with lanes := s.lanes.set l x }

/-- Send a message; the log of sent messages keeps their order (R162, log 32). -/
def State.say (s : State) (m : Sent) : State := { s with sent := s.sent ++ [m] }

/-- Draw the number of the next free value (log 8). -/
def State.draw (s : State) : Nat × State := (s.entropy, { s with entropy := s.entropy + 1 })

/-- The clock has reached at least `t` (log 1): a timer's expiry says that its time has passed. -/
def State.reachTime (s : State) (t : Nat) : State := { s with clock := max s.clock t }

/-- Apply `f` to each member of a list in order, carrying the state. -/
def forEach {α : Type} (l : List α) (f : α → State → State) (s : State) : State :=
  l.foldl (fun s x => f x s) s

/-- Add a member to a set kept as a list without repeats. -/
def insertNew {α : Type} [DecidableEq α] (x : α) (l : List α) : List α :=
  if x ∈ l then l else l ++ [x]

/-! ### Small facts about the state -/

/-- Role of a slot, fixed by its number (R50). -/
def roleOf (i : SlotId) : Role :=
  if i.val ≤ 1 then .admin else if i.val = 7 then .recovery else .user

/-- The range is defined: range 0, or a length of 1 or more (R2, R3). -/
def State.defined (s : State) (r : RangeId) : Bool := r = 0 ∨ (s.range r).fields.length ≠ 0

/-- A lock is enabled on the range. -/
def RangeFields.anyLock (f : RangeFields) : Bool := f.readLock || f.writeLock

/-- A lock is enabled on the range. -/
def State.anyLock (s : State) (r : RangeId) : Bool := (s.range r).fields.anyLock

/-- The read direction is closed: its lock is enabled and locked (R5). -/
def State.readClosed (s : State) (r : RangeId) : Bool := (s.range r).fields.readLock && s.table[r].readLocked
/-- The write direction is closed (R5). -/
def State.writeClosed (s : State) (r : RangeId) : Bool := (s.range r).fields.writeLock && s.table[r].writeLocked
/-- The range has an open direction (R5). -/
def State.anyOpen (s : State) (r : RangeId) : Bool := !(s.readClosed r) || !(s.writeClosed r)
/-- The range is ACTIVE with a lock enabled and that direction open (R99, R110, R144). -/
def State.openEnabled (s : State) (r : RangeId) : Bool :=
  s.table[r].service = .active &&
    (((s.range r).fields.readLock && !s.table[r].readLocked) || ((s.range r).fields.writeLock && !s.table[r].writeLocked))

/-- The shadow window is present (R13). -/
def State.windowPresent (s : State) : Bool := s.shadow ≠ .off

/-- The device is in LOCKDOWN (R117). -/
def State.inLockdown (s : State) : Bool := s.trigger.working.device = .lockdown

/-- Data units per block, k = B / U (R1). -/
def State.unitsPerBlock (s : State) (f : RangeFields) : Nat := s.profile.blockSize / f.unitSize

/-- The tweak origin set when a key is generated: start × k, or 0 for range 0 (R4). -/
def State.originFor (s : State) (r : RangeId) (f : RangeFields) : BitVec 64 :=
  if r = 0 then 0 else BitVec.ofNat 64 (f.start * s.unitsPerBlock f)

/-- The item of a plan that is worked: the first whose step is not DONE (R122). -/
def WipePlan.current (p : WipePlan) : Option WipeItem := p.items.find? (fun i => i.step ≠ .done)

/-- The item of a plan for a target. -/
def WipePlan.item (p : WipePlan) (t : Owner) : Option WipeItem := p.items.find? (fun i => i.target = t)

/-- Set the step of a target's item. -/
def WipePlan.setStep (p : WipePlan) (t : Owner) (st : ItemStep) : WipePlan :=
  { p with items := p.items.map (fun i => if i.target = t then { i with step := st } else i) }

/-- Every item of the plan is DONE. -/
def WipePlan.allDone (p : WipePlan) : Bool := p.items.all (fun i => i.step = .done)

/-- A plan holds an item of a target that is not DONE. -/
def WipePlan.unfinished (p : WipePlan) (t : Owner) : Bool := (p.item t).any (fun i => i.step ≠ .done)

/-- The window refuses with ERASING: the wipe plan holds a SHADOW item that is not DONE, or has the full-wipe flag set (R27, R28, R49).
An accepted item counts from its acceptance, and is DONE at the close that writes it so (log 34). -/
def State.shadowErasing (s : State) : Bool :=
  s.plan.full || s.wipe.intended.full || s.plan.unfinished .shadow || s.wipe.intended.unfinished .shadow

/-- The wipe of FAILSAFE is at work, or the part is in a state in which the Wipe Engine may submit (R85, R86, R156). -/
def State.wipeMaySubmit (s : State) : Bool :=
  if s.power.part = .failsafe then s.store.wipeAccepted else !s.power.restarting

end Sys2Proof.Machine
end

