-- ==== Sys2Proof/Machine/Flags.lean ====
section
/-! DEFINITION. Machine/Flags.lean: the Event Unit's sets, the ALERT line and the latched-open flag (chapter 11). -/

namespace Sys2Proof.Machine

/-- The code of an event kind (R173). -/
def EventKind.code : EventKind → Nat
  | .attemptCharged => 1 | .slotLockedOut => 2 | .triggerFired => 3 | .lockdownEntered => 4 | .lockdownLeft => 5
  | .wipeStepDone => 6 | .wipeComplete => 7 | .bindingChanged => 8 | .bayChanged => 9 | .authorityEnded => 10
  | .mediaViewChanged => 11 | .storeRollback => 12 | .storeFault => 13 | .sleepReady => 14

/-- The event kinds in the order of their codes. -/
def allEvents : List EventKind :=
  [.attemptCharged, .slotLockedOut, .triggerFired, .lockdownEntered, .lockdownLeft, .wipeStepDone, .wipeComplete,
   .bindingChanged, .bayChanged, .authorityEnded, .mediaViewChanged, .storeRollback, .storeFault, .sleepReady]

/-- A set of event kinds with a kind added. Sets are kept in the order of the codes, so that equal sets are equal lists and none records
in what order kinds occurred (R173). -/
def withEvent (k : EventKind) (l : List EventKind) : List EventKind := allEvents.filter (fun x => x = k ∨ x ∈ l)

/-- Raise an event kind: it joins the pending set; a raise of a pending kind is absorbed (R173). -/
def State.raise (s : State) (k : EventKind) : State :=
  { s with events := { s.events with pending := withEvent k s.events.pending } }

/-- The event kind of a code; none outside 1 to 14. -/
def eventOfCode (n : Nat) : Option EventKind := allEvents.find? (fun k => k.code = n)

/-- The level ALERT must have: some kind is both pending and enabled (R177). -/
def Events.alertDue (e : Events) : Bool := e.pending.any (fun k => k ∈ e.enabled)

/-- Set ALERT to its level, in the same event as each change to either set (R177). -/
def settleAlert (s : State) : State :=
  { s with events := { s.events with alert := s.events.alertDue } }

/-- Remove kinds from the pending set; when TRIGGER_FIRED leaves it, the detail is emptied (R174 to R176). -/
def Events.clear (e : Events) (kinds : List EventKind) : Events :=
  { e with
    pending := e.pending.filter (fun k => k ∉ kinds)
    detail := if .triggerFired ∈ kinds ∧ .triggerFired ∈ e.pending then [] else e.detail }

/-- EVENTS-ENABLE's effect: replace the enabled set and clear what is newly enabled (R175). -/
def Events.enable (e : Events) (kinds : List EventKind) : Events :=
  { e.clear (kinds.filter (fun k => k ∉ e.enabled)) with enabled := kinds }

/-- A set of triggers with a trigger added, kept in the order of R106. -/
def withTrigger (t : Trigger) (l : List Trigger) : List Trigger :=
  [Trigger.guessLimit, .unbound, .bayOpen, .idle].filter (fun x => x = t ∨ x ∈ l)

/-- A trigger joins the TRIGGER_FIRED detail (R113, R174). -/
def State.addDetail (s : State) (t : Trigger) : State :=
  { s with events := { s.events with detail := withTrigger t s.events.detail } }

/-- A taken change of the bay to OPEN sets the latched-open flag (R179). -/
def State.latchOpen (s : State) (level : BayLevel) : State :=
  { s with events := { s.events with latchedOpen := s.events.latchedOpen || level = .open } }

/-- STATUS re-arms the latched-open flag from the debounced level (R179). -/
def State.rearmLatch (s : State) : State :=
  { s with events := { s.events with latchedOpen := s.trigger.bayLevel = .open } }

end Sys2Proof.Machine
end

