-- ==== Sys2Proof/Machine/Operands.lean ====
section
/-! DEFINITION. Machine/Operands.lean: the forms of request fields: clamped numbers (R51, R169), named sets, slots, ranges, direction
sets and access lists. -/

namespace Sys2Proof.Machine

/-- A number clamped to the nearest end of its range (R169). -/
def clamp (lo hi n : Nat) : Nat := if n < lo then lo else if hi < n then hi else n

/-- The policy values clamped to their ranges (R51). -/
def clampPolicy (p : Policy) : Policy :=
  { e := clamp 10 20 p.e, free := clamp 0 7 p.free, base := clamp 1 255 p.base, limit := clamp 0 31 p.limit }

/-- Authority idle limit, 30 to 3,600 s (R68). -/
def clampAuthIdle (n : Nat) : Nat := clamp 30 3600 n
/-- Gmax, 8 to 255 (R107). -/
def clampGmax (n : Nat) : Nat := clamp 8 255 n
/-- Trigger idle limit, 0 to 240 min (R107). -/
def clampIdleLimit (n : Nat) : Nat := clamp 0 240 n
/-- Recheck interval, 1 to 60 min (R101). -/
def clampRecheck (n : Nat) : Nat := clamp 1 60 n
/-- Shadow size, 1 to 65,536 blocks (R13, R159). -/
def clampShadow (n : Nat) : Nat := clamp 1 Config.shadowMax n

/-- A slot number as received; none above 7. -/
def slotOf (n : Nat) : Option SlotId := if h : n < 8 then some ⟨n, h⟩ else none
/-- A range number as received; none above 15. -/
def rangeIdOf (n : Nat) : Option RangeId := if h : n < 16 then some ⟨n, h⟩ else none

/-- The value of a named field, none when it names none of its set. -/
def fieldValue {α : Type} : Field α → Option α
  | .value a => some a
  | .unknown => none

/-- A direction set: not empty, each member a direction, none twice (R6 check 1, R169). -/
def dirSetOf (l : List (Field Direction)) : Option DirSet :=
  if l ≠ [] ∧ l.Nodup ∧ .unknown ∉ l then
    some { read := .value .read ∈ l, write := .value .write ∈ l }
  else none

/-- Range and direction set of RANGE-UNLOCK, RANGE-LOCK and of an unlock set entry (R6, R7, R57 check 1). -/
def unlockOf (a : RangeDirs) : Option Unlock := do
  let r ← rangeIdOf a.range
  let d ← dirSetOf a.dirs
  return { range := r, dirs := d }

/-- The entries of an unlock set, none if one does not fit or a range appears twice (R57 check 1). -/
def unlockSetOf (l : List RangeDirs) : Option (List Unlock) := do
  let us ← l.mapM unlockOf
  if (us.map (·.range)).Nodup then return us else none

/-- A set of event kinds from its codes: each 1 to 14, none twice (R175, R176); kept in the order of the codes. -/
def eventSetOf (codes : List Nat) : Option (List EventKind) :=
  if codes.Nodup ∧ codes.all (fun n => (eventOfCode n).isSome) then some (allEvents.filter (fun k => k.code ∈ codes)) else none

/-- An access list from its slots: each 0 to 7, none twice; kept ascending (R1, R15). -/
def accessOf (l : List Nat) : Option (List SlotId) :=
  if l.Nodup ∧ l.all (· < 8) then some (allSlots.filter (fun i => i.val ∈ l)) else none

/-- A secret has 8 to 64 bytes (R57, R66). -/
def secretOk (x : List Byte) : Bool := 8 ≤ x.length ∧ x.length ≤ 64

/-- A target of a WIPE scope (R124 check 1). -/
def targetOf : TargetField → Option Owner
  | .range n => (rangeIdOf n).map .range
  | .shadow => some .shadow
  | .unknown => none

/-- The targets of scope ALL: 0 to 15 in number order, then SHADOW (R125). -/
def allTargets : List Owner := allRanges.map .range ++ [.shadow]

/-- The targets of a WIPE scope: 1 to 17, each a range or SHADOW, none twice (R124 check 1). -/
def scopeOf : WipeScope → Option (List Owner)
  | .all => some allTargets
  | .targets ts =>
    if 1 ≤ ts.length ∧ ts.length ≤ 17 ∧ ts.Nodup then ts.mapM targetOf else none

end Sys2Proof.Machine
end

