-- ==== Sys2Proof/Machine/StoreOps.lean ====
section
/-! DEFINITION. Machine/StoreOps.lean: the Persistent Store by itself: copies, commit groups, the queue, restore and the scan
(chapter 4). What the owners do at a close or a failure is in Machine/Close.lean and Machine/Failsafe.lean. -/

namespace Sys2Proof.Machine

/-! ### Cells -/

/-- The cell a record is for. -/
def Record.cell : Record → Cell
  | .cred i _ => .cred i
  | .range r _ => .range r
  | .shadow _ => .shadow
  | .counters _ => .counters
  | .binding _ => .binding
  | .triggers _ => .triggers
  | .lockdown _ => .lockdown
  | .plan _ => .plan
  | .token _ => .token

/-- The other copy's side. -/
def otherSide : Side → Side
  | .a => .b
  | .b => .a

/-- Replace one copy. -/
def CellPair.setCopy {α : Type} (c : CellPair α) : Side → CellCopy α → CellPair α
  | .a, x => { c with a := x }
  | .b, x => { c with b := x }

/-- The copy a write goes to: the one that is not effective (R75). In a cell that failed in both copies, copy A, from the write to the
close or the restore (log 29). -/
def CellPair.target {α : Type} (c : CellPair α) : Side :=
  match c.effective with
  | some side => otherSide side
  | none => .a

/-- The version a write of new content carries: the effective version plus 1 (R75); with no effective copy, that of
copy B plus 1 if B still passes, or 1 (log 29). -/
def CellPair.nextVersion {α : Type} (c : CellPair α) : Count32 :=
  match c.effective with
  | some side => (c.copy side).version + 1
  | none => if c.b.passes then c.b.version + 1 else 1

/-- Write new content into the target copy; `passes` is whether its read-back passes (R77 step 1). -/
def CellPair.writeTarget {α : Type} (c : CellPair α) (content : α) (tag : Count32) (passes : Bool) : CellPair α :=
  c.setCopy c.target { content := content, version := c.nextVersion, tag := tag, passes := passes }

/-- At the close of the group that wrote it, the target becomes effective (R75, R77 step 3). -/
def CellPair.takeTarget {α : Type} (c : CellPair α) : CellPair α := { c with effective := some c.target }

/-- Rewrite the target with the content, version and tag of the effective copy (R81 step 1); with no effective copy, the target that the
failed group wrote fails from now on (log 29). -/
def CellPair.restoreTarget {α : Type} (passes : Bool) (c : CellPair α) : CellPair α :=
  match c.effective with
  | some side => c.setCopy (otherSide side) { c.copy side with passes := passes }
  | none => c.setCopy c.target { c.copy c.target with passes := false }

/-- The target fails its check from now on. -/
def CellPair.spoilTarget {α : Type} (c : CellPair α) : CellPair α :=
  c.setCopy c.target { c.copy c.target with passes := false }

/-- Apply a change that does not look at contents to one cell. -/
def Store.mapCell (st : Store) (f : {α : Type} → CellPair α → CellPair α) : Cell → Store
  | .profile => { st with profile := f st.profile }
  | .cred i => { st with creds := st.creds.set i (f st.creds[i]) }
  | .range r => { st with ranges := st.ranges.set r (f st.ranges[r]) }
  | .shadow => { st with shadow := f st.shadow }
  | .counters => { st with counters := f st.counters }
  | .binding => { st with binding := f st.binding }
  | .triggers => { st with triggers := f st.triggers }
  | .lockdown => { st with lockdown := f st.lockdown }
  | .plan => { st with plan := f st.plan }
  | .token => { st with token := f st.token }
  | .marker => { st with marker := f st.marker }

/-- Write one record of a group into the target copy of its cell (R77 step 1). -/
def Store.writeRecord (st : Store) (tag : Count32) (passes : Bool) : Record → Store
  | .cred i r => { st with creds := st.creds.set i (st.creds[i].writeTarget r tag passes) }
  | .range n r => { st with ranges := st.ranges.set n (st.ranges[n].writeTarget r tag passes) }
  | .shadow r => { st with shadow := st.shadow.writeTarget r tag passes }
  | .counters r => { st with counters := st.counters.writeTarget r tag passes }
  | .binding r => { st with binding := st.binding.writeTarget r tag passes }
  | .triggers r => { st with triggers := st.triggers.writeTarget r tag passes }
  | .lockdown r => { st with lockdown := st.lockdown.writeTarget r tag passes }
  | .plan r => { st with plan := st.plan.writeTarget r tag passes }
  | .token r => { st with token := st.token.writeTarget r tag passes }

/-! ### The commit queue (R78) -/

/-- The cells a group writes. -/
def Group.cells (g : Group) : List Cell := g.records.map Record.cell

/-- Two groups write a common cell. -/
def Group.meets (g h : Group) : Bool := g.cells.any (fun c => c ∈ h.cells)

/-- A record joins a list of records: it replaces the one for its cell, or is appended (R78). -/
def mergeRecord (l : List Record) (r : Record) : List Record :=
  if l.any (fun x => x.cell = r.cell) then l.map (fun x => if x.cell = r.cell then r else x) else l ++ [r]

/-- A group merged into a held one (R78). -/
def Group.merge (h g : Group) : Group :=
  { h with records := g.records.foldl mergeRecord h.records, effects := h.effects ++ g.effects,
           rewrites := h.rewrites || g.rewrites }

/-- The new group may be merged into the held one: not past 8 records, and neither is a final group (R78). -/
def Group.mergeable (h g : Group) : Bool :=
  !h.final && !g.final && (h.merge g).records.length ≤ Config.groupMax

/-- A group made ready while its submitter's previous group is queued or writing: merged into the submitter's last held group, or held
as one of its own (R78). -/
def holdGroup (g : Group) : List Group → List Group
  | [] => [g]
  | x :: xs =>
    if x.submitter = g.submitter ∧ xs.all (fun y => y.submitter ≠ g.submitter) then
      if x.mergeable g then x.merge g :: xs else x :: (xs ++ [g])
    else x :: holdGroup g xs

/-- The submitter has a group queued or writing (R78). -/
def Store.outstanding (st : Store) (who : Submitter) : Bool :=
  st.queue.any (fun g => g.submitter = who) ||
    (match st.writing with
     | some w => w.group.submitter = who
     | none => false)

/-- When the store is idle, the group at the head of the queue begins, with the last closed number plus 1 (R76, R78). -/
def Store.beginNext (st : Store) : Store :=
  match st.writing, st.queue with
  | none, g :: rest =>
    { st with writing := some { group := g, number := st.lastClosed + 1, stage := .copies 0 0 }, queue := rest }
  | _, _ => st

/-- A submission (R78). -/
def Store.submit (st : Store) (g : Group) : Store :=
  if st.outstanding g.submitter then { st with held := holdGroup g st.held }
  else { st with queue := st.queue ++ [g] }.beginNext

/-- The first held group of a submitter joins the tail of the queue (R78). -/
def Store.releaseHeld (st : Store) (who : Submitter) : Store :=
  match st.held.find? (fun g => g.submitter = who) with
  | some g => { st with queue := st.queue ++ [g], held := st.held.erase g }
  | none => st

/-- Every group queued, writing or held (R129; a held group counts, log 20). -/
def Store.waitingGroups (st : Store) : List Group :=
  (match st.writing with
   | some w => [w.group]
   | none => []) ++ st.queue ++ st.held

/-- The store has run out: nothing queued, writing or held (R143, R156). -/
def Store.idle (st : Store) : Bool := st.writing.isNone && st.queue.isEmpty && st.held.isEmpty

/-! ### Writing a group (R77, R81) -/

/-- What one write of the store led to. -/
inductive WriteResult where
  /-- the group goes on -/
  | going (st : Store)
  /-- the restore has ended: the group has failed, with the cells that could not be written -/
  | failed (st : Store) (g : Group) (cells : List Cell)
deriving DecidableEq, Repr

/-- A group has failed its write; its written copies are restored next (R81 step 1), in the order in which the group lists them (DESIGN
CHOICE, log 68). -/
def Store.startRestore (st : Store) (w : Writing) (left : List Cell) (bad : Cell) : WriteResult :=
  match left with
  | [] => .failed st w.group [bad]
  | _ :: _ => .going { st with writing := some { w with stage := .restoring left 0 [bad] } }

/-- The record copy being written has been read back (R77 step 1). -/
def Store.copyWritten (st : Store) (w : Writing) (index tries : Nat) (passed : Bool) : WriteResult :=
  match w.group.records[index]? with
  | none => .going st
  | some r =>
    let st' := st.writeRecord w.number passed r
    if passed then
      .going { st' with writing := some { w with
        stage := if index + 1 = w.group.records.length then .marker 0 else .copies (index + 1) 0 } }
    else if tries + 1 < Config.writeTries then
      .going { st' with writing := some { w with stage := .copies index (tries + 1) } }
    else st'.startRestore w ((w.group.records.take index).map Record.cell) r.cell

/-- The close marker's copy as it is being written (R77 step 2). -/
def Store.writeMarker (st : Store) (w : Writing) (passed : Bool) : Store :=
  { st with marker := st.marker.writeTarget { number := w.number, cells := w.group.cells } w.number passed }

/-- The close marker has failed a read-back (R77 step 2, R81). -/
def Store.markerFailed (st : Store) (w : Writing) (tries : Nat) : WriteResult :=
  let st' := st.writeMarker w false
  if tries + 1 < Config.writeTries then
    .going { st' with writing := some { w with stage := .marker (tries + 1) } }
  else st'.startRestore w w.group.cells .marker

/-- A restore write has been read back (R81 step 1). -/
def Store.restoreWritten (st : Store) (w : Writing) (left : List Cell) (tries : Nat) (failed : List Cell) (passed : Bool) :
    WriteResult :=
  match left with
  | [] => .failed st w.group failed
  | c :: rest =>
    let st' := st.mapCell (CellPair.restoreTarget passed) c
    if passed = false ∧ tries + 1 < Config.writeTries then
      .going { st' with writing := some { w with stage := .restoring (c :: rest) (tries + 1) failed } }
    else
      let failed' := if passed then failed else failed ++ [c]
      match rest with
      | [] => .failed st' w.group failed'
      | _ :: _ => .going { st' with writing := some { w with stage := .restoring rest 0 failed' } }

/-- One write of the writing group has been made and read back (R77, R81). A passing read-back of the marker is the close, which is a
step of its own (log 19). -/
def Store.writeDone (st : Store) (passed : Bool) : WriteResult :=
  match st.writing with
  | none => .going st
  | some w =>
    match w.stage with
    | .copies index tries => st.copyWritten w index tries passed
    | .marker tries => if passed then .going st else st.markerFailed w tries
    | .restoring left tries failed => st.restoreWritten w left tries failed passed

/-- The close of the writing group, once its marker passes: its copies become effective, its number the last closed, the submitter's
first held group joins the queue and the head of the queue begins (R77 step 3, R78). The marker cell counts as written at every close, for
the repair check of R86 (DESIGN CHOICE, log 56). -/
def Store.close (st : Store) (w : Writing) : Store :=
  let flipped := w.group.cells.foldl (fun st c => st.mapCell CellPair.takeTarget c) (st.writeMarker w true)
  let closed := { flipped with
    marker := flipped.marker.takeTarget
    lastClosed := w.number
    writing := none
    writtenSince := (Cell.marker :: w.group.cells).foldl (fun l c => insertNew c l) flipped.writtenSince }
  (closed.releaseHeld w.group.submitter).beginNext

/-- The group that is ready to close: all its copies written, its marker in hand (R77 step 2). -/
def Store.closing (st : Store) : Option Writing :=
  match st.writing with
  | some w =>
    match w.stage with
    | .marker _ => some w
    | _ => none
  | none => none

/-- A group has failed (R81 steps 3 and 4): its unwritten cells join the failed cells; the queue and the held groups are emptied, unless
they are the groups of a wipe accepted in FAILSAFE (R87), which `keep` says. `entering` is whether FAILSAFE is entered now (R86). -/
def Store.fail (st : Store) (g : Group) (cells : List Cell) (keep entering : Bool) : Store :=
  let failed := { st with
    writing := none
    failed := cells.foldl (fun l c => insertNew c l) st.failed
    writtenSince := if entering then [] else st.writtenSince.filter (fun c => c ∉ cells)
    wipeAccepted := false }
  if keep then (failed.releaseHeld g.submitter).beginNext else { failed with queue := [], held := [] }

/-! ### Power loss and the scan (R79, R82 to R84, R89) -/

/-- Power lost in the middle of a write leaves the copy being written failing (R75, R89). Where that was the last passing copy of its group,
the first one written or the last one restored, the scan finds nothing rolled back (DEDUCED, log 58). -/
def Store.cutWrite (st : Store) : Store :=
  match st.writing with
  | none => st
  | some w =>
    match w.stage with
    | .copies index _ =>
      match w.group.records[index]? with
      | some r => st.writeRecord w.number false r
      | none => st
    | .marker _ => st.writeMarker w false
    | .restoring (c :: _) _ _ => st.mapCell CellPair.spoilTarget c
    | .restoring [] _ _ => st

/-- Power is lost: nothing is queued, held or writing any more (R88, R89). -/
def Store.powerLoss (st : Store) (midWrite : Bool) : Store :=
  { (if midWrite then st.cutWrite else st) with writing := none, queue := [], held := [], wipeAccepted := false }

/-- Of two versions that differ, the higher is the other plus 1 modulo 2^32 (R82 step 1). -/
def newerOrEqual (x y : Count32) : Bool := x = y || x = y + 1

/-- The side with the higher version among copies that remain (R82 steps 1 and 3). Of two equal versions, which R82 leaves to the store,
copy A is effective, as it is at manufacture (DESIGN CHOICE, log 43). -/
def CellPair.choose {α : Type} (c : CellPair α) (remains : CellCopy α → Bool) : Option Side :=
  match remains c.a, remains c.b with
  | true, true => if newerOrEqual c.a.version c.b.version then some .a else some .b
  | true, false => some .a
  | false, true => some .b
  | false, false => none

/-- What the scan finds of one cell. -/
structure ScanResult (α : Type) where
  pair : CellPair α
  rolledBack : Bool
  repairFailed : Bool
deriving DecidableEq, Repr

/-- The scan settles one cell (R82 steps 2 to 5). `unclosed` is the tag of the group that never closed (none when the marker cell is
lost, and for the marker cell itself); `last` is the last group's number when the cell is in its list; `repairs` is whether a
repair write passes. A cell without a passing copy that carries the unclosed tag is not rolled back, as R83 has it and against the second
row of R89 where the first copy of a group was being written, and its fifth row where the last one was being restored (DEDUCED, log 58). -/
def CellPair.scan {α : Type} (c : CellPair α) (unclosed last : Option Count32) (repairs : Bool) : ScanResult α :=
  let open' := fun (x : CellCopy α) => x.passes && (unclosed = some x.tag)
  let remains := fun (x : CellCopy α) => x.passes && !(unclosed = some x.tag)
  let rolledBack := open' c.a || open' c.b
  let clean := { c with a := if open' c.a then { c.a with passes := false } else c.a
                        b := if open' c.b then { c.b with passes := false } else c.b }
  match c.choose remains with
  | none => { pair := { clean with effective := none }, rolledBack := rolledBack, repairFailed := false }
  | some side =>
    if last.any (fun z => (c.copy side).tag ≠ z) then
      { pair := { clean with effective := none }, rolledBack := rolledBack, repairFailed := false }
    else if remains (c.copy (otherSide side)) then
      { pair := { clean with effective := some side }, rolledBack := rolledBack, repairFailed := false }
    else
      { pair := (clean.setCopy (otherSide side) { c.copy side with passes := repairs }).setCopy side (c.copy side) |>
          fun p => { p with effective := some side }
        rolledBack := rolledBack
        repairFailed := !repairs }

/-- The tags of the copies of a cell that pass. -/
def CellPair.passingTags {α : Type} (c : CellPair α) : List Count32 :=
  (if c.a.passes then [c.a.tag] else []) ++ (if c.b.passes then [c.b.tag] else [])

/-- The tags of all passing record copies. -/
def Store.passingTags (st : Store) : List Count32 :=
  st.profile.passingTags ++ (allSlots.flatMap fun i => st.creds[i].passingTags) ++
    (allRanges.flatMap fun r => st.ranges[r].passingTags) ++ st.shadow.passingTags ++ st.counters.passingTags ++
    st.binding.passingTags ++ st.triggers.passingTags ++ st.lockdown.passingTags ++ st.plan.passingTags ++ st.token.passingTags

/-- The highest of a list of tags (R82 step 1, for a lost marker cell). With no passing record copy either, R82 gives Z no value, and the
model takes 0 (DESIGN CHOICE, log 73). -/
def highestTag (l : List Count32) : Count32 := l.foldl (fun m t => if m.toNat < t.toNat then t else m) 0

/-- Copies that decayed fail their check (R75, log 18). -/
def Store.decay (st : Store) (l : List (Cell × Side)) : Store :=
  l.foldl (fun st p => st.mapCell (fun c => c.setCopy p.2 { c.copy p.2 with passes := false }) p.1) st

/-- The record cells, in the order of the table of R74. -/
def recordCells : List Cell :=
  [.profile] ++ allSlots.map .cred ++ allRanges.map .range ++
    [.shadow, .counters, .binding, .triggers, .lockdown, .plan, .token]

/-- The store after a scan, whether a group was rolled back (R83), and whether the part goes to FAILSAFE (R84). -/
structure ScanOutcome where
  store : Store
  rolledBack : Bool
  failsafe : Bool
deriving DecidableEq, Repr

/-- A predicate of the scan result of one record cell, whatever its content. -/
def Store.scanTest (st : Store) (scanOf : {α : Type} → Cell → CellPair α → ScanResult α)
    (p : {α : Type} → ScanResult α → Bool) : Cell → Bool
  | .profile => p (scanOf .profile st.profile)
  | .cred i => p (scanOf (.cred i) st.creds[i])
  | .range r => p (scanOf (.range r) st.ranges[r])
  | .shadow => p (scanOf .shadow st.shadow)
  | .counters => p (scanOf .counters st.counters)
  | .binding => p (scanOf .binding st.binding)
  | .triggers => p (scanOf .triggers st.triggers)
  | .lockdown => p (scanOf .lockdown st.lockdown)
  | .plan => p (scanOf .plan st.plan)
  | .token => p (scanOf .token st.token)
  | .marker => false

/-- The store scan (R82 to R84): the marker cell first, then each record cell; the queue and held groups are gone (R88). -/
def Store.scan (st0 : Store) (found : ScanFindings) : ScanOutcome :=
  let st := st0.decay found.decayed
  let m := st.marker.scan none none (.marker ∉ found.repairFails)
  let marked := m.pair.effective.isSome
  let content := m.pair.read { number := highestTag st.passingTags, cells := [] }
  let z := if marked then content.number else highestTag st.passingTags
  let cells := if marked then content.cells else []
  let scanOf := fun {α : Type} (c : Cell) (pair : CellPair α) =>
    pair.scan (if marked then some (z + 1) else none) (if c ∈ cells then some z else none) (c ∉ found.repairFails)
  let rolled := recordCells.filter (st.scanTest scanOf (fun x => x.rolledBack))
  let lost := recordCells.filter (st.scanTest scanOf (fun x => x.pair.effective.isNone))
  let broken := recordCells.filter (st.scanTest scanOf (fun x => x.repairFailed))
  let failed := lost ++ broken ++ (if !marked || m.repairFailed then [.marker] else [])
  { store :=
      { profile := (scanOf .profile st.profile).pair
        creds := tab8 fun i => (scanOf (.cred i) st.creds[i]).pair
        ranges := tab16 fun r => (scanOf (.range r) st.ranges[r]).pair
        shadow := (scanOf .shadow st.shadow).pair
        counters := (scanOf .counters st.counters).pair
        binding := (scanOf .binding st.binding).pair
        triggers := (scanOf .triggers st.triggers).pair
        lockdown := (scanOf .lockdown st.lockdown).pair
        plan := (scanOf .plan st.plan).pair
        token := (scanOf .token st.token).pair
        marker := m.pair
        lastClosed := z, writing := none, queue := [], held := [], failed := failed, writtenSince := [],
        wipeAccepted := false }
    rolledBack := !rolled.isEmpty
    failsafe := !failed.isEmpty }

end Sys2Proof.Machine
end

