-- ==== Sys2Proof/Machine/Bodies.lean ====
section
/-! DEFINITION. Machine/Bodies.lean: the bodies of requests and replies, field by field (R162, R168, R170): fields in the catalogue's order,
the entry count ahead of a list's entries, a presence mark ahead of what may be absent, numbers most significant byte first (10.5). A
number of a request is wide enough for values above its range (R170), one of a reply for every value it carries; beyond that its width is
open up to 4 bytes, and so are the bytes of a named value (log 14). A `place` numbers the fields of one kind in their order. -/

namespace Sys2Proof.Machine

/-- The fewest bytes that hold every number up to `top`. -/
def leastWidth (top : Nat) : Nat := top.log2 / 8 + 1

/-- How many bytes a number takes at a place where it must hold every value up to `top` (R170); otherwise open (log 14). -/
def fieldWidth (kind place top : Nat) : Nat := max (leastWidth top) ((Config.fieldWidth kind place).val + 1)

/-! ### Reading a body -/

/-- What reads one field from the front of a body: its value and the bytes behind it, or none where they do not fit. -/
abbrev Reader (α : Type) := List Byte → Option (α × List Byte)

/-- The next `n` bytes. -/
def takeBytes (n : Nat) : Reader (List Byte) := fun l => if l.length < n then none else some (l.take n, l.drop n)

/-- A number whose range ends at `hi`, wide enough to hold values above it (R170, log 14). -/
def readNumber (kind place hi : Nat) : Reader Nat := fun l =>
  (takeBytes (fieldWidth kind place (hi + 1)) l).map (fun p => (bigEndian p.1, p.2))

/-- A named value, or a value outside its set (R169). -/
def readNamed {α : Type} (kind place : Nat) : Reader (Field α) := fun l =>
  (takeBytes (fieldWidth kind place 0) l).map (fun p =>
    (match Config.namedField kind place α p.1 with
     | some a => .value a
     | none => .unknown, p.2))

/-- A named value that says which form follows, or a flag; bytes that name none do not fit (log 14). -/
def readForm {α : Type} (kind place : Nat) : Reader α := fun l => do
  let (v, l) ← readNamed (α := α) kind place l
  match v with
  | .value a => some (a, l)
  | .unknown => none

/-- Whether a presence mark stands for a present value: any byte but 0 (R162, R168). -/
def readMark : Reader Bool
  | [] => none
  | b :: l => some (b ≠ 0, l)

/-- An optional field: its presence mark, then the field when it is present (R162). -/
def readOptional {α : Type} (r : Reader α) : Reader (Option α) := fun l => do
  let (present, l) ← readMark l
  if present then
    let (a, l) ← r l
    return (some a, l)
  else return (none, l)

/-- A number of entries, one behind the other. -/
def readTimes {α : Type} (r : Reader α) : Nat → Reader (List α)
  | 0 => fun l => some ([], l)
  | n + 1 => fun l => do
    let (a, l) ← r l
    let (rest, l) ← readTimes r n l
    return (a :: rest, l)

/-- A list of at most `hi` entries: its entry count, then its entries (R162); a count above `hi` is left to the form (R166). -/
def readList {α : Type} (kind place hi : Nat) (r : Reader α) : Reader (List α) := fun l => do
  let (n, l) ← readNumber kind place hi l
  readTimes r n l

/-- A secret or a token of at most `hi` bytes, whose length varies: a list of bytes (log 14). -/
def readBytes (kind place hi : Nat) : Reader (List Byte) := fun l => do
  let (n, l) ← readNumber kind place hi l
  takeBytes n l

/-- Every byte of the body is used by the fields (R166 step 1). -/
def readBody {α : Type} (r : Reader α) (body : List Byte) : Body α :=
  match r body with
  | some (a, []) => .fits a
  | _ => .misfit

/-- The body of a kind whose form has no field fits when it is empty (R166 step 1, R170). -/
def emptyBody (body : List Byte) : Body Unit := if body = [] then .fits () else .misfit

/-! ### The forms of the catalogue (R170) -/

/-- A range and a direction set, which is carried as its members. -/
def readRangeDirs (kind place : Nat) : Reader RangeDirs := fun l => do
  let (range, l) ← readNumber kind place 15 l
  let (dirs, l) ← readList kind (place + 1) 2 (readNamed kind (place + 2)) l
  return ({ range := range, dirs := dirs }, l)

/-- The four policy values. -/
def readPolicy (kind place : Nat) : Reader Policy := fun l => do
  let (e, l) ← readNumber kind place 20 l
  let (free, l) ← readNumber kind (place + 1) 7 l
  let (base, l) ← readNumber kind (place + 2) 255 l
  let (limit, l) ← readNumber kind (place + 3) 31 l
  return ({ e := e, free := free, base := base, limit := limit }, l)

/-- EVENTS-ENABLE and EVENTS-ACK: a set of event kinds, carried by their codes (R173). -/
def readEvents (kind : Nat) : Reader (List Nat) := readList kind 0 14 (readNumber kind 1 14)

/-- AUTHENTICATE: slot, secret, unlock set. -/
def readAuth (kind : Nat) : Reader AuthArgs := fun l => do
  let (slot, l) ← readNumber kind 0 7 l
  let (secret, l) ← readBytes kind 1 64 l
  let (unlock, l) ← readList kind 2 16 (readRangeDirs kind 3) l
  return ({ slot := slot, secret := secret, unlock := unlock }, l)

/-- RANGE-STAGE: range, nine optional fields, and the NEW_KEY option, which is a presence mark alone (log 14). -/
def readStage (kind : Nat) : Reader StageArgs := fun l => do
  let (range, l) ← readNumber kind 0 15 l
  let (start, l) ← readOptional (readNumber kind 1 (2 ^ 40 - 1)) l
  let (length, l) ← readOptional (readNumber kind 2 (2 ^ 40)) l
  let (readLock, l) ← readOptional (readForm kind 3) l
  let (writeLock, l) ← readOptional (readForm kind 4) l
  let (lockedRead, l) ← readOptional (readNamed kind 5) l
  let (unitSize, l) ← readOptional (readNumber kind 6 4096) l
  let (sleep, l) ← readOptional (readNamed kind 7) l
  let (response, l) ← readOptional (readNamed kind 8) l
  let (access, l) ← readOptional (readList kind 9 8 (readNumber kind 10 7)) l
  let (newKey, l) ← readMark l
  return ({ range := range, start := start, length := length, readLock := readLock, writeLock := writeLock, lockedRead := lockedRead
            unitSize := unitSize, sleep := sleep, response := response, access := access, newKey := newKey }, l)

/-- CRED-SET: slot, new secret, optional policy, and the DROP_UNAVAILABLE option, which is a presence mark alone (log 14). -/
def readCredSet (kind : Nat) : Reader CredSetArgs := fun l => do
  let (slot, l) ← readNumber kind 0 7 l
  let (secret, l) ← readBytes kind 1 64 l
  let (policy, l) ← readOptional (readPolicy kind 2) l
  let (drop, l) ← readMark l
  return ({ slot := slot, secret := secret, policy := policy, dropUnavailable := drop }, l)

/-- CRED-POLICY: slot, e, F, b, L, optional authority idle limit. -/
def readCredPolicy (kind : Nat) : Reader CredPolicyArgs := fun l => do
  let (slot, l) ← readNumber kind 0 7 l
  let (policy, l) ← readPolicy kind 1 l
  let (idleLimit, l) ← readOptional (readNumber kind 5 3600) l
  return ({ slot := slot, policy := policy, idleLimit := idleLimit }, l)

/-- The actions of CRED-STATE as its body names them (R69, R170). -/
inductive CredStateAction where
  | enable | disable | reopen
deriving DecidableEq, Repr

/-- CRED-STATE: slot, action. -/
def readCredState (kind : Nat) : Reader (Nat × Field CredStateAction) := fun l => do
  let (slot, l) ← readNumber kind 0 7 l
  let (action, l) ← readNamed kind 1 l
  return ((slot, action), l)

/-- SHADOW-CONFIG: optional shadow enabled, optional S. -/
def readShadow (kind : Nat) : Reader ShadowArgs := fun l => do
  let (enabled, l) ← readOptional (readForm kind 0) l
  let (size, l) ← readOptional (readNumber kind 1 Config.shadowMax) l
  return ({ enabled := enabled, size := size }, l)

/-- The actions of SHADOW-LOAD (R160, R170). -/
inductive ShadowLoadAction where
  | open | close
deriving DecidableEq, Repr

/-- A trigger entry: trigger, action, auto-resume. -/
def readTriggerEntry (kind : Nat) : Reader TriggerEntryArgs := fun l => do
  let (trigger, l) ← readNamed kind 0 l
  let (action, l) ← readNamed kind 1 l
  let (autoResume, l) ← readForm kind 2 l
  return ({ trigger := trigger, action := action, autoResume := autoResume }, l)

/-- TRIGGER-SET: optional trigger entry, optional Gmax, optional idle limit. -/
def readTrigger (kind : Nat) : Reader TriggerArgs := fun l => do
  let (entry, l) ← readOptional (readTriggerEntry kind) l
  let (gmax, l) ← readOptional (readNumber kind 3 255) l
  let (idleLimit, l) ← readOptional (readNumber kind 4 240) l
  return ({ entry := entry, gmax := gmax, idleLimit := idleLimit }, l)

/-- The forms of WIPE-TOKEN-SET (R126). -/
inductive TokenForm where
  | token | clear
deriving DecidableEq, Repr

/-- WIPE-TOKEN-SET: a token, or CLEAR. -/
def readToken (kind : Nat) : Reader (Option (List Byte)) := fun l => do
  let (form, l) ← readForm kind 0 l
  match form with
  | TokenForm.clear => return (none, l)
  | TokenForm.token =>
    let (token, l) ← readBytes kind 1 32 l
    return (some token, l)

/-- The forms of a WIPE's scope (R124). -/
inductive ScopeForm where
  | targets | all
deriving DecidableEq, Repr

/-- A target of a scope; a value outside the set is unknown (R124). -/
def targetField : Field TargetField → TargetField
  | .value t => t
  | .unknown => .unknown

/-- The scope of a WIPE: a list of targets, or ALL. -/
def readScope (kind : Nat) : Reader WipeScope := fun l => do
  let (form, l) ← readForm kind 0 l
  match form with
  | ScopeForm.all => return (.all, l)
  | ScopeForm.targets =>
    let (targets, l) ← readList kind 1 17 (readNamed kind 2) l
    return (.targets (targets.map targetField), l)

/-- The forms of a WIPE's credential (R124). -/
inductive CredentialForm where
  | absent | token | factorySecret
deriving DecidableEq, Repr

/-- The credential of a WIPE: none, a wipe token or the factory secret. -/
def readCredential (kind : Nat) : Reader WipeCredential := fun l => do
  let (form, l) ← readForm kind 4 l
  match form with
  | CredentialForm.absent => return (.absent, l)
  | CredentialForm.token =>
    let (token, l) ← readBytes kind 5 32 l
    return (.token token, l)
  | CredentialForm.factorySecret =>
    let (secret, l) ← readBytes kind 5 32 l
    return (.factorySecret secret, l)

/-- WIPE: scope, overwrite flag, credential. -/
def readWipe (kind : Nat) : Reader WipeArgs := fun l => do
  let (scope, l) ← readScope kind l
  let (overwrite, l) ← readForm kind 3 l
  let (credential, l) ← readCredential kind l
  return ({ scope := scope, overwrite := overwrite, credential := credential }, l)

/-! ### Writing the fields of a reply -/

/-- A number of at most `top`, most significant byte first (10.5, log 14). -/
def numberBytes (kind place top n : Nat) : List Byte := bytesOf (fieldWidth kind place top) n

/-- A named value: its bytes are open, their number is that of the place (log 14). -/
def namedBytes (kind place : Nat) {α : Type} (a : α) : List Byte := numberBytes kind place 0 (Config.fieldCode kind place a)

/-- The presence mark of a present value: a byte other than 0, otherwise open (R168, log 14). -/
def presentMark : Byte := BitVec.ofNat 8 (Config.presentMark.val + 1)

/-- A carried value that may be absent: its presence mark, 0 where it is absent, and the value where it is present (R162, R168). -/
def optionalBytes {α : Type} (f : α → List Byte) : Option α → List Byte
  | none => [0x00]
  | some a => presentMark :: f a

/-- A list of at most `top` entries: its entry count, then its entries (R162). -/
def listBytes {α : Type} (kind place top : Nat) (f : α → List Byte) (l : List α) : List Byte :=
  numberBytes kind place top l.length ++ l.flatMap f

/-- A range number. -/
def rangeBytes (kind place : Nat) (r : RangeId) : List Byte := numberBytes kind place 15 r.val

/-- A set of event kinds as a body carries it: the count, then each kind by its code (R173), in the order given. -/
def eventBytes (kind place : Nat) (l : List EventKind) : List Byte :=
  listBytes kind place 14 (fun k => numberBytes kind (place + 1) 14 k.code) l

/-- A direction set as its members (R170). -/
def DirSet.members (d : DirSet) : List Direction := (if d.read then [.read] else []) ++ (if d.write then [.write] else [])

/-- Byte of a result code (R168). -/
def Code.byte : Code → Byte
  | .ok => 0x00 | .failed => 0x01 | .busy => 0x02 | .badFrame => 0x03 | .unknownKind => 0x04 | .badBody => 0x05
  | .noAuthority => 0x06 | .lockedOut => 0x07 | .slotState => 0x08 | .keyUnavailable => 0x09 | .overlap => 0x0A
  | .outOfRange => 0x0B | .conditionActive => 0x0C | .lockdown => 0x0D | .starting => 0x0E | .asleep => 0x0F
  | .bindingPending => 0x10 | .storeFault => 0x11 | .drainTimeout => 0x12 | .notEnrolled => 0x13

/-- The four policy values. -/
def policyBytes (kind place : Nat) (p : Policy) : List Byte :=
  numberBytes kind place 20 p.e ++ numberBytes kind (place + 1) 7 p.free ++ numberBytes kind (place + 2) 255 p.base ++
    numberBytes kind (place + 3) 31 p.limit

/-- An access list: the count, then its slots. -/
def slotsBytes (kind place : Nat) (l : List SlotId) : List Byte := listBytes kind place 8 (fun i => numberBytes kind (place + 1) 7 i.val) l

/-- The committed entry in RANGE-READ's reply, every field in the order of R1 (R17). The start that a commit stored for an UNDEFINED range
can lie above the media, as it was staged (R15, R18). -/
def committedBytes (kind : Nat) (r : RangeReadReport) : List Byte :=
  rangeBytes kind 0 r.number ++ optionalBytes (numberBytes kind 1 Config.stagedMax) r.start ++
    optionalBytes (numberBytes kind 2 Config.stagedMax) r.length ++
    namedBytes kind 3 r.committed.readLock ++ namedBytes kind 4 r.committed.writeLock ++
    namedBytes kind 5 r.readLocked ++ namedBytes kind 6 r.writeLocked ++
    namedBytes kind 7 r.committed.lockedRead ++ numberBytes kind 8 4096 r.committed.unitSize ++
    numberBytes kind 9 (2 ^ 64 - 1) r.tweakOrigin.toNat ++ numberBytes kind 10 (2 ^ 32 - 1) r.generation.toNat ++
    namedBytes kind 11 r.committed.sleep ++ namedBytes kind 12 r.committed.response ++
    slotsBytes kind 13 r.committed.access ++ namedBytes kind 15 r.service

/-- The staged entry in RANGE-READ's reply: the configurable fields in the order of R14, without start and length where the committed entry
of the range has none (R2), and the NEW_KEY mark (R17). A start and a length are staged unchecked, also above the media (R15). -/
def stagedBytes (kind : Nat) (r : RangeReadReport) : List Byte :=
  let f := r.staged.fields
  optionalBytes (numberBytes kind 16 Config.stagedMax) (if r.number = 0 then none else some f.start) ++
    optionalBytes (numberBytes kind 17 Config.stagedMax) (if r.number = 0 then none else some f.length) ++
    namedBytes kind 18 f.readLock ++ namedBytes kind 19 f.writeLock ++ namedBytes kind 20 f.lockedRead ++
    numberBytes kind 21 4096 f.unitSize ++ namedBytes kind 22 f.sleep ++ namedBytes kind 23 f.response ++
    slotsBytes kind 24 f.access ++ namedBytes kind 26 r.staged.newKey

/-- RANGE-READ's reply: the committed entry, the staged entry, the table generation (R17). -/
def rangeReadBytes (kind : Nat) (r : RangeReadReport) : List Byte :=
  committedBytes kind r ++ stagedBytes kind r ++ numberBytes kind 27 (2 ^ 32 - 1) r.tableGeneration.toNat

/-- An entry of the trigger table: action, auto-resume (R106). -/
def triggerEntryBytes (kind place : Nat) (e : TriggerEntry) : List Byte :=
  namedBytes kind place e.action ++ namedBytes kind (place + 1) e.autoResume

/-- The whole trigger table (R106, R107). -/
def triggerTableBytes (kind : Nat) (t : TriggerTable) : List Byte :=
  triggerEntryBytes kind 0 t.guessLimit ++ triggerEntryBytes kind 2 t.unbound ++ triggerEntryBytes kind 4 t.bayOpen ++
    triggerEntryBytes kind 6 t.idle ++ numberBytes kind 8 255 t.gmax ++ numberBytes kind 9 240 t.idleLimit

/-- The wipe plan summary (R122, R178): the current item and the cursor each behind a presence mark. -/
def planBytes (kind place : Nat) (p : PlanSummary) : List Byte :=
  numberBytes kind place 17 p.items ++
    optionalBytes (fun i => namedBytes kind (place + 1) i.target ++ namedBytes kind (place + 2) i.step) p.current ++
    optionalBytes (numberBytes kind (place + 3) (2 ^ 40)) p.cursor ++
    namedBytes kind (place + 4) p.overwrite ++ namedBytes kind (place + 5) p.full

/-- One range as STATUS reports it (R178). -/
def rangeReportBytes (kind place : Nat) (r : RangeReport) : List Byte :=
  namedBytes kind place r.service ++ namedBytes kind (place + 1) r.readLocked ++
    namedBytes kind (place + 2) r.writeLocked

/-- The fields of an OK reply to STATUS, in the order R178 lists them; the sixteen ranges have no count, since their number is fixed. -/
def statusBytes (kind : Nat) (r : StatusReport) : List Byte :=
  namedBytes kind 0 r.part ++
    (namedBytes kind 1 r.cause ++ namedBytes kind 2 r.rollbackFound ++ namedBytes kind 3 r.attemptCharged) ++
    (namedBytes kind 4 r.lockdown.device ++ listBytes kind 5 4 (namedBytes kind 6) r.lockdown.causes) ++
    namedBytes kind 7 r.binding ++ (namedBytes kind 8 r.bay ++ namedBytes kind 9 r.latchedOpen) ++
    namedBytes kind 10 r.shadow ++
    optionalBytes (fun h => numberBytes kind 11 7 h.1.val ++ namedBytes kind 12 h.2) r.holder ++
    r.ranges.flatMap (rangeReportBytes kind 13) ++
    numberBytes kind 16 255 r.g ++ numberBytes kind 17 (2 ^ 32 - 1) r.tableGeneration.toNat ++ planBytes kind 18 r.plan ++
    eventBytes kind 24 r.pending ++ eventBytes kind 26 r.enabled ++
    listBytes kind 28 4 (namedBytes kind 29) r.detail ++ numberBytes kind 30 32 r.inFlight

/-- AUTHENTICATE's OK: the role, the entries applied with their directions, and each skipped range with the code it met (R60). -/
def authenticatedBytes (kind : Nat) (role : Role) (applied : List Unlock) (skipped : List (RangeId × Code)) : List Byte :=
  namedBytes kind 0 role ++
    listBytes kind 1 16 (fun u => rangeBytes kind 2 u.range ++ listBytes kind 3 2 (namedBytes kind 4) u.dirs.members) applied ++
    listBytes kind 5 16 (fun p => rangeBytes kind 6 p.1 ++ [p.2.byte]) skipped

/-- The range concerned (R168): SLOT_STATE carries one only where its rule names one, so it may be absent there; KEY_UNAVAILABLE and OVERLAP
always carry theirs. -/
def concernedBytes (kind : Nat) (code : Code) (r : Option RangeId) : List Byte :=
  match code, r with
  | .keyUnavailable, some r => rangeBytes kind 0 r
  | .overlap, some r => rangeBytes kind 0 r
  | _, r => optionalBytes (rangeBytes kind 0) r

/-- The fields of a reply of a kind after its result code (R162, R168), each as its owning rule gives them. -/
def payloadBytes (kind : Nat) (code : Code) : Payload → List Byte
  | .none => []
  | .failed remaining retryAfter => optionalBytes (numberBytes kind 0 31) remaining ++ optionalBytes (numberBytes kind 1 36000) retryAfter
  | .retryAfter n => numberBytes kind 0 36000 n
  | .range r => concernedBytes kind code r
  | .authenticated role applied skipped => authenticatedBytes kind role applied skipped
  | .locks readLocked writeLocked => namedBytes kind 0 readLocked ++ namedBytes kind 1 writeLocked
  | .generation g => numberBytes kind 0 (2 ^ 32 - 1) g.toNat
  | .rangeRead r => rangeReadBytes kind r
  | .credSet policy dropped => policyBytes kind 0 policy ++ listBytes kind 4 16 (rangeBytes kind 5) dropped
  | .credPolicy policy failures idleLimit =>
    numberBytes kind 0 7 policy.free ++ numberBytes kind 1 255 policy.base ++ numberBytes kind 2 31 policy.limit ++
      numberBytes kind 3 31 failures ++ numberBytes kind 4 20 policy.e ++ numberBytes kind 5 3600 idleLimit
  | .credState state failures => namedBytes kind 0 state ++ numberBytes kind 1 31 failures
  | .shadowConfig enabled size => namedBytes kind 0 enabled ++ numberBytes kind 1 Config.shadowMax size
  | .shadowState state => namedBytes kind 0 state
  | .enrolment digest recheck => bytesOf 16 digest.toNat ++ numberBytes kind 0 60 recheck
  | .triggers t => triggerTableBytes kind t
  | .items n => numberBytes kind 0 17 n
  | .events enabled pending => eventBytes kind 0 enabled ++ eventBytes kind 2 pending
  | .pendingEvents pending => eventBytes kind 0 pending
  | .status r => statusBytes kind r

end Sys2Proof.Machine
end

