-- ==== Sys2Proof/Machine/Wire.lean ====
section
/-! DEFINITION. Machine/Wire.lean: the byte layouts the manual gives (R162, R163, R168, R170 to R172): the channel frame and its CRC, the
records of requests and replies, the Transfer Port messages and the tether page. -/

namespace Sys2Proof.Machine

/-- One bit of the CRC-16, most significant bit first, polynomial 1021h (R171). -/
def crcBit (crc : BitVec 16) : BitVec 16 :=
  if crc.msb then (crc <<< 1) ^^^ 0x1021#16 else crc <<< 1

/-- One byte of the CRC-16 (R171). -/
def crcByte (crc : BitVec 16) (b : Byte) : BitVec 16 :=
  crcBit (crcBit (crcBit (crcBit (crcBit (crcBit (crcBit (crcBit (crc ^^^ (b.setWidth 16 <<< 8)))))))))

/-- CRC-16 with initial value FFFFh and no final inversion (R171). -/
def crc16 (bytes : List Byte) : BitVec 16 := bytes.foldl crcByte 0xFFFF#16

/-- What an arriving management record is, checked as a frame (R163). -/
inductive FrameCheck where
  | malformed
  | frame (kind tag : Byte) (body : List Byte)
deriving DecidableEq, Repr

/-- Kind, tag and body of a record of at least 7 bytes, and its CRC field. -/
def frameParts (record : List Byte) : List Byte × List Byte :=
  let inner := record.drop 3
  (inner.take (inner.length - 2), inner.drop (inner.length - 2))

/-- The frame checks of R163. -/
def checkFrame (record : List Byte) : FrameCheck :=
  if record.length < 7 ∨ 519 < record.length then .malformed
  else if record.head? ≠ some 0xA7#8 then .malformed
  else if bigEndian ((record.drop 1).take 2) ≠ record.length - 5 then .malformed
  else
    let parts := frameParts record
    if (crc16 parts.1).toNat ≠ bigEndian parts.2 then .malformed
    else
      match parts.1 with
      | kind :: tag :: body => .frame kind tag body
      | _ => .malformed

/-- The tag as received: byte 4 of a record of at least 5 bytes, otherwise 0 (R163). -/
def receivedTag (record : List Byte) : Byte := record.getD 4 0

/-- A channel frame from kind, tag and body (R171). -/
def frameBytes (kind tag : Byte) (body : List Byte) : List Byte :=
  let inner := kind :: tag :: body
  [0xA7#8] ++ bytesOf 2 inner.length ++ inner ++ bytesOf 2 (crc16 inner).toNat

/-- A reply record as its channel frame (R162): the body begins with the result code's byte. -/
def Reply.bytes (r : Reply) : List Byte := frameBytes r.kind r.tag (r.code.byte :: payloadBytes r.kind.toNat r.code r.payload)

/-- The record that the Management Channel hands to the front-end controller for a sent item (R162); none for what the other ports
carry. -/
def channelBytes : Sent → Option (List Byte)
  | .reply r => some r.bytes
  | .admitted .. | .refused .. | .cancelReply .. | .completion .. | .data .. | .mediaRead .. | .mediaWrite .. | .page _ => none

/-! ### The request that a record is (R163, R166, R170) -/

/-- The row of a CRED-STATE by its action (log 15). -/
def credStateOf (tag : Byte) : Body (Nat × Field CredStateAction) → Instr
  | .fits (slot, .value .enable) => .credStateEnable tag (.fits { slot := slot, actionKnown := true })
  | .fits (slot, .value .disable) => .credStateDisable tag (.fits { slot := slot, actionKnown := true })
  | .fits (slot, .value .reopen) => .credStateReopen tag (.fits { slot := slot, actionKnown := true })
  | .fits (slot, .unknown) => .credStateEnable tag (.fits { slot := slot, actionKnown := false })
  | .misfit => .credStateEnable tag .misfit

/-- The row of a SHADOW-LOAD by its action (log 15). -/
def shadowLoadOf (tag : Byte) : Body (Field ShadowLoadAction) → Instr
  | .fits (.value .open) => .shadowLoadOpen tag (.fits { actionKnown := true })
  | .fits (.value .close) => .shadowLoadClose tag (.fits { actionKnown := true })
  | .fits .unknown => .shadowLoadOpen tag (.fits { actionKnown := false })
  | .misfit => .shadowLoadOpen tag .misfit

/-- The row of a WIPE-TOKEN-SET: a token, or CLEAR (R126, R170). -/
def wipeTokenOf (tag : Byte) : Body (Option (List Byte)) → Instr
  | .fits (some token) => .wipeTokenSet tag (.fits token)
  | .fits none => .wipeTokenClear tag (.fits ())
  | .misfit => .wipeTokenSet tag .misfit

/-- The request that a frame of a kind, tag and body is (R170); none for a kind that is not 1 to 24. -/
def requestOf (kind : Nat) (tag : Byte) (body : List Byte) : Option Instr :=
  match kind with
  | 1 => some (.status tag (emptyBody body))
  | 2 => some (.eventsEnable tag (readBody (readEvents kind) body))
  | 3 => some (.eventsAck tag (readBody (readEvents kind) body))
  | 4 => some (.authenticate tag (readBody (readAuth kind) body))
  | 5 => some (.authorityEnd tag (emptyBody body))
  | 6 => some (.rangeUnlock tag (readBody (readRangeDirs kind 0) body))
  | 7 => some (.rangeLock tag (readBody (readRangeDirs kind 0) body))
  | 8 => some (.rangeStage tag (readBody (readStage kind) body))
  | 9 => some (.rangeDiscard tag (emptyBody body))
  | 10 => some (.rangeCommit tag (emptyBody body))
  | 11 => some (.rangeRead tag (readBody (readNumber kind 0 15) body))
  | 12 => some (.credSet tag (readBody (readCredSet kind) body))
  | 13 => some (.credPolicy tag (readBody (readCredPolicy kind) body))
  | 14 => some (credStateOf tag (readBody (readCredState kind) body))
  | 15 => some (.shadowConfig tag (readBody (readShadow kind) body))
  | 16 => some (shadowLoadOf tag (readBody (readNamed kind 0) body))
  | 17 => some (.shadowDone tag (emptyBody body))
  | 18 => some (.bindEnroll tag (readBody (readOptional (readNumber kind 0 60)) body))
  | 19 => some (.bindCheck tag (emptyBody body))
  | 20 => some (.triggerSet tag (readBody (readTrigger kind) body))
  | 21 => some (.lockdownClear tag (emptyBody body))
  | 22 => some (wipeTokenOf tag (readBody (readToken kind) body))
  | 23 => some (.wipe tag (readBody (readWipe kind) body))
  | 24 => some (.resetPart tag (emptyBody body))
  | _ => none

/-- The command that an arriving management record is (R163, R165, R170): BAD_FRAME, UNKNOWN_KIND, or the request its kind byte names. -/
def commandOfRecord (record : List Byte) : Instr :=
  match checkFrame record with
  | .malformed => .badFrame record
  | .frame kind tag body => (requestOf kind.toNat tag body).getD (.unknownKind record)

/-- Byte of a REFUSED reason (R171). -/
def RefuseReason.byte : RefuseReason → Byte
  | .badDescriptor => 0x01 | .starting => 0x02 | .asleep => 0x03 | .storeFault => 0x04 | .tagBusy => 0x05 | .outOfRange => 0x06
  | .erasing => 0x07 | .rangeUpdating => 0x08 | .lockdown => 0x09 | .locked => 0x0A | .bindingPending => 0x0B

/-- Byte of a refusing owner (R171). -/
def ownerByte : Option Owner → Byte
  | none => 0xFF
  | some (.range r) => BitVec.ofNat 8 r.val
  | some .shadow => 0x10

/-- Byte of a final state (R171); the live states are in no message. -/
def finalByte : TransferState → Byte
  | .done => 0x01 | .cancelled => 0x02 | .aborted => 0x03 | .mediaError => 0x04
  | .running | .cancelling | .aborting => 0x00

/-- Byte of an abort reason (R171). -/
def abortByte : Option AbortReason → Byte
  | none => 0x00 | some .lockdown => 0x01 | some .erase => 0x02 | some .reset => 0x03

/-- The Transfer Port message a sent item is, byte by byte (R171); none for what the other ports carry. The five failing-LBA bytes of a
completion without a failing LBA are a free value (DESIGN CHOICE, log 64): R171 gives only the present byte. -/
def transferPortBytes : Sent → Option (List Byte)
  | .admitted tag n g => some ([0x81#8, tag, BitVec.ofNat 8 n] ++ bytesOf 4 g.toNat)
  | .refused tag reason owner => some [0x82#8, tag, reason.byte, ownerByte owner]
  | .cancelReply tag found => some [0x83#8, tag, if found then 0x00 else 0x01]
  | .completion tag st reason lba =>
    some ([0x84#8, BitVec.ofNat 8 tag.val, finalByte st, abortByte reason, if lba.isSome then 0x01 else 0x00] ++
      bytesOf 5 (lba.getD Config.absentLba))
  | .data .. | .mediaRead .. | .mediaWrite .. | .page _ | .reply _ => none

/-- Byte of a page kind (R172). -/
def PageKind.byte : PageKind → Byte
  | .challenge => 0x01 | .response => 0x02 | .ack => 0x03 | .enrol => 0x04

/-- The page kind of a byte; none for an unlisted one (R172). -/
def pageKindOf (b : Byte) : Option PageKind :=
  if b = 0x01 then some .challenge else if b = 0x02 then some .response
  else if b = 0x03 then some .ack else if b = 0x04 then some .enrol else none

/-- Sum of bytes modulo 256 (R172). -/
def byteSum (l : List Byte) : Byte := l.foldl (· + ·) 0

/-- What an arriving tether page is (R172, R93): its check fails; it agrees but the page matches no listed form; or its fields. -/
inductive PageCheck where
  | badCheck
  | unlisted
  | page (p : TetherPage)
deriving DecidableEq, Repr

/-- Read a tether page (R172). -/
def readPage (bytes : List Byte) : PageCheck :=
  if byteSum bytes ≠ 0 then .badCheck
  else
    let flags := bytes.getD 1 0
    let index := bytes.getD 2 0
    match pageKindOf (bytes.getD 0 0) with
    | none => .unlisted
    | some kind =>
      if 2 < index.toNat ∨ flags >>> 3 ≠ 0 then .unlisted
      else .page
        { kind := kind, toggle := flags.getLsbD 0, more := flags.getLsbD 1, acknowledge := flags.getLsbD 2,
          index := index.toNat, payload := BitVec.ofNat 128 (bigEndian ((bytes.drop 3).take 16)) }

/-- The flags byte of a page (R172). -/
def TetherPage.flags (p : TetherPage) : Byte :=
  (if p.toggle then 0x01#8 else 0) ||| (if p.more then 0x02#8 else 0) ||| (if p.acknowledge then 0x04#8 else 0)

/-- A page as its 20 bytes (R172). -/
def TetherPage.bytes (p : TetherPage) : List Byte :=
  let body := [p.kind.byte, p.flags, BitVec.ofNat 8 p.index] ++ bytesOf 16 p.payload.toNat
  body ++ [-(byteSum body)]

end Sys2Proof.Machine
end

