-- ==== Sys2Proof/Machine/KeyCache.lean ====
section
/-! DEFINITION. Machine/KeyCache.lean: the requests of the Key Cache (R35) and the releases of references (R36). -/

namespace Sys2Proof.Machine

/-- Load with material and key generation (R35). A DRAINING entry holds the same key already. -/
def KeyEntry.load (e : KeyEntry) (key : Key) (generation : Option Count32) : KeyEntry :=
  match e.state with
  | .empty => { e with state := .live, material := some key, generation := generation }
  | .live => e
  | .draining => { e with state := .live }

/-- Make live (R35): an EMPTY entry stays EMPTY, the requester must load. -/
def KeyEntry.makeLive (e : KeyEntry) : KeyEntry :=
  match e.state with
  | .empty => e
  | .live => e
  | .draining => { e with state := .live }

/-- The material is erased. -/
def KeyEntry.erase (e : KeyEntry) : KeyEntry := { e with state := .empty, material := none, generation := none }

/-- Drain (R35). -/
def KeyEntry.drain (e : KeyEntry) : KeyEntry :=
  match e.state with
  | .live => if e.refs = 0 then e.erase else { e with state := .draining }
  | .empty => e
  | .draining => e

/-- A segment takes a reference (R29). -/
def KeyEntry.addRef (e : KeyEntry) : KeyEntry := { e with refs := e.refs + 1 }

/-- A reference is released; the last release of a DRAINING entry erases it (R36). -/
def KeyEntry.release (e : KeyEntry) : KeyEntry :=
  let e' := { e with refs := e.refs - 1 }
  if e'.refs = 0 ∧ e.state = .draining then e'.erase else e'

/-- FRONT_RESET clears every reference; a DRAINING entry becomes EMPTY (R46, R47). -/
def KeyEntry.clearRefs (e : KeyEntry) : KeyEntry :=
  let e' := { e with refs := 0 }
  if e.state = .draining then e'.erase else e'

/-- Change the Key Cache entry of an owner. -/
def State.modKey (s : State) (o : Owner) (f : KeyEntry → KeyEntry) : State := s.setKey o (f (s.key o))

/-- Load the entry of a range with a key at the range's current key generation (R35). -/
def State.loadRange (s : State) (r : RangeId) (key : Key) : State :=
  s.modKey (.range r) (fun e => e.load key (some (s.range r).generation))

/-- Load the entry of a range from its root wrap (R5, R11); a range without one is left as it is. -/
def State.loadFromRoot (s : State) (r : RangeId) : State :=
  match (s.range r).rootWrap with
  | some key => s.loadRange r key
  | none => s

/-- Empty an owner's entry (R22, R127, R134): the material is erased. Its count stands, which is 0 wherever the manual empties an entry. -/
def State.emptyKeyOf (s : State) (o : Owner) : State := s.modKey o KeyEntry.erase

/-- Load the shadow entry from the root wrap in the shadow record (R49). Its key generation, for which the manual names no owning range,
stays absent (DESIGN CHOICE, log 47). -/
def State.loadShadow (s : State) : State := s.modKey .shadow (fun e => e.load s.shadowRecord.rootWrap none)

/-- Ask for a drain of an owner's entry (R35). -/
def State.drainKey (s : State) (o : Owner) : State := s.modKey o KeyEntry.drain

/-- Release one reference on each owner of a list (R36). -/
def State.releaseRefs (s : State) (l : List Owner) : State := forEach l (fun o s => s.modKey o KeyEntry.release) s

/-- The entry is LIVE or DRAINING, so its key is in hand (R6 check 5, R18 check 7). -/
def KeyEntry.inHand (e : KeyEntry) : Bool := e.state ≠ .empty

end Sys2Proof.Machine
end

