-- ==== Sys2Proof/Machine/CipherPath.lean ====
section
/-! DEFINITION. Machine/CipherPath.lean: tweaks (R30, R31), lanes and their stops (R38), the end of segments and transfers (R41, R42, R45)
and aborts (R37). -/

namespace Sys2Proof.Machine

/-! ### Tweaks and blocks -/

/-- T = (o + (x − s) × k + j) mod 2^64, carried as the low 64 bits of the 128-bit tweak (R30). -/
def tweakOf (t : TweakBase) (x j : Nat) : BitVec 128 :=
  BitVec.ofNat 128 ((t.origin.toNat + (x - t.base) * t.k + j) % 2 ^ 64)

/-- The tweak parameters of a segment: those recorded for CIPHER; k = 1 and o = 0 for SHADOW, so that T = x (R30, R31). -/
def Segment.tweakBase (g : Segment) : TweakBase := g.tweak.getD { k := 1, base := 0, origin := 0 }

/-- The block cipher over the data units of one block, data unit 0 first (R30). -/
def overUnits (f : Key → BitVec 128 → List Byte → List Byte) (key : Key) (t : TweakBase) (blockSize x : Nat)
    (data : List Byte) : List Byte :=
  let u := blockSize / t.k
  (List.range t.k).flatMap (fun j => f key (tweakOf t x j) ((data.drop (j * u)).take u))

/-- The media LBA of a block: x for a range, C + x for the shadow (R31). -/
def State.mediaLba (s : State) (o : Owner) (x : Nat) : Nat :=
  match o with
  | .range _ => x
  | .shadow => s.profile.capacity + x

/-- The key a lane uses for an owner (R38). An entry without material is met by a lane only where a range with exactly one lock enabled is
open with its entry EMPTY (log 44); the key is then unstated (log 17). -/
def State.laneKey (s : State) (o : Owner) : Key := (s.key o).material.getD (Config.unstatedKey 0)

/-! ### Segments of an in-flight entry -/

/-- Change one segment of a transfer. -/
def Transfer.modSegment (x : Transfer) (i : Nat) (f : Segment → Segment) : Transfer :=
  { x with segments := x.segments.modify i f }

/-- The transfer has a segment in a lane (R33). -/
def Transfer.inLane (x : Transfer) : Bool := x.segments.any (fun g => g.step = .inLane)

/-- The references a transfer's segments hold. -/
def Transfer.refs (x : Transfer) : List Owner := x.segments.filterMap (·.keyRef)

/-- A WAITING segment becomes DISCARDED and gives up its reference (R33, R36). -/
def Segment.discard (g : Segment) : Segment :=
  if g.step = .waiting then { g with step := .discarded, keyRef := none } else g

/-- Discard every WAITING segment of a transfer, releasing their references (R36, R42, R43). -/
def State.discardWaiting (s : State) (t : Tag) : State :=
  match s.inflight[t] with
  | none => s
  | some x =>
    (s.setTransfer t (some { x with segments := x.segments.map Segment.discard })).releaseRefs
      ((x.segments.filter (fun g => g.step = .waiting)).filterMap (·.keyRef))

/-- A segment ends in the given step and gives up its reference (R33, R36). -/
def State.endSegment (s : State) (t : Tag) (i : Nat) (step : SegStep) : State :=
  match s.inflight[t] with
  | none => s
  | some x =>
    (s.setTransfer t (some (x.modSegment i (fun g => { g with step := step, keyRef := none })))).releaseRefs
      (match x.segments[i]? with
       | some g => g.keyRef.toList
       | none => [])

/-- A transfer reaches a final state: its completion is sent and its tag is free (R32). A reference it still held would be released with
it; in a run it holds none (R36). -/
def State.endTransfer (s : State) (t : Tag) (final : TransferState) : State :=
  match s.inflight[t] with
  | none => s
  | some x =>
    ((s.setTransfer t none).releaseRefs x.refs).say
      (.completion t final (if final = .aborted then x.abortReason else none)
        (if final = .mediaError ∨ final = .cancelled then x.failingLba else none))

/-! ### Lanes -/

/-- The lane that works a segment of a transfer. -/
def State.laneOf (s : State) (t : Tag) : Option LaneId :=
  allLanes.find? (fun l => match s.lanes[l].task with
    | some (.transfer t' _) => t' = t
    | _ => false)

/-- The lane that works the Wipe Engine's overwrite segment. -/
def State.overwriteLane (s : State) : Option LaneId :=
  allLanes.find? (fun l => match s.lanes[l].task with
    | some (.overwrite ..) => true
    | _ => false)

/-- The next block of a transfer segment for which a lane issues a media operation, if its window allows one more (R38, log 13). -/
def Lane.nextBlock (l : Lane) (window : Nat) (g : Segment) : Option Nat :=
  let n := g.first + g.progress + l.fetched.length + l.issued.length
  if l.stopping = false ∧ l.failing = none ∧ g.disposition ≠ .zero ∧ n < g.first + g.count ∧
      l.fetched.length + l.issued.length < window then some n else none

/-- Issue the media operation of one block of a transfer segment: a media read, or a media write of the host's block enciphered under the
owner's key (R38). -/
def State.issueBlock (s : State) (l : LaneId) (x : Transfer) (g : Segment) (n : Nat) : State :=
  let marked := s.setLane l { s.lanes[l] with issued := s.lanes[l].issued ++ [n] }
  match x.direction with
  | .read => marked.say (.mediaRead l (s.mediaLba g.owner n))
  | .write =>
    let d := marked.draw
    d.2.say (.mediaWrite l (s.mediaLba g.owner n)
      (overUnits Config.encipher (s.laneKey g.owner) g.tweakBase s.profile.blockSize n (Config.hostBlock d.1)))

/-- Issue one more media operation of the transfer segment in a lane, if there is one to issue (R38). -/
def State.issueOne (s : State) (l : LaneId) : State :=
  match s.lanes[l].task with
  | some (.transfer t i) =>
    match s.inflight[t] with
    | some x =>
      match x.segments[i]? with
      | some g =>
        match s.lanes[l].nextBlock s.laneWindow g with
        | some n => s.issueBlock l x g n
        | none => s
      | none => s
    | none => s
  | _ => s

/-- Issue media operations of the transfer segment in a lane up to the lane's window (R38, log 13). -/
def State.fillLane (s : State) (l : LaneId) : State := forEach (List.range s.laneWindow) (fun _ s => s.issueOne l) s

/-- The lane reports that its stop is complete: it is idle, its segment is STOPPED, and an aborting transfer reaches ABORTED
(R38, R45). -/
def State.reportStop (s : State) (l : LaneId) : State :=
  let task := s.lanes[l].task
  let idle := s.setLane l idleLane
  match task with
  | some (.transfer t i) => (idle.endSegment t i .stopped).endTransfer t .aborted
  | _ => idle

/-- The lane reports its stop when no issued media operation is unanswered (R38). -/
def State.reportIfStopped (s : State) (l : LaneId) : State :=
  if s.lanes[l].stopping ∧ s.lanes[l].issued = [] then s.reportStop l else s

/-- A stop is asked of a lane: it issues and delivers nothing more, and discards what it has read (R38). -/
def State.stopLane (s : State) (l : LaneId) : State :=
  (s.setLane l { s.lanes[l] with stopping := true, fetched := [] }).reportIfStopped l

/-! ### Aborts (R37) -/

/-- The transfer is in a live outcome state (R32). -/
def Transfer.live (x : Transfer) : Bool :=
  x.state = .running || x.state = .cancelling || x.state = .aborting

/-- An abort reaches a transfer: it goes to ABORTING, its WAITING segments are discarded and all its references released; its lane is told
to stop, or it reaches ABORTED at once (R37 steps 1 to 4 and 6). -/
def State.abortTransfer (s : State) (t : Tag) (reason : AbortReason) : State :=
  match s.inflight[t] with
  | none => s
  | some x =>
    let segments := x.segments.map (fun g => { g.discard with keyRef := none })
    let marked := (s.setTransfer t (some { x with
      segments := segments, state := .aborting, abortReason := some reason })).releaseRefs x.refs
    match s.laneOf t with
    | some l => marked.stopLane l
    | none => marked.endTransfer t .aborted

/-- The reason an aborted transfer carries: its first (R37 step 1). -/
def Transfer.firstReason (x : Transfer) (reason : AbortReason) : AbortReason :=
  if x.state = .aborting then x.abortReason.getD reason else reason

/-- An abort of one owner: every live transfer with a segment of that owner is aborted, and the owner's entry becomes EMPTY (R37). The
manual gives several transfers of one abort no order; they end in tag order (DESIGN CHOICE, log 48). -/
def State.abortOwner (s : State) (o : Owner) (reason : AbortReason) : State :=
  let swept := forEach allTags (fun t s =>
    match s.inflight[t] with
    | some x =>
      if x.live ∧ x.segments.any (fun g => g.owner = o) then s.abortTransfer t (x.firstReason reason) else s
    | none => s) s
  swept.setKey o emptyKey

/-- RESET-PART ends every in-flight transfer with reason RESET (R48, R156 step 3; log 22). -/
def State.abortAll (s : State) : State :=
  forEach allTags (fun t s => if s.inflight[t].isSome then s.abortTransfer t .reset else s) s

/-! ### Segment completion, cancel and media errors -/

/-- The last block of a transfer segment is moved (R41). -/
def State.completeSegment (s : State) (l : LaneId) (t : Tag) (i : Nat) : State :=
  let done := (s.setLane l idleLane).endSegment t i .finished
  match s.inflight[t] with
  | none => done
  | some x =>
    match x.state with
    | .running => if i + 1 = x.segments.length then done.endTransfer t .done else done
    | .cancelling => done.endTransfer t .cancelled
    | _ => done

/-- A media error ends a transfer segment at the failing block (R42). The transfer of a read ends at once, and a lane that still has reads
of it unanswered is busy until they come (DESIGN CHOICE, log 66). -/
def State.failSegment (s : State) (l : LaneId) (t : Tag) (i : Nat) : State :=
  let lane := if s.lanes[l].issued = [] then idleLane else
    { idleLane with task := some (.cleared none), issued := s.lanes[l].issued, stopping := true }
  let stopped := ((s.setLane l lane).endSegment t i .stopped).discardWaiting t
  match s.inflight[t] with
  | none => stopped
  | some x =>
    match x.state with
    | .cancelling => stopped.endTransfer t .cancelled
    | _ => stopped.endTransfer t .mediaError

/-- A lane that met a media error finishes with the segment once the blocks before the failing one have been moved and, for a write, its
other issued writes have been answered (R42). Until then the transfer keeps its outcome state, so a CANCEL or an abort taken meanwhile
ends it CANCELLED, with the failing LBA, or ABORTED (DESIGN CHOICE, log 49). -/
def State.failIfReady (s : State) (l : LaneId) (t : Tag) (i : Nat) : State :=
  match s.inflight[t] with
  | none => s
  | some x =>
    match x.segments[i]?, s.lanes[l].failing with
    | some g, some n =>
      if g.first + g.progress = n ∧ (x.direction = .write → s.lanes[l].issued = []) then s.failSegment l t i else s
    | _, _ => s

/-- One block of a transfer segment has been moved: progress rises by one, and the segment completes at its last block (R33, R38,
R41). -/
def State.moveBlock (s : State) (l : LaneId) (t : Tag) (i : Nat) : State :=
  match s.inflight[t] with
  | none => s
  | some x =>
    match x.segments[i]? with
    | none => s
    | some g =>
      let moved := s.setTransfer t (some (x.modSegment i (fun g => { g with progress := g.progress + 1 })))
      if g.progress + 1 = g.count ∧ s.lanes[l].failing = none then moved.completeSegment l t i
      else (moved.fillLane l).failIfReady l t i

/-- The media controller answers the oldest unanswered operation of a lane that works a transfer segment (R38). -/
def State.answerTransfer (s : State) (l : LaneId) (t : Tag) (i : Nat) (data : List Byte) : State :=
  match s.lanes[l].issued with
  | [] => s
  | n :: rest =>
    let taken := s.setLane l { s.lanes[l] with issued := rest }
    if s.lanes[l].stopping then taken.reportIfStopped l
    else
      match s.inflight[t] with
      | none => taken
      | some x =>
        match x.direction with
        | .read =>
          if s.lanes[l].failing.isSome then taken
          else taken.setLane l { s.lanes[l] with issued := rest, fetched := s.lanes[l].fetched ++ [(n, data)] }
        | .write => if s.lanes[l].failing.isSome then taken.failIfReady l t i else taken.moveBlock l t i

/-- The next read block of a transfer segment is delivered on the Transfer Port: deciphered for CIPHER and SHADOW, zeros for ZERO
(R38). -/
def State.deliverTransfer (s : State) (l : LaneId) (t : Tag) (i : Nat) : State :=
  match s.inflight[t] with
  | none => s
  | some x =>
    match x.segments[i]? with
    | none => s
    | some g =>
      if s.lanes[l].stopping ∨ x.direction = .write then s
      else if g.disposition = .zero then
        (s.say (.data t (g.first + g.progress) (List.replicate s.profile.blockSize 0))).moveBlock l t i
      else
        match s.lanes[l].fetched with
        | [] => s
        | (n, data) :: rest =>
          ((s.setLane l { s.lanes[l] with fetched := rest }).say
            (.data t n (overUnits Config.decipher (s.laneKey g.owner) g.tweakBase s.profile.blockSize n data))).moveBlock l t i

/-- A media error for the oldest unanswered operation of a lane that works a transfer segment (R42). It names the block by its user or
shadow LBA x, as the segment and the completion do; an error that names a shadow block by its media LBA C + x is not one of the lane's
(DESIGN CHOICE, log 50). -/
def State.errorTransfer (s : State) (l : LaneId) (t : Tag) (i block : Nat) : State :=
  match s.lanes[l].issued with
  | [] => s
  | n :: rest =>
    if n ≠ block then s
    else
      let taken := s.setLane l { s.lanes[l] with issued := rest }
      if s.lanes[l].stopping then taken.reportIfStopped l
      else if s.lanes[l].failing.isSome then taken.failIfReady l t i
      else
        match s.inflight[t] with
        | none => taken
        | some x =>
          ((taken.setLane l { s.lanes[l] with issued := rest, failing := some n }).setTransfer t
            (some { x with failingLba := some n })).failIfReady l t i

/-- A lane whose segment belongs to no transfer any more takes an answer or an error and reports when none is left (R38, R46). -/
def State.answerCleared (s : State) (l : LaneId) : State :=
  match s.lanes[l].issued with
  | [] => s
  | _ :: rest => (s.setLane l { s.lanes[l] with issued := rest }).reportIfStopped l

end Sys2Proof.Machine
end

