-- ==== Sys2Proof/Machine/Channel.lean ====
section
/-! DEFINITION. Machine/Channel.lean: replies, the request executor and the authority record (R162 to R168, R70 to R72). -/

namespace Sys2Proof.Machine

/-! ### Authority (R70 to R72) -/

/-- Authority ends without an event: the holder and its unwrap value are cleared and the idle timer stops (R72). -/
def State.endAuthority (s : State) : State := { s with authority := none, authTimer := none }

/-- Authority ends, raising AUTHORITY_ENDED if it was held (R72). -/
def State.revokeAuthority (s : State) : State :=
  if s.authority.isSome then s.endAuthority.raise .authorityEnded else s.endAuthority

/-- Role of the authority holder (R71). -/
def State.holderRole (s : State) : Option Role := s.authority.map (fun a => roleOf a.slot)

/-- ADMIN authority is held (R70). -/
def State.admin (s : State) : Bool := s.holderRole = some .admin

/-- The authority held permits RANGE-LOCK and RANGE-UNLOCK on a range (R70, R6 check 2). -/
def State.mayLock (s : State) (r : RangeId) : Bool :=
  match s.authority with
  | none => false
  | some a => roleOf a.slot = .admin ∨ a.slot ∈ (s.range r).fields.access

/-- The authority held permits CRED-SET on a slot (R70). -/
def State.maySetCred (s : State) (i : SlotId) : Bool :=
  match s.authority with
  | none => false
  | some a =>
    match roleOf a.slot with
    | .admin => true
    | .recovery => i = a.slot ∨ roleOf i = .user
    | .user => i = a.slot

/-- The authority held permits CRED-STATE on the slot number a request names: ADMIN any slot, RECOVERY slots 2 to 6 (R69, R70). A number
above 7 lies outside RECOVERY's permission like every other number but those. -/
def State.mayCredState (s : State) (n : Nat) : Bool :=
  match s.holderRole with
  | some .admin => true
  | some .recovery => decide (2 ≤ n ∧ n ≤ 6)
  | _ => false

/-! ### Replies -/

/-- A reply record: the request's kind with 80h added (R162). -/
def replyTo (kind : Nat) (tag : Byte) (code : Code) (payload : Payload) : Sent :=
  .reply { kind := BitVec.ofNat 8 (kind + 0x80), tag := tag, code := code, payload := payload }

/-- The reply of the request in execution: it is sent, the executor becomes FREE, and the authority idle timer restarts (R164, R71). An
abandoned request frees the executor without a reply (R167). -/
def State.reply (s : State) (code : Code) (payload : Payload := .none) : State :=
  match s.executor.status with
  | .executing => { s.say (replyTo s.executor.kind s.executor.tag code payload) with executor := freeExecutor, authTimer := none }
  | .abandoned => { s with executor := freeExecutor }
  | .free => s

/-- The Trigger Unit's idle timer restarts from zero, if it runs or stands at its limit (R110). -/
def State.restartIdle (s : State) : State :=
  match s.trigger.idle with
  | .stopped => s
  | .running _ => { s with trigger := { s.trigger with idle := .running s.clock } }
  | .expired => { s with trigger := { s.trigger with idle := .running s.clock } }

/-- The executor takes a request (R165 step 4): the authority idle timer stops and the trigger idle timer restarts (R166). -/
def State.take (s : State) (kind : Nat) (tag : Byte) : State :=
  { s.restartIdle with
    executor := { status := .executing, kind := kind, tag := tag, job := .immediate, stage := .working }
    authTimer := none }

/-- The kind number of WIPE (R170). -/
def wipeKind : Nat := 23

/-- The part-state refusal of a request other than STATUS (R165 step 2); none when the request goes on. -/
def partRefusal (p : PartState) (kind : Nat) : Option Code :=
  match p with
  | .starting => some .starting
  | .sleepEntering => some .asleep
  | .asleep => some .asleep
  | .failsafe => if kind = wipeKind then none else some .storeFault
  | .ready => none

/-- How a management request other than STATUS is handled: part state, executor, taken (R165), then form (R166 step 1) and the owner's
checks `run`. R57 and R124 name the body before the part state; the model follows R165 for every request, so a body that does not fit is
answered BAD_BODY only where the part state and the executor let the request in (log 16). -/
def State.request {α : Type} (s : State) (kind : Nat) (tag : Byte) (body : Body α) (run : α → State → State) : State :=
  match partRefusal s.power.part kind with
  | some code => s.say (replyTo kind tag code .none)
  | none =>
    if s.executor.status ≠ .free then s.say (replyTo kind tag .busy .none)
    else
      match body with
      | .misfit => (s.take kind tag).reply .badBody
      | .fits a => run a (s.take kind tag)

/-- A request that needs ADMIN authority before its other checks (R166 step 2, R70). -/
def adminOnly {α : Type} (run : α → State → State) (a : α) (s : State) : State :=
  if s.admin then run a s else s.reply .noAuthority

/-- The request in execution goes on with a job (R166): before it can submit, or ready to submit. -/
def State.startJob (s : State) (job : Job) (stage : JobStage) : State :=
  { s with executor := { s.executor with job := job, stage := stage } }

end Sys2Proof.Machine
end

