-- ==== Sys2Proof/Machine/RangeTable.lean ====
section
/-! DEFINITION. Machine/RangeTable.lean: locks and service states of the ranges and the requests other blocks make of the Range Table
(R5, R10 to R12, R20). -/

namespace Sys2Proof.Machine

/-- A range leaves the wake gate (R103). -/
def State.ungate (s : State) (r : RangeId) : State :=
  { s with binding := { s.binding with gated := s.binding.gated.filter (· ≠ r) } }

/-- An ACTIVE range with no open direction has its Key Cache entry drained (R5). -/
def State.drainIfClosed (s : State) (r : RangeId) : State :=
  if s.table[r].service = .active ∧ s.anyOpen r = false then s.drainKey (.range r) else s

/-- Every enabled direction of a range is closed; a direction whose lock is not enabled stays open (R12). -/
def State.closeRange (s : State) (r : RangeId) : State :=
  s.modRange r (fun e => { e with readLocked := (s.range r).fields.readLock, writeLocked := (s.range r).fields.writeLock })

/-- Relock: every enabled direction of every range is closed, and each ACTIVE range left with no open direction drains (R12, R114). -/
def State.relock (s : State) : State := forEach allRanges (fun r s => (s.closeRange r).drainIfClosed r) s

/-- Named directions whose lock is enabled get the given locked flag (R6, R7). -/
def State.setLocks (s : State) (r : RangeId) (d : DirSet) (locked : Bool) : State :=
  s.modRange r (fun e =>
    { e with readLocked := if d.read ∧ (s.range r).fields.readLock then locked else e.readLocked
             writeLocked := if d.write ∧ (s.range r).fields.writeLock then locked else e.writeLocked })

/-- The key a slot's wrap of a range opens to with an unwrap value (R53, R54). -/
def State.openWrap (s : State) (slot : SlotId) (u : Unwrap) (r : RangeId) : Option Key :=
  match (s.cred slot).wraps.find? (fun w => w.range = r ∧ w.generation = (s.range r).generation) with
  | some w => if w.verifier.madeFrom = u then some w.key else none
  | none => none

/-- The key material with which a slot can open a range whose entry is EMPTY (R6 check 5, R54). -/
def State.wrapKey (s : State) (slot : SlotId) (u : Unwrap) (r : RangeId) : Option Key :=
  if slot ∈ (s.range r).fields.access then s.openWrap slot u r else none

/-- Checks 3 to 5 of R6, against the slot and unwrap value that open the range. -/
def State.unlockRefusal (s : State) (slot : SlotId) (u : Unwrap) (r : RangeId) : Option Code :=
  if s.inLockdown then some .lockdown
  else if s.table[r].service ≠ .active then some .slotState
  else if (s.key (.range r)).inHand then none
  else if (s.wrapKey slot u r).isSome then none
  else some .keyUnavailable

/-- The effect of an unlock (R6, R54, R103): the named enabled directions open, the entry becomes LIVE, the range leaves the gate. -/
def State.applyUnlock (s : State) (slot : SlotId) (u : Unwrap) (x : Unlock) : State :=
  let opened := (s.setLocks x.range x.dirs false).ungate x.range
  if (s.key (.range x.range)).inHand then opened.modKey (.range x.range) KeyEntry.makeLive
  else
    match s.wrapKey slot u x.range with
    | some key => opened.loadRange x.range key
    | none => opened

/-! ### A RANGE-COMMIT that other events reach (R20) -/

/-- The RANGE-COMMIT in execution. -/
def State.commit (s : State) : Option Commit :=
  match s.executor.job with
  | .commit c => some c
  | _ => none

/-- A RANGE-COMMIT is in its drain wait (R19). -/
def State.commitDraining (s : State) : Bool := s.commit.isSome ∧ s.executor.stage = .working

/-- The affected ranges return to their previous states (R20, R21); one that is ACTIVE again with no open direction drains (R12). -/
def State.revertCommit (s : State) (c : Commit) : State :=
  forEach c.affected (fun p s =>
    if s.table[p.1].service = .updating then (s.modRange p.1 (fun e => { e with service := p.2 })).drainIfClosed p.1 else s) s

/-- A RANGE-COMMIT in its drain wait ends with the given reply (R20). -/
def State.endCommit (s : State) (code : Code) (payload : Payload) : State :=
  match s.commit with
  | some c => (s.revertCommit c).reply code payload
  | none => s

/-- What is held against an affected range: ERASING outlasts LOCKDOWN (R11, R20). -/
def Commit.hold (c : Commit) (r : RangeId) (h : Held) : Commit :=
  if (r, Held.erasing) ∈ c.held then c
  else { c with held := c.held.filter (fun p => p.1 ≠ r) ++ [(r, h)] }

/-- Hold a request against an affected range until the switch (R20). -/
def State.holdAgainst (s : State) (r : RangeId) (h : Held) : State :=
  match s.commit with
  | some c => { s with executor := { s.executor with job := .commit (c.hold r h) } }
  | none => s

/-! ### Lockdown and erasing (R10, R11) -/

/-- An ACTIVE range enters LOCKDOWN: its response is read now, and its entry drained or aborted by it (R10, R11). -/
def State.lockRangeDown (s : State) (r : RangeId) : State :=
  let entered := s.modRange r (fun e => { e with service := .lockdown, inForce := (s.range r).fields.response })
  match (s.range r).fields.response with
  | .hide => entered.drainKey (.range r)
  | .close => entered.abortOwner (.range r) .lockdown

/-- Enter lockdown reaches one range (R11). -/
def State.lockdownRange (s : State) (r : RangeId) : State :=
  match s.table[r].service with
  | .active => s.lockRangeDown r
  | .updating => s.holdAgainst r .lockdown
  | .lockdown => s
  | .erasing => s
  | .undefined => s

/-- Enter lockdown (R11, R115): a RANGE-COMMIT in its drain wait ends with reply LOCKDOWN first (R20), and the ranges are taken in number
order, so the ABORTED completions of different CLOSE ranges come in that order (DESIGN CHOICE, log 65). -/
def State.enterLockdown (s : State) : State :=
  forEach allRanges (fun r s => s.lockdownRange r) (if s.commitDraining then s.endCommit .lockdown .none else s)

/-- Leave lockdown reaches one range (R11, R120): ACTIVE with its enabled directions closed. Its key is loaded from the root wrap if no
lock is enabled; with a direction open because one lock is not enabled, a DRAINING entry returns to LIVE (R5), and an EMPTY one stays
EMPTY, because nothing the part holds opens it (log 44). -/
def State.unlockdownRange (s : State) (r : RangeId) : State :=
  if s.table[r].service = .lockdown then
    let active := (s.modRange r (fun e => { e with service := .active })).closeRange r
    if s.anyLock r = false then active.loadFromRoot r
    else if active.anyOpen r then active.modKey (.range r) KeyEntry.makeLive
    else active
  else s

/-- Leave lockdown (R11). -/
def State.leaveLockdown (s : State) : State := forEach allRanges (fun r s => s.unlockdownRange r) s

/-- The range takes ERASING: its entry is aborted, and it leaves the gate (R11, R125). -/
def State.eraseRange (s : State) (r : RangeId) : State :=
  ((s.modRange r (fun e => { e with service := .erasing })).ungate r).abortOwner (.range r) .erase

/-- Mark erasing reaches one range (R11); a RANGE-COMMIT in its drain wait that affects the range ends with SLOT_STATE naming it, and one
past it holds the mark (R20). The range named is the first in the marks' order that is UPDATING, also one that was UNDEFINED before the
commit and so takes no mark (DESIGN CHOICE, log 45). The reply SLOT_STATE is sent when the marks come to that range, after the ABORTED
completions of the ranges marked before it and before those of its own transfers (DESIGN CHOICE, log 72). A mark on a range that the commit
does not affect leaves the drain wait as it is (DESIGN CHOICE, log 76). -/
def State.markErasing (s : State) (r : RangeId) : State :=
  match s.table[r].service with
  | .active => s.eraseRange r
  | .lockdown => s.eraseRange r
  | .erasing => s
  | .undefined => s
  | .updating =>
    if s.commitDraining then
      let ended := s.endCommit .slotState (.range (some r))
      if ended.table[r].service = .active then ended.eraseRange r else ended
    else (s.holdAgainst r .erasing).ungate r

/-- The effect notes, while the part is SLEEP_ENTERING or ASLEEP, whether it takes an open enabled direction from an ACTIVE range
(R142, R144, R146: the sleep relock flag). -/
def noteRelocked (f : State → State) (s : State) : State :=
  let t := f s
  if (s.power.part = .sleepEntering ∨ s.power.part = .asleep) ∧
      allRanges.any (fun r => s.openEnabled r && !t.openEnabled r) then
    { t with power := { t.power with relocked := true } }
  else t

/-- Sleep DROP on one range (R12, R142). A direction whose lock is not enabled stays open with the entry drained (log 44). -/
def State.dropRange (s : State) (r : RangeId) : State :=
  if (s.range r).fields.sleep = .drop ∧ s.anyLock r then
    let closed := s.closeRange r
    if s.table[r].service = .active then closed.drainKey (.range r) else closed
  else s

/-- Sleep DROP (R12, R142). -/
def State.sleepDropAll (s : State) : State := forEach allRanges (fun r s => s.dropRange r) s

end Sys2Proof.Machine
end

