-- ==== Sys2Proof/Machine/WipeEngine.lean ====
section
/-! DEFINITION. Machine/WipeEngine.lean: submissions to the store, and the Wipe Engine: acceptance, key step, overwrite and the final group
(chapter 7). -/

namespace Sys2Proof.Machine

/-! ### Submissions (R78, R85, R86, R156) -/

/-- The submitter's group reaches the commit queue: not in FAILSAFE, where only the wipe accepted there submits, and not after
RESET-PART, when the Wipe Engine and the Trigger Unit have stopped submitting (R85, R86, R88, R156). -/
def State.maySubmit (s : State) (who : Submitter) : Bool :=
  match who with
  | .executor => s.power.part ≠ .failsafe
  | .triggerUnit => s.power.part ≠ .failsafe ∧ !s.power.restarting
  | .wipeEngine => s.wipeMaySubmit

/-- Submit a commit group (R78). -/
def State.submit (s : State) (g : Group) : State :=
  if s.maySubmit g.submitter then { s with store := s.store.submit g } else s

/-- A group of the request executor that writes one of the cells is queued or writing (R129). -/
def State.executorWrites (s : State) (cells : List Cell) : Bool :=
  s.store.waitingGroups.any (fun g => g.submitter = .executor ∧ g.cells.any (fun c => c ∈ cells))

/-- A key step, trim or final group that writes one of the cells is queued, held or writing (R129, log 20). -/
def State.wipeRewrites (s : State) (cells : List Cell) : Bool :=
  s.store.waitingGroups.any (fun g => g.rewrites ∧ g.cells.any (fun c => c ∈ cells))

/-! ### Plans -/

/-- Change the Wipe Engine's volatile state. -/
def State.setWipe (s : State) (w : Wipe) : State := { s with wipe := w }

/-- The intended plan changes, and a group of the plan record and the given records carries it (R122). -/
def State.submitPlan (s : State) (plan : WipePlan) (others : List Record) (effects : List Effect) (rewrites : Bool) : State :=
  (s.setWipe { s.wipe with intended := plan }).submit
    { submitter := .wipeEngine, records := others ++ [.plan plan], effects := effects, rewrites := rewrites, final := false }

/-- A plan whose item for a target becomes DONE: the cursor is absent, and a plan that ends without the full-wipe flag is emptied (R132,
R133). -/
def WipePlan.finish (p : WipePlan) (t : Owner) : WipePlan :=
  let q := { p.setStep t .done with cursor := none }
  if q.allDone ∧ q.full = false then emptyPlan else q

/-- What the close of a group that makes the item DONE calls for (R132, R133). -/
def WipePlan.finishEffects (p : WipePlan) (t : Owner) : List Effect :=
  if (p.setStep t .done).allDone ∧ p.full = false then [.itemDone t, .planEnded t] else [.itemDone t]

/-- An item whose key step group is on its way and wrote it DONE is overwritten after all: it stands at KEYS_DESTROYED in the intended plan,
at its place or, if the plan has been emptied behind it, ahead of the rest. A target taken into the plan anew is left PENDING (R125,
log 26). -/
def WipePlan.reopen (p : WipePlan) (t : Owner) : WipePlan :=
  match p.item t with
  | some i => if i.step = .done then p.setStep t .keysDestroyed else p
  | none => { p with items := { target := t, step := .keysDestroyed } :: p.items }

/-- The target of a key step group among the groups' effects. -/
def Group.keyStepOf (g : Group) : Option Owner :=
  g.effects.findSome? (fun e => match e with
    | .keyStep t _ => some t
    | _ => none)

/-- The target whose key step group is queued, held or writing: submitted and not closed (R125). -/
def State.keyStepUnderWay (s : State) : Option Owner := s.store.waitingGroups.findSome? Group.keyStepOf

/-- The intended plan as a set overwrite flag finds it: the flag acts on every item whose key step has not yet closed (R125). -/
def State.planToAccept (s : State) (overwrite : Bool) : WipePlan :=
  match overwrite, s.keyStepUnderWay with
  | true, some t => s.wipe.intended.reopen t
  | _, _ => s.wipe.intended

/-- The plan after an acceptance (R125). -/
def WipePlan.accept (p : WipePlan) (targets : List Owner) (overwrite full : Bool) : WipePlan :=
  { p with
    items := p.items ++ (targets.filter (fun t => (p.item t).isNone)).map (fun t => { target := t, step := .pending })
    overwrite := p.overwrite || overwrite
    full := p.full || full }

/-- A new item's target is marked: its range erasing, or the shadow aborted (R125, R49). -/
def State.markTarget (s : State) : Owner → State
  | .range r => s.markErasing r
  | .shadow => s.abortOwner .shadow .erase

/-- The marks of an acceptance (R125): the new items' targets; with the full-wipe flag every defined range that is not ERASING, and the
shadow when its item is DONE. They fall at one moment, and R125 orders neither them nor the completions they cause: the model takes the new
items in the scope's order, then the other ranges by number, then the shadow (DESIGN CHOICE, log 72). -/
def State.markAccepted (s : State) (targets : List Owner) (full : Bool) : State :=
  let old := s.wipe.intended
  let marked := forEach (targets.filter (fun t => (old.item t).isNone)) (fun t s => s.markTarget t) s
  if full then
    let ranges := forEach allRanges (fun r s => if s.defined r then s.markErasing r else s) marked
    if (old.item .shadow).any (fun i => i.step = .done) then ranges.abortOwner .shadow .erase else ranges
  else marked

/-- The Wipe Engine takes a wipe (R125): marks at once, then a group of the plan record. Without a change of the plan there is neither
group nor mark. `answers` says whether the close answers a WIPE request. The second result says whether a group was submitted. -/
def State.acceptWipe (s : State) (targets : List Owner) (overwrite full answers : Bool) : State × Bool :=
  let plan := (s.planToAccept overwrite).accept targets overwrite full
  if plan = s.wipe.intended then (s, false)
  else (((noteRelocked (fun s => s.markAccepted targets full) s).submitPlan plan [] (if answers then [.planAccepted] else []) false),
    true)

/-! ### The key step (R127, R128) -/

/-- The Wipe Engine begins key steps in this part state (R135). -/
def State.keyStepAllowed (s : State) : Bool :=
  s.power.part = .ready ∨ s.power.part = .asleep ∨ (s.power.part = .failsafe ∧ s.store.wipeAccepted)

/-- The current item when its key step is due: it is the current item, PENDING, of the effective and of the intended plan, and no group of
its step is on its way (R122, R127). -/
def State.keyStepDue (s : State) : Option Owner :=
  match s.plan.current with
  | some i =>
    if i.step = .pending ∧ s.wipe.stepInFlight = false ∧ s.wipe.intended.current = some i then
      some i.target
    else none
  | none => none

/-- The intended plan after the key step of a target (R123). -/
def WipePlan.afterKeyStep (p : WipePlan) (t : Owner) : WipePlan :=
  if p.overwrite then p.setStep t .keysDestroyed else p.finish t

/-- Effects of a key step group (R123, R127, R128). -/
def WipePlan.keyStepEffects (p : WipePlan) (t : Owner) (key : Key) : List Effect :=
  .keyStep t key :: (if p.overwrite then [] else p.finishEffects t)

/-- The range record of a key step group (R127). -/
def State.keyStepRecord (s : State) (r : RangeId) (key : Key) : RangeRecord :=
  let old := s.range r
  { old with
    fields := { old.fields with readLock := false, writeLock := false, access := [] }
    generation := old.generation + 1
    tweakOrigin := s.originFor r old.fields
    rootWrap := some key }

/-- A credential record without the slot's wrap of a range (R53, R127). -/
def CredRecord.dropWrap (c : CredRecord) (r : RangeId) : CredRecord :=
  { c with wraps := c.wraps.filter (fun w => w.range ≠ r) }

/-- The credential records of slots that lose their wrap of a range. -/
def State.credsWithout (s : State) (slots : List SlotId) (r : RangeId) : List Record :=
  slots.map (fun i => .cred i ((s.cred i).dropWrap r))

/-- The Wipe Engine's step group is on its way. -/
def State.stepSent (s : State) : State := s.setWipe { s.wipe with stepInFlight := true }

/-- The key step of a range that is defined (R127): a trim group first when 7 or 8 slots are on its access list, otherwise the key step
group. It waits for a group of the request executor that writes the same cells (R129). -/
def State.keyStepRange (s : State) (r : RangeId) : State :=
  let access := (s.range r).fields.access
  if 7 ≤ access.length then
    let cut := access.drop 6
    if s.executorWrites (.range r :: cut.map .cred) then s
    else
      (s.submit
        { submitter := .wipeEngine
          records := .range r { s.range r with fields := { (s.range r).fields with access := access.take 6 } } ::
            s.credsWithout cut r
          effects := [.trimmed r], rewrites := true, final := false }).stepSent
  else if s.executorWrites (.range r :: access.map .cred) then s
  else
    let d := s.draw
    let key := Config.freshKey d.1
    (d.2.submitPlan (s.wipe.intended.afterKeyStep (.range r)) (.range r (s.keyStepRecord r key) :: s.credsWithout access r)
      (s.wipe.intended.keyStepEffects (.range r) key) true).stepSent

/-- The key step of the SHADOW item (R128). -/
def State.keyStepShadow (s : State) : State :=
  if s.executorWrites [.shadow] then s
  else
    let d := s.draw
    let key := Config.freshKey d.1
    (d.2.submitPlan (s.wipe.intended.afterKeyStep .shadow) [.shadow { s.shadowRecord with rootWrap := key }]
      (s.wipe.intended.keyStepEffects .shadow key) true).stepSent

/-- The item of an UNDEFINED range: a plan group alone, with the item DONE (R127). -/
def State.skipItem (s : State) (t : Owner) : State :=
  (s.submitPlan (s.wipe.intended.finish t) [] (s.wipe.intended.finishEffects t) false).stepSent

/-- The Wipe Engine begins the current PENDING item (R127). A range in UPDATING is waited for until its switch or the end of its commit, also
one that a RANGE-COMMIT in its drain wait is creating (R20, R129; DESIGN CHOICE, log 71). -/
def State.beginItem (s : State) : Owner → State
  | .shadow => s.keyStepShadow
  | .range r =>
    let marked := if s.defined r then noteRelocked (fun s => s.markErasing r) s else s
    match marked.table[r].service with
    | .updating => marked
    | .undefined => marked.skipItem (.range r)
    | _ => marked.keyStepRange r

/-! ### Overwriting (R130 to R132) -/

/-- The Wipe Engine may ask for a lane in this part state (R135). -/
def State.overwriteAllowed (s : State) : Bool :=
  s.power.part = .ready ∨ (s.power.part = .failsafe ∧ s.store.wipeAccepted)

/-- The range among 1 to 15 that owns an LBA in the committed table (R3). -/
def State.definedOwner (s : State) (x : Nat) : Option RangeId :=
  allRanges.find? (fun r => r ≠ 0 ∧ (s.range r).fields.start ≤ x ∧ x < (s.range r).fields.start + (s.range r).fields.length)

/-- One hop past the defined range that owns an LBA. -/
def State.hop (s : State) (x : Nat) : Nat :=
  match s.definedOwner x with
  | some r => (s.range r).fields.start + (s.range r).fields.length
  | none => x

/-- The next LBA from `x` on that no defined range owns; fifteen ranges are passed in at most fifteen hops. -/
def State.nextFree (s : State) (x : Nat) : Nat := (List.range 16).foldl (fun x _ => s.hop x) x

/-- The first block of a target's extent from `p` on (R130). -/
def State.extentNext (s : State) (t : Owner) (p : Nat) : Option Nat :=
  match t with
  | .shadow => if p < s.shadowRecord.size then some p else none
  | .range r =>
    if r = 0 then
      let x := s.nextFree p
      if x < s.profile.capacity then some x else none
    else
      let f := (s.range r).fields
      let x := max p f.start
      if x < f.start + f.length then some x else none

/-- The end (exclusive) of the run of consecutive LBAs of a target's extent that holds `x` (R130). -/
def State.runEnd (s : State) (t : Owner) (x : Nat) : Nat :=
  match t with
  | .shadow => s.shadowRecord.size
  | .range r =>
    if r = 0 then
      allRanges.foldl (fun e q =>
        if q ≠ 0 ∧ (s.range q).fields.length ≠ 0 ∧ x < (s.range q).fields.start then min e (s.range q).fields.start else e)
        s.profile.capacity
    else (s.range r).fields.start + (s.range r).fields.length

/-- The tweak parameters of an overwrite segment (R130). -/
def State.overwriteTweak (s : State) : Owner → TweakBase
  | .shadow => { k := 1, base := 0, origin := 0 }
  | .range r =>
    { k := s.unitsPerBlock (s.range r).fields, base := (s.range r).fields.start, origin := (s.range r).tweakOrigin }

/-- The item being overwritten: the current one, at KEYS_DESTROYED or OVERWRITING (R130). -/
def State.overwriteTarget (s : State) : Option Owner :=
  match s.plan.current with
  | some i => if (i.step = .keysDestroyed ∨ i.step = .overwriting) ∧ s.wipe.stepInFlight = false then some i.target else none
  | none => none

/-- The persisted position: the cursor, or the start of the extent (R131, R137). -/
def State.persistedPosition (s : State) : Nat := s.plan.cursor.getD 0

/-- The position of the overwrite. -/
def State.position (s : State) : Nat := s.wipe.position.getD s.persistedPosition

/-- The new key of a target, under the root (R137); an unstated key where a range record has no root wrap, as one lost with its cell has
not (R84, R86, log 17). -/
def State.rootKeyOf (s : State) : Owner → Key
  | .shadow => s.shadowRecord.rootWrap
  | .range r => (s.range r).rootWrap.getD (Config.unstatedKey 0)

/-- The overwrite reaches the end of the extent: the group that ends the item (R132). -/
def State.finishOverwrite (s : State) (t : Owner) : State :=
  ((s.setWipe { s.wipe with asked := false, overwriting := false }).submitPlan (s.wipe.intended.finish t) []
    (s.wipe.intended.finishEffects t) false).stepSent

/-- The Wipe Engine asks the arbiter for a lane, or ends the item when no block of the extent is left (R130, R132). -/
def State.askLane (s : State) (t : Owner) : State :=
  match s.extentNext t s.position with
  | none => s.finishOverwrite t
  | some p => s.setWipe { s.wipe with asked := true, position := some p }

/-- No write issued under the item's old key can land behind its overwrite (R130): every transfer aborted by the item's mark has reached
ABORTED, and no lane is still stopping in a write of the item for a transfer that FRONT_RESET cleared (R46, log 27). -/
def State.abortsOver (s : State) (t : Owner) : Bool :=
  allTags.all (fun g => match s.inflight[g] with
    | some x => x.state ≠ .aborting ∨ x.segments.all (fun y => y.owner ≠ t)
    | none => true) &&
  allLanes.all (fun l => s.lanes[l].task ≠ some (.cleared (some t)))

/-- No lane works an overwrite segment but one that is stopping; the arbiter grants the next when that lane has reported (R40). -/
def State.overwriteLaneFree (s : State) : Bool :=
  match s.overwriteLane with
  | some l => s.lanes[l].stopping
  | none => true

/-- The Wipe Engine begins or resumes overwriting the current item (R130, R137): the key is its own or unwrapped from the root. -/
def State.startOverwrite (s : State) : State :=
  match s.overwriteTarget with
  | none => s
  | some t =>
    if s.overwriteAllowed ∧ s.wipe.asked = false ∧ s.overwriteLaneFree ∧ s.abortsOver t then
      (s.setWipe { s.wipe with key := some (s.wipe.key.getD (s.rootKeyOf t)), position := some s.position }).askLane t
    else s

/-- The Wipe Engine resumes an overwrite it had begun, from its position with the item's key (R145, R147). -/
def State.resumeOverwrite (s : State) : State :=
  if s.wipe.key.isSome ∧ s.wipe.position.isSome then s.startOverwrite else s

/-- The blocks of the next overwrite segment from `p`: to the end of the run, or to the block that brings the count to 4,096 (R130). -/
def State.segmentLength (s : State) (t : Owner) (p : Nat) : Nat :=
  min (s.runEnd t p - p) (Config.cursorStride - s.wipe.count)

/-- Issue one more media write of the overwrite segment in a lane: zeros under the item's key (R38, R130). -/
def State.issueOverwrite (s : State) (l : LaneId) : State :=
  match s.lanes[l].task, s.overwriteTarget, s.wipe.key with
  | some (.overwrite first count progress), some t, some key =>
    let n := first + progress + s.lanes[l].issued.length
    if s.lanes[l].stopping = false ∧ s.lanes[l].failing = none ∧ n < first + count ∧ s.lanes[l].issued.length < s.laneWindow then
      (s.setLane l { s.lanes[l] with issued := s.lanes[l].issued ++ [n] }).say
        (.mediaWrite l (s.mediaLba t n)
          (overUnits Config.encipher key (s.overwriteTweak t) s.profile.blockSize n (List.replicate s.profile.blockSize 0)))
    else s
  | _, _, _ => s

/-- Issue media writes of the overwrite segment up to the lane's window (log 13). -/
def State.fillOverwrite (s : State) (l : LaneId) : State := forEach (List.range s.laneWindow) (fun _ s => s.issueOverwrite l) s

/-- The position and the count move to `next` after `written` blocks; a cursor group, the next lane, or the end of the item follow
(R131). -/
def State.overwriteMoved (s : State) (t : Owner) (next written : Nat) : State :=
  let moved := s.setWipe { s.wipe with position := some next, count := s.wipe.count + written }
  match moved.extentNext t next with
  | none => moved.finishOverwrite t
  | some p =>
    let placed := moved.setWipe { moved.wipe with position := some p }
    let cursored :=
      if Config.cursorStride ≤ placed.wipe.count then
        (placed.setWipe { placed.wipe with count := 0 }).submitPlan
          { placed.wipe.intended.setStep t .overwriting with cursor := some p } [] [.cursor] false
      else placed
    if cursored.overwriteAllowed then cursored.askLane t else cursored

/-- An overwrite segment ends in its lane after `written` blocks, the last before `next` (R131). -/
def State.endOverwriteSegment (s : State) (l : LaneId) (next written : Nat) : State :=
  let idle := s.setLane l idleLane
  match s.overwriteTarget with
  | some t => idle.overwriteMoved t next written
  | none => idle

/-- The media controller acknowledges the oldest write of an overwrite segment (R38, R131). -/
def State.answerOverwrite (s : State) (l : LaneId) (first count progress : Nat) : State :=
  match s.lanes[l].issued with
  | [] => s
  | _ :: rest =>
    let taken := s.setLane l { s.lanes[l] with issued := rest }
    if s.lanes[l].stopping then taken.reportIfStopped l
    else
      match s.lanes[l].failing with
      | some n => if rest = [] then taken.endOverwriteSegment l (n + 1) (n + 1 - first) else taken
      | none =>
        if progress + 1 = count then taken.endOverwriteSegment l (first + count) count
        else (taken.setLane l { s.lanes[l] with
          issued := rest, task := some (.overwrite first count (progress + 1)) }).fillOverwrite l

/-- A media error for the oldest write of an overwrite segment: the failing block is passed over (R131). -/
def State.errorOverwrite (s : State) (l : LaneId) (first block : Nat) : State :=
  match s.lanes[l].issued with
  | [] => s
  | n :: rest =>
    if n ≠ block then s
    else
      let taken := s.setLane l { s.lanes[l] with issued := rest }
      if s.lanes[l].stopping then taken.reportIfStopped l
      else
        let failing := s.lanes[l].failing.getD n
        if rest = [] then taken.endOverwriteSegment l (failing + 1) (failing + 1 - first)
        else taken.setLane l { s.lanes[l] with issued := rest, failing := some failing }

/-- The overwrite segment in a lane, if any, is told to stop, and the Wipe Engine no longer waits for a lane (R85, R131). -/
def State.stopOverwrite (s : State) : State :=
  let still := s.setWipe { s.wipe with asked := false }
  match s.overwriteLane with
  | some l => still.stopLane l
  | none => still

/-- FRONT_RESET reaches the overwrite (R47, R131, R137): a segment in a lane stops, the position returns to the persisted cursor, the count
to 0, also while the overwrite is paused, and a lane is asked for again where the part state allows it (R144). It is asked for as at any
begin: with the item's key, which the full wipe of FAILSAFE has yet to unwrap from the root while a lane still stops for the overwrite
that entry into FAILSAFE ended (R136, R137), and not before a write under the old key is over (R130). -/
def State.restartOverwrite (s : State) : State :=
  if s.wipe.asked ∨ s.overwriteLane.isSome ∨ s.wipe.position.isSome then
    let stopped := s.stopOverwrite
    (stopped.setWipe { stopped.wipe with position := some s.persistedPosition, count := 0 }).startOverwrite
  else s

/-! ### The final group of a full wipe (R133) -/

/-- The final group is to be prepared: every item of the plan is DONE with the full-wipe flag set (R133, R137). -/
def State.finalDue (s : State) : Bool :=
  s.plan.full ∧ s.plan.items ≠ [] ∧ s.plan.allDone ∧ s.wipe.final = .none ∧ s.wipe.intended = s.plan ∧
    (s.power.part = .ready ∨ s.power.part = .asleep ∨ (s.power.part = .failsafe ∧ s.store.wipeAccepted))

/-- The derivation on the factory secret starts, with a fresh salt (R133, R52). -/
def State.startFinal (s : State) : State :=
  let d := s.draw
  { d.2 with derivations := s.derivations ++ [.wipeEngine], wipe := { s.wipe with final := .deriving (Config.freshSalt d.1) } }

/-- The range record of range 0 in the final group (R133). -/
def State.finalRange0 (s : State) (key : Key) : RangeRecord :=
  { fields := defaultFields, tweakOrigin := 0, generation := (s.range 0).generation + 1, rootWrap := some key,
    tableGeneration := s.tableGeneration + 1 }

/-- The records of the final group (R133). -/
def State.finalRecords (s : State) (salt : Word32) (key shadowKey : Key) : List Record :=
  (.cred 0 (factorySlot s.profile.factorySecret salt) :: (allSlots.drop 1).map (fun i => .cred i emptySlot)) ++
    (.range 0 (s.finalRange0 key) :: (allRanges.drop 1).map (fun r => .range r
      { manufacturedRange key r with generation := (s.range r).generation })) ++
    [.shadow { enabled := false, size := s.shadowRecord.size, rootWrap := shadowKey }, .counters manufacturedCounters,
     .binding manufacturedBinding, .triggers manufacturedTriggers, .lockdown manufacturedLockdown, .plan emptyPlan, .token none]

/-- The Wipe Engine submits the final group once its derivation has ended and no group of the request executor that writes one of its
cells is queued or writing (R129, R133). -/
def State.submitFinal (s : State) (salt : Word32) : State :=
  let d1 := s.draw
  let d2 := d1.2.draw
  let key := Config.freshKey d1.1
  (d2.2.setWipe { s.wipe with final := .submitted, intended := emptyPlan }).submit
    { submitter := .wipeEngine, records := s.finalRecords salt key (Config.freshKey d2.1), effects := [.finalCommit key],
      rewrites := true, final := true }

/-- What the Wipe Engine does as soon as it can: start the final derivation, submit the final group, end an overwrite with nothing left
(R130, R133). -/
def State.advanceWipe (s : State) : State :=
  if s.wipeMaySubmit = false then s
  else
    let started := if s.finalDue then s.startFinal else s
    match started.wipe.final with
    | .ready salt => if started.store.waitingGroups.any (fun g => g.submitter = .executor) then started else started.submitFinal salt
    | _ =>
      match started.overwriteTarget with
      | some t =>
        if started.wipe.asked ∧ (started.extentNext t started.position).isNone then started.finishOverwrite t else started
      | none => started

end Sys2Proof.Machine
end

