-- ==== Sys2Proof/Machine/TriggerOps.lean ====
section
/-! DEFINITION. Machine/TriggerOps.lean: the Trigger Unit: conditions, firings, actions, the lockdown record and the exit decision
(chapter 6). -/

namespace Sys2Proof.Machine

/-! ### The lockdown record (R117) -/

/-- A cause joins a cause set, which is kept in the order of R117 so that equal sets are equal lists. -/
def addCause (t : Trigger) (causes : List Trigger) : List Trigger :=
  [Trigger.guessLimit, .unbound, .bayOpen].filter (fun x => x = t ∨ x ∈ causes)

/-- Set the working lockdown state (R117). -/
def State.setLockdown (s : State) (l : LockdownRecord) : State := { s with trigger := { s.trigger with working := l } }

/-- The Trigger Unit brings the record up to the working state (R117). -/
def State.bringRecordUp (s : State) : State :=
  s.submit { submitter := .triggerUnit, records := [.lockdown s.trigger.working], effects := [.lockdownRecord],
             rewrites := false, final := false }

/-- At the close of a group that writes the lockdown record, the Trigger Unit compares it with the working state (R117). -/
def State.compareRecord (s : State) : State := if s.lockdownRecord = s.trigger.working then s else s.bringRecordUp

/-! ### Leaving lockdown (R118, R120) -/

/-- A cause is active (R112): its condition holds, and UNBOUND is also held active by a binding state of CHECKING. -/
def State.causeActive (s : State) : Trigger → Bool
  | .guessLimit => s.triggers.gmax ≤ s.counters.g
  | .unbound => s.binding.state = .mismatch ∨ s.binding.state = .fault ∨ s.binding.state = .checking
  | .bayOpen => s.trigger.bayLevel = .open
  | .idle => false

/-- The entry of a trigger in the trigger table (R106). -/
def TriggerTable.entry (t : TriggerTable) : Trigger → TriggerEntry
  | .guessLimit => t.guessLimit
  | .unbound => t.unbound
  | .bayOpen => t.bayOpen
  | .idle => t.idle

/-- The device leaves lockdown (R120 steps 1 to 3). -/
def State.leave (s : State) : State := ((s.setLockdown manufacturedLockdown).leaveLockdown).raise .lockdownLeft

/-- The part state allows an exit decision: not FAILSAFE, and not STARTING before the end of RESTORE (R118). -/
def State.mayDecideExit (s : State) : Bool :=
  match s.power.part with
  | .failsafe => false
  | .starting => s.power.stage = .ended
  | _ => true

/-- Some cause of the cause set is active (R118, R119). -/
def State.someCauseActive (s : State) : Bool := s.trigger.working.causes.any s.causeActive

/-- Every cause of the cause set has its auto-resume flag on (R118). -/
def State.allAutoResume (s : State) : Bool := s.trigger.working.causes.all (fun t => (s.triggers.entry t).autoResume)

/-- The exit decision (R118), with the leave by auto-resume (R120). -/
def State.exitDecision (s : State) : State :=
  if s.inLockdown ∧ s.mayDecideExit ∧ s.someCauseActive = false ∧ s.allAutoResume then s.leave.bringRecordUp else s

/-- The exit decision that a cause of the set calls for when it goes from active, as it stood in `old`, to inactive (R112, R118). -/
def State.exitIfCleared (s old : State) (t : Trigger) : State :=
  if t ∈ s.trigger.working.causes ∧ old.causeActive t ∧ s.causeActive t = false then s.exitDecision else s

/-! ### Actions and firings (R113 to R116) -/

/-- RELOCK (R114). -/
def State.relockAction (s : State) : State := (noteRelocked State.relock s).revokeAuthority

/-- LOCKDOWN (R115), from NORMAL. -/
def State.lockdownFromNormal (s : State) (t : Trigger) : State :=
  let working := s.setLockdown { device := .lockdown, causes := addCause t [] }
  (((noteRelocked State.enterLockdown working).revokeAuthority).raise .lockdownEntered).bringRecordUp

/-- LOCKDOWN (R115), from LOCKDOWN. -/
def State.lockdownAgain (s : State) (t : Trigger) : State :=
  let grown := addCause t s.trigger.working.causes
  let working := s.setLockdown { device := .lockdown, causes := grown }
  let entered := (noteRelocked State.enterLockdown working).revokeAuthority
  if grown = s.trigger.working.causes then entered else entered.bringRecordUp

/-- WIPE (R116). -/
def State.wipeAction (s : State) : State := (s.acceptWipe allTargets false true false).1.revokeAuthority

/-- Steps 1 and 2 of a firing (R113). -/
def State.noteFiring (s : State) (t : Trigger) : State := (s.addDetail t).raise .triggerFired

/-- The action of a trigger is carried out (R113 step 3). -/
def State.act (s : State) (t : Trigger) : Action → State
  | .note => s
  | .relock => s.relockAction
  | .lockdown => if s.inLockdown then s.lockdownAgain t else s.lockdownFromNormal t
  | .wipe => s.wipeAction

/-- A firing is carried out (R113). -/
def State.carryOut (s : State) (t : Trigger) : State := (s.noteFiring t).act t (s.triggers.entry t).action

/-- A firing is taken (R113): carried out, held until the end of RESTORE, or in FAILSAFE only recorded and raised. -/
def State.fire (s : State) (t : Trigger) : State :=
  match s.power.part with
  | .failsafe => s.noteFiring t
  | .starting =>
    if s.power.stage = .ended then s.carryOut t
    else { s with trigger := { s.trigger with held := s.trigger.held ++ [t] } }
  | _ => s.carryOut t

/-- The held firings are carried out in the order they were taken, and the list is emptied (R113). -/
def State.carryOutHeld (s : State) : State :=
  forEach s.trigger.held (fun t s => s.carryOut t) { s with trigger := { s.trigger with held := [] } }

/-- The Credential Engine hands G to the Trigger Unit (R55, R111). -/
def State.handOverG (s : State) : State :=
  if s.triggers.gmax ≤ s.counters.g then s.fire .guessLimit else s

/-- A taken change of the bay (R108). -/
def State.takeBayChange (s : State) (level : BayLevel) : State :=
  let taken := { s with trigger := { s.trigger with bayLevel := level, stability := none, bayTaken := true } }
  let told := (taken.raise .bayChanged).latchOpen level
  match level with
  | .open => told.fire .bayOpen
  | .closed => told.exitDecision

/-- An edge of the BAY line (R108). -/
def State.bayEdge (s : State) (level : BayLevel) : State :=
  { s with trigger := { s.trigger with
      bayLine := level, candidate := level
      stability := if level = s.trigger.bayLevel then none else some s.clock } }

end Sys2Proof.Machine
end

