-- ==== Sys2Proof/Machine/BindingOps.lean ====
section
/-! DEFINITION. Machine/BindingOps.lean: the Binding Unit: pages, rounds, checks and enrolment exchanges (chapter 5). -/

namespace Sys2Proof.Machine

/-- Replace the Binding Unit's volatile state. -/
def State.setBinding (s : State) (b : Binding) : State := { s with binding := b }

/-! ### Pages (R92, R93) -/

/-- A page is sent: the toggle turns, and the page waits for its acknowledgement (R92). -/
def State.sendPage (s : State) (kind : PageKind) (more : Bool) (index : Nat) (payload : Word16) (exchange : Exchange) : State :=
  let toggle := !s.binding.toggle
  (s.setBinding { s.binding with toggle := toggle, exchange := exchange, waitSince := s.clock }).say
    (.page { kind := kind, toggle := toggle, more := more, acknowledge := false, index := index, payload := payload })

/-- An acknowledgement is sent (R92, R93); its payload is not read by the receiver (log 28). -/
def State.sendAck (s : State) (toggle : Bool) (index : Nat) : State :=
  let d := s.draw
  d.2.say (.page { kind := .ack, toggle := toggle, more := false, acknowledge := true, index := index,
                   payload := Config.ackPayload d.1 })

/-- Bytes 0 to 15 of a 32-byte value. -/
def firstHalfOf (x : Word32) : Word16 := x.extractLsb' 128 128
/-- Bytes 16 to 31 of a 32-byte value. -/
def secondHalfOf (x : Word32) : Word16 := x.extractLsb' 0 128

/-! ### Rounds and checks (R94 to R98) -/

/-- A round starts: a fresh challenge, the toggle at 0, CHALLENGE 0 sent (R94). -/
def State.startRound (s : State) : State :=
  let d := s.draw
  let challenge := Config.freshChallenge d.1
  (d.2.setBinding { s.binding with toggle := false, challenge := some challenge, firstHalf := none }).sendPage
    .challenge true 0 (firstHalfOf challenge) (.check (.sending 0))

/-- A check starts (R97): only while the drive is ENROLLED and no exchange is in progress. -/
def State.startCheck (s : State) (reference : BindingState) : State :=
  if s.enrolled ∧ s.binding.exchange = .none then
    (s.setBinding { s.binding with
      rounds := 0, reference := some reference, recheck := none
      state := if s.binding.state = .mismatch ∨ s.binding.state = .fault then s.binding.state else .checking }).startRound
  else s

/-- A check ends with a result (R98). -/
def State.endCheck (s : State) (result : BindingState) : State :=
  let set := s.setBinding { s.binding with
    state := result, exchange := .none, reference := none, challenge := none, firstHalf := none, recheck := none }
  let fired := if result = .bound then set else set.fire .unbound
  let decided := if .unbound ∈ fired.trigger.working.causes then fired.exitDecision else fired
  let gate := if result = .bound then decided.setBinding { decided.binding with gated := [] } else decided
  if s.binding.reference = some result then gate else gate.raise .bindingChanged

/-- A round of a check fails (R96). -/
def State.failRound (s : State) : State :=
  let counted := s.setBinding { s.binding with
    rounds := s.binding.rounds + 1, exchange := .check .pausing, challenge := none, firstHalf := none, waitSince := s.clock }
  if Config.roundLimit ≤ s.binding.rounds + 1 then counted.endCheck .fault else counted

/-- A check in progress is abandoned as the part goes ASLEEP (R104). -/
def State.abandonCheck (s : State) : State :=
  match s.binding.exchange with
  | .check _ =>
    s.setBinding { s.binding with
      exchange := .none, reference := none, challenge := none, firstHalf := none, recheck := none
      state := if s.binding.state = .checking then s.binding.reference.getD s.binding.state else s.binding.state }
  | _ => s.setBinding { s.binding with recheck := none }

/-- An exchange in progress is abandoned with the binding state held as it stands (R104: FAILSAFE; R156: RESET-PART). -/
def State.stopExchange (s : State) : State :=
  s.setBinding { s.binding with
    exchange := .none, reference := none, challenge := none, firstHalf := none, freshSecret := none, recheck := none }

/-! ### Enrolment (R101, R102) -/

/-- An enrolment exchange starts with the fresh secret: the toggle at 0, ENROL 0 sent (R101). -/
def State.startEnrolExchange (s : State) (secret : Word32) : State :=
  (s.setBinding { s.binding with toggle := false, freshSecret := some secret }).sendPage
    .enrol true 0 (firstHalfOf secret) (.enrol (.sending 0))

/-- The enrolment begins: the fresh binding secret and the first exchange (R101). -/
def State.startEnrolment (s : State) : State :=
  let d := s.draw
  (d.2.setBinding { s.binding with failures := 0, recheck := none }).startEnrolExchange (Config.freshBindingSecret d.1)

/-- An enrolment exchange fails; the seventh erases the secret and answers FAILED (R101). -/
def State.failEnrolment (s : State) : State :=
  if Config.roundLimit ≤ s.binding.failures + 1 then
    (s.setBinding { s.binding with failures := s.binding.failures + 1, exchange := .none, freshSecret := none }).reply
      .failed (.failed none none)
  else s.setBinding { s.binding with failures := s.binding.failures + 1, exchange := .enrol .pausing, waitSince := s.clock }

/-- The exchange succeeds with the digest of ENROL 2: the enrolment group is ready to be submitted (R101, R102). -/
def State.enrolTaken (s : State) (digest : Word16) : State :=
  match s.executor.job with
  | .enrol recheck _ =>
    { s with
      binding := { s.binding with exchange := .none }
      executor := { s.executor with job := .enrol recheck (some digest), stage := .wanted } }
  | _ => s

/-- An enrolment exchange stops with its request, and the fresh secret is erased (R102, FRONT_RESET). -/
def State.abandonEnrolment (s : State) : State :=
  match s.binding.exchange with
  | .enrol _ => s.setBinding { s.binding with exchange := .none, freshSecret := none }
  | _ => s

/-- The record of the enrolment group (R102). -/
def State.enrolRecord (s : State) (recheck : Option Nat) (digest : Word16) (secret : Word32) : BindingRecord :=
  { enrolled := some { digest := digest, secret := secret }, recheck := recheck.getD s.bindingRecord.recheck }

/-- The enrolment group closes (R102). -/
def State.enrolClosed (s : State) (digest : Word16) : State :=
  let before := s.binding.state
  let bound := s.setBinding { s.binding with state := .bound, rounds := 0, freshSecret := none, recheck := none }
  let told := bound.exitIfCleared s .unbound
  let gate := told.setBinding { told.binding with gated := [] }
  let changed := if before = .bound then gate else gate.raise .bindingChanged
  changed.reply .ok (.enrolment digest changed.bindingRecord.recheck)

/-! ### What an exchange in progress meets (R92 to R96, R101) -/

/-- The phase of the exchange in progress; none in the pause between rounds or exchanges, which counts as outside one (R93, R96). -/
def Exchange.live : Exchange → Option ExchangePhase
  | .none => .none
  | .check .pausing => .none
  | .enrol .pausing => .none
  | .check p => some p
  | .enrol p => some p

/-- The exchange in progress fails (R92, R93): a failed round, or a failed enrolment exchange. -/
def State.failExchange (s : State) : State :=
  match s.binding.exchange with
  | .none => s
  | .check _ => s.failRound
  | .enrol _ => s.failEnrolment

/-- The acknowledgement of the part's page has been taken: the next page, or the wait for the module's first (R94, R101). -/
def State.acknowledged (s : State) : State :=
  match s.binding.exchange with
  | .check (.sending 0) =>
    s.sendPage .challenge false 1 (secondHalfOf (s.binding.challenge.getD 0)) (.check (.sending 1))
  | .check (.sending _) => s.setBinding { s.binding with exchange := .check (.awaiting 0), waitSince := s.clock }
  | .enrol (.sending 0) =>
    s.sendPage .enrol false 1 (secondHalfOf (s.binding.freshSecret.getD 0)) (.enrol (.sending 1))
  | .enrol (.sending _) => s.setBinding { s.binding with exchange := .enrol (.awaiting 2), waitSince := s.clock }
  | _ => s

/-- The response the part expects (R94). -/
def State.expectedResponse (s : State) : Word32 :=
  Config.response (s.binding.challenge.getD 0) ((s.bindingRecord.enrolled.map (·.secret)).getD 0)

/-- A page of the module has been taken and acknowledged: the round or enrolment exchange goes on or has its result (R95, R101). -/
def State.pageTaken (s : State) (payload : Word16) : State :=
  match s.binding.exchange with
  | .check (.awaiting 0) =>
    if s.bindingRecord.enrolled.map (·.digest) = some payload then
      s.setBinding { s.binding with exchange := .check (.awaiting 1), waitSince := s.clock }
    else s.endCheck .mismatch
  | .check (.awaiting 1) =>
    s.setBinding { s.binding with exchange := .check (.awaiting 2), firstHalf := some payload, waitSince := s.clock }
  | .check (.awaiting _) =>
    if s.binding.firstHalf.getD 0 ++ payload = s.expectedResponse then s.endCheck .bound else s.endCheck .mismatch
  | .enrol (.awaiting _) => s.enrolTaken payload
  | _ => s

/-- The kind the exchange expects of the module, and whether a page of an index carries the more flag (R94, R101). -/
def Exchange.expects : Exchange → PageKind × (Nat → Bool)
  | .enrol _ => (.enrol, fun _ => false)
  | .check _ => (.response, fun index => index ≠ 2)
  | .none => (.response, fun _ => false)

/-- The page is one the part expects (R93 step 5). -/
def Exchange.accepts (e : Exchange) (toggle : Bool) (index : Nat) (p : TetherPage) : Bool :=
  p.toggle ≠ toggle ∧ p.kind = e.expects.1 ∧ p.index = index ∧ p.acknowledge = false ∧ p.more = e.expects.2 index

/-- A page of the module is taken (R93 step 5): the toggle and the last page follow it, it is acknowledged, and the exchange goes on. -/
def State.takePage (s : State) (p : TetherPage) : State :=
  ((s.setBinding { s.binding with
      toggle := p.toggle, lastPage := some { kind := p.kind, index := p.index, toggle := p.toggle } }).sendAck
    p.toggle p.index).pageTaken p.payload

/-- A page whose check agrees is treated under R93 steps 2 to 5. -/
def State.receivePage (s : State) (p : TetherPage) : State :=
  match s.binding.exchange.live with
  | none =>
    if s.binding.lastPage = some { kind := p.kind, index := p.index, toggle := p.toggle } then s.sendAck p.toggle p.index else s
  | some (.sending index) =>
    if p.kind = .ack ∧ p.acknowledge ∧ p.index = index ∧ p.toggle = s.binding.toggle then s.acknowledged else s.failExchange
  | some (.awaiting index) =>
    if p.kind ≠ .ack ∧ p.toggle = s.binding.toggle then s.sendAck p.toggle p.index
    else if s.binding.exchange.accepts s.binding.toggle index p then s.takePage p
    else s.failExchange
  | some .pausing => s

/-- The work is a BIND-ENROLL (R101). -/
def Job.isEnrol : Job → Bool
  | .enrol .. => true
  | _ => false

/-- The condition under which the recheck timer runs (R99, R101). -/
def State.recheckRuns (s : State) : Bool :=
  s.power.part = .ready ∧ s.enrolled ∧ s.binding.exchange = .none ∧ s.executor.job.isEnrol = false ∧
    (s.binding.state = .fault ∨ (s.binding.state = .bound ∧ allRanges.any s.openEnabled))

end Sys2Proof.Machine
end

