-- ==== Sys2Proof/Machine/CredentialOps.lean ====
section
/-! DEFINITION. Machine/CredentialOps.lean: the Credential Engine: backoff, the records of its groups, and what it does at a verdict and at
a close (chapter 3). -/

namespace Sys2Proof.Machine

/-! ### Backoff (R63 to R65) -/

/-- The closed period in ms after a failure that leaves the count at `f` (R63). -/
def closedPeriod (p : Policy) (f : Nat) : Nat :=
  if f ≤ p.free then 0 else min (p.base * 100 * 2 ^ min (f - p.free - 1) 10) Config.closedCapMs

/-- Set the open-at time of a slot (R50). -/
def State.setOpenAt (s : State) (i : SlotId) (t : Nat) : State := { s with openAt := s.openAt.set i t }

/-- The closed period of a slot for its current count and policy (R63). -/
def State.closedPeriodOf (s : State) (i : SlotId) : Nat := closedPeriod (s.cred i).policy (s.cred i).failures

/-- The backoff of every slot that is not EMPTY restarts (R65). -/
def State.restartBackoff (s : State) : State :=
  forEach allSlots (fun i s =>
    if (s.cred i).state = .empty then s else s.setOpenAt i (s.clock + s.closedPeriodOf i)) s

/-- Time left to the open-at time of a slot, in 100 ms units, rounded up (R61, R64). -/
def State.retryAfter (s : State) (i : SlotId) : Nat := (s.openAt[i] - s.clock + 99) / 100

/-- The slot takes attempts now (R50). -/
def State.accepting (s : State) (i : SlotId) : Bool := s.openAt[i] ≤ s.clock

/-! ### Records (R58, R60, R61, R66 to R69) -/

/-- Where the failure count stops (R55). -/
def countLimit (p : Policy) : Nat := if p.limit = 0 then 31 else p.limit

/-- Where the global failure count stops (R55). -/
def globalLimit : Nat := 255

/-- G raised by one, to at most 255 (R55). -/
def raiseG (g : Nat) : Nat := min (g + 1) globalLimit

/-- The charge group's records (R58). -/
def State.chargeRecords (s : State) (i : SlotId) : List Record :=
  let c := s.cred i
  [.cred i { c with failures := min (c.failures + 1) (countLimit c.policy) },
   .counters { s.counters with g := raiseG s.counters.g, marker := some { slot := i, before := s.counters.g } }]

/-- The slot stands at its attempt limit (R61: lock-out). -/
def CredRecord.atLimit (c : CredRecord) : Bool := c.policy.limit ≠ 0 ∧ c.failures = c.policy.limit

/-- The records that settle an attempt as failed: the marker cleared, and LOCKED_OUT at the limit (R61, R62, R152). -/
def State.settleRecords (s : State) (i : SlotId) : List Record :=
  .counters { s.counters with marker := none } ::
    (if (s.cred i).atLimit then [.cred i { s.cred i with state := .lockedOut }] else [])

/-- The records of a successful verdict (R60, R55). -/
def State.successRecords (s : State) (i : SlotId) : List Record :=
  let before := (s.counters.marker.map (·.before)).getD s.counters.g
  [.cred i { s.cred i with failures := 0 },
   .counters { s.counters with marker := none, g := if roleOf i = .user then before else 0 }]

/-- The counters record of a wrong wipe token (R124). -/
def State.wrongTokenRecord (s : State) : Record := .counters { s.counters with g := raiseG s.counters.g }

/-- The ranges whose access list holds a slot (R67). -/
def State.listedRanges (s : State) (i : SlotId) : List RangeId := allRanges.filter (fun r => i ∈ (s.range r).fields.access)

/-- The key of a range for a CRED-SET of a slot: from its entry, or from the holder's own wrap; none when unavailable (R67). -/
def State.credSetKey (s : State) (i : SlotId) (r : RangeId) : Option Key :=
  if (s.key (.range r)).inHand then some (s.laneKey (.range r))
  else
    match s.authority with
    | some a => if a.slot = i then s.openWrap i a.unwrap r else none
    | none => none

/-- The unwrap value of a CRED-SET's new secret (R66, log 9). -/
def CredSetJob.unwrap (j : CredSetJob) : Unwrap := { secret := j.secret, salt := j.salt, e := j.policy.e }

/-- The wraps a CRED-SET remakes: for the ranges that still list the slot (R67, R129). -/
def State.remadeWraps (s : State) (j : CredSetJob) : List Wrap :=
  (j.keys.filter (fun p => j.slot ∈ (s.range p.1).fields.access)).map (fun p =>
    { range := p.1, generation := (s.range p.1).generation, key := p.2, verifier := { madeFrom := j.unwrap } })

/-- The slot's record of a CRED-SET (R66). -/
def State.credSetRecord (s : State) (j : CredSetJob) : CredRecord :=
  { state := if (s.cred j.slot).state = .disabled then .disabled else .active
    salt := some j.salt, verifier := some { madeFrom := j.unwrap }, policy := j.policy, failures := 0, wraps := s.remadeWraps j }

/-- A range record without a slot on its access list (R67). -/
def RangeRecord.without (r : RangeRecord) (i : SlotId) : RangeRecord :=
  { r with fields := { r.fields with access := r.fields.access.filter (· ≠ i) } }

/-- The group of a CRED-SET (R67). -/
def State.credSetRecords (s : State) (j : CredSetJob) : List Record :=
  .cred j.slot (s.credSetRecord j) ::
    (j.dropped.filter (fun r => j.slot ∈ (s.range r).fields.access)).map (fun r => .range r ((s.range r).without j.slot))

/-- The slot's record of a CRED-POLICY (R68): `e` only while EMPTY; a new limit below f pulls f to it and may lock the slot out. -/
def CredRecord.withPolicy (c : CredRecord) (p : Policy) : CredRecord :=
  let e := if c.state = .empty then p.e else c.policy.e
  let f := if p.limit ≠ 0 ∧ p.limit < c.failures then p.limit else c.failures
  { c with
    policy := { p with e := e }, failures := f
    state := if c.state = .active ∧ p.limit ≠ 0 ∧ f = p.limit then .lockedOut else c.state }

/-- The group of a CRED-POLICY (R68). -/
def State.credPolicyRecords (s : State) (i : SlotId) (p : Policy) (idle : Option Nat) : List Record :=
  .cred i ((s.cred i).withPolicy p) ::
    (match idle with
     | some n => [.counters { s.counters with idleLimit := n }]
     | none => [])

/-- The slot's record after a CRED-STATE action; none when the action is refused SLOT_STATE (R69). -/
def CredRecord.apply (c : CredRecord) : CredAction → Option CredRecord
  | .enable =>
    match c.state with
    | .active => some c
    | .disabled => some { c with state := if c.atLimit then .lockedOut else .active }
    | .lockedOut => none
    | .empty => none
  | .disable => if c.state = .empty then none else some { c with state := .disabled }
  | .reopen => if c.state = .empty then none else some { c with failures := 0, state := .active }

/-! ### The verdict (R59 to R61) -/

/-- The unwrap value a slot derives from a secret (R52, log 9). -/
def State.derive (s : State) (i : SlotId) (secret : List Byte) : Unwrap :=
  { secret := secret, salt := (s.cred i).salt.getD 0, e := (s.cred i).policy.e }

/-- The comparison: the secret is the one the slot was last set with (R52). -/
def State.judge (s : State) (i : SlotId) (secret : List Byte) : Bool :=
  (s.cred i).verifier = some { madeFrom := s.derive i secret }

/-- The AUTHENTICATE goes on in a phase (R58 to R62). -/
def State.attemptGoesOn (s : State) (a : Attempt) (phase : AttemptPhase) (stage : JobStage) : State :=
  s.startJob (.attempt { a with phase := phase }) stage

/-- The comparison has ended: the verdict time. A failed verdict ends authority first (R59, R61). -/
def State.verdictReached (s : State) (a : Attempt) : State :=
  let success := s.judge a.slot a.secret
  (if success then s else s.endAuthority).attemptGoesOn { a with settledAt := s.clock } (.verdict success) .wanted

/-- The unlock set is applied, entry by entry (R60 step 1, R12): the entries applied, and the ranges skipped with their codes. -/
def State.applyUnlockSet (i : SlotId) (u : Unwrap) :
    List Unlock → State → State × List Unlock × List (RangeId × Code)
  | [], s => (s, [], [])
  | x :: rest, s =>
    let refusal :=
      if roleOf i ≠ .admin ∧ i ∉ (s.range x.range).fields.access then some Code.noAuthority else s.unlockRefusal i u x.range
    match refusal with
    | some code =>
      let r := State.applyUnlockSet i u rest s
      (r.1, r.2.1, (x.range, code) :: r.2.2)
    | none =>
      let r := State.applyUnlockSet i u rest (s.applyUnlock i u x)
      (r.1, x :: r.2.1, r.2.2)

/-- Authority is granted (R60 step 2, R71). It is absent outside READY. -/
def State.grantAuthority (s : State) (i : SlotId) (u : Unwrap) : State :=
  if s.power.part = .ready then { s with authority := some { slot := i, unwrap := u }, authTimer := none } else s

/-- The verdict commit of a successful attempt closes (R60); after an abandonment only the open-at time follows (R62). The exit decision
that a lower G calls for is made last (log 21). The unlock set meets the state at this close, as R60 step 1 has it, where R12 says the state
at verdict time, which R59 puts at the end of the comparison, before the group was submitted (DESIGN CHOICE, log 74). `old` is the state
before the close. -/
def State.successClosed (s old : State) (a : Attempt) : State :=
  let opened := s.setOpenAt a.slot a.settledAt
  match s.executor.status with
  | .executing =>
    let u := opened.derive a.slot a.secret
    let r := State.applyUnlockSet a.slot u a.unlock opened
    ((r.1.grantAuthority a.slot u).reply .ok (.authenticated (roleOf a.slot) r.2.1 r.2.2)).exitIfCleared old .guessLimit
  | _ => (opened.reply .ok).exitIfCleared old .guessLimit

/-- The slot has become LOCKED_OUT: SLOT_LOCKED_OUT is raised (R61, R62, R152). -/
def State.raiseIfLockedOut (s : State) (i : SlotId) : State :=
  if (s.cred i).state = .lockedOut then s.raise .slotLockedOut else s

/-- An attempt is settled as failed at a close: its open-at time, the hand-over of G, and a lock-out (R61, R62). -/
def State.settledFailed (s : State) (a : Attempt) : State :=
  ((s.setOpenAt a.slot (a.settledAt + s.closedPeriodOf a.slot)).handOverG).raiseIfLockedOut a.slot

/-- Fields of the FAILED reply of an attempt (R61). -/
def State.failedFields (s : State) (i : SlotId) : Payload :=
  let c := s.cred i
  .failed (if c.policy.limit = 0 then none else some (c.policy.limit - c.failures))
    (some (if c.state = .lockedOut ∨ s.closedPeriodOf i = 0 then 0 else s.retryAfter i))

/-- The verdict commit of a failed attempt closes (R61). -/
def State.failedClosed (s : State) (a : Attempt) : State :=
  let settled := s.settledFailed a
  settled.reply .failed (settled.failedFields a.slot)

/-- The settlement commit of an abandoned attempt closes (R62). -/
def State.settlementClosed (s : State) (a : Attempt) : State :=
  ((s.settledFailed a).raise .attemptCharged).reply .failed

/-- A group of an AUTHENTICATE closes (R58 to R62). -/
def State.attemptClosed (s old : State) (a : Attempt) : State :=
  match a.phase with
  | .charging =>
    match s.executor.status with
    | .abandoned => s.attemptGoesOn a .settling .wanted
    | _ => { s.attemptGoesOn a .deriving .working with derivations := s.derivations ++ [.executor] }
  | .deriving => s
  | .verdict true => s.successClosed old a
  | .verdict false => s.failedClosed a
  | .settling => s.settlementClosed a

/-! ### Closes of the credential requests (R66 to R69) -/

/-- The staging copy of a range becomes equal to its committed entry, its mark cleared (R14). -/
def State.restage (s : State) (r : RangeId) : State :=
  { s with staging := s.staging.set r { fields := (s.range r).fields, newKey := false } }

/-- The holder's unwrap value follows a CRED-SET of its own slot (R66). -/
def State.renewUnwrap (s : State) (i : SlotId) (u : Unwrap) : State :=
  match s.authority with
  | some a => if a.slot = i then { s with authority := some { a with unwrap := u } } else s
  | none => s

/-- The group of a CRED-SET closes (R66, R67). The reply names the ranges that the checks found unavailable, also one whose access list a key
step emptied of the slot before the group was formed (DESIGN CHOICE, log 54). -/
def State.credSetClosed (s : State) (j : CredSetJob) : State :=
  let staged := forEach j.dropped (fun r s => s.restage r) (s.setOpenAt j.slot s.clock)
  (staged.renewUnwrap j.slot j.unwrap).reply .ok (.credSet j.policy j.dropped)

/-- The group of a CRED-POLICY closes; `old` is the state before (R68). -/
def State.credPolicyClosed (s old : State) (i : SlotId) : State :=
  let c := s.cred i
  let told := if c.state = .lockedOut ∧ (old.cred i).state ≠ .lockedOut then s.raise .slotLockedOut else s
  told.reply .ok (.credPolicy c.policy c.failures s.counters.idleLimit)

/-- The group of a CRED-STATE closes (R69). -/
def State.credStateClosed (s : State) (i : SlotId) (a : CredAction) : State :=
  let c := s.cred i
  let opened := if a = .reopen then s.setOpenAt i s.clock else s
  let told := if a = .enable ∧ c.state = .lockedOut then opened.raise .slotLockedOut else opened
  told.reply .ok (.credState c.state c.failures)

end Sys2Proof.Machine
end

