-- ==== Sys2Proof/Machine/CommitOps.lean ====
section
/-! DEFINITION. Machine/CommitOps.lean: RANGE-COMMIT: validation (R18), affected ranges (R19), the commit group (R21) and the switch
(R22). -/

namespace Sys2Proof.Machine

/-! ### What staging changes -/

/-- Staged fields of a range (R14). -/
def State.staged (s : State) (r : RangeId) : RangeFields := s.staging[r].fields

/-- The staged range is defined (R2, R15). -/
def State.stagedDefined (s : State) (r : RangeId) : Bool := r = 0 ∨ (s.staged r).length ≠ 0

/-- The range is being removed (R15). -/
def State.removes (s : State) (r : RangeId) : Bool := s.defined r ∧ s.stagedDefined r = false

/-- The range receives a new key at the switch: it is created or carries a mark (R22). A range staged UNDEFINED receives none
(log 30). -/
def State.receivesKey (s : State) (r : RangeId) : Bool := s.stagedDefined r ∧ (s.defined r = false ∨ s.staging[r].newKey)

/-- The range differs between staging and committed table, or carries a mark (R18 check 5). -/
def State.differs (s : State) (r : RangeId) : Bool := s.staged r ≠ (s.range r).fields ∨ s.staging[r].newKey

/-- The range is affected: start, length, existence or U differs, or it carries a mark (R19). -/
def State.affects (s : State) (r : RangeId) : Bool :=
  (s.staged r).start ≠ (s.range r).fields.start ∨ (s.staged r).length ≠ (s.range r).fields.length ∨
    (s.staged r).unitSize ≠ (s.range r).fields.unitSize ∨ s.staging[r].newKey

/-- The access list after the switch: empty for a range being removed (R22). -/
def State.newAccess (s : State) (r : RangeId) : List SlotId := if s.removes r then [] else (s.staged r).access

/-- The slots the switch adds to the access list of a range. -/
def State.addedSlots (s : State) (r : RangeId) : List SlotId :=
  (s.newAccess r).filter (fun i => i ∉ (s.range r).fields.access)

/-- The slots on the staged access list of a range that are not on the committed one, whether or not the range is being removed (R18
check 6). -/
def State.stagedSlots (s : State) (r : RangeId) : List SlotId :=
  (s.staged r).access.filter (fun i => i ∉ (s.range r).fields.access)

/-- The switch leaves a defined range with neither lock enabled while it had one (R18 check 7, R22). -/
def State.losesLocks (s : State) (r : RangeId) : Bool :=
  s.stagedDefined r ∧ s.anyLock r ∧ (s.staged r).anyLock = false

/-! ### Validation (R18) -/

/-- Two staged defined ranges among 1 to 15 share an LBA. -/
def State.stagedShare (s : State) (r q : RangeId) : Bool :=
  r ≠ 0 ∧ q ≠ 0 ∧ r ≠ q ∧ s.stagedDefined r ∧ s.stagedDefined q ∧
    (s.staged r).start < (s.staged q).start + (s.staged q).length ∧ (s.staged q).start < (s.staged r).start + (s.staged r).length

/-- Check 3: the lowest range that shares an LBA with another. -/
def State.overlapping (s : State) : Option RangeId := allRanges.find? (fun r => allRanges.any (fun q => s.stagedShare r q))

/-- Check 4: every staged defined range lies within the capacity. -/
def State.withinCapacity (s : State) : Bool :=
  allRanges.all (fun r => r = 0 ∨ s.stagedDefined r = false ∨ (s.staged r).start + (s.staged r).length ≤ s.profile.capacity)

/-- Check 5: the lowest range that differs and is ERASING. -/
def State.differsErasing (s : State) : Option RangeId :=
  allRanges.find? (fun r => s.differs r ∧ s.table[r].service = .erasing)

/-- Check 6: the lowest range with an EMPTY slot on its staged access list that the committed one does not hold. -/
def State.addsEmptySlot (s : State) : Option RangeId :=
  allRanges.find? (fun r => (s.stagedSlots r).any (fun i => (s.cred i).state = .empty))

/-- Check 7: the lowest range whose key must be in hand and is not. A NEW_KEY mark exempts a range that receives a key by it; a marked
range that stays UNDEFINED receives none (R3), so a growing access list of such a range meets KEY_UNAVAILABLE (DEDUCED, log 30). -/
def State.lacksKey (s : State) : Option RangeId :=
  allRanges.find? (fun r =>
    s.receivesKey r = false ∧ (s.addedSlots r ≠ [] ∨ s.losesLocks r) ∧ (s.key (.range r)).inHand = false)

/-- The switch changes the committed entry of a range other than by the table generation (R21). -/
def State.rangeChanges (s : State) (r : RangeId) : Bool := s.staged r ≠ (s.range r).fields ∨ s.receivesKey r

/-- The switch changes the wrap list of a slot (R21). -/
def State.slotChanges (s : State) (i : SlotId) : Bool :=
  allRanges.any (fun r =>
    let before := decide (i ∈ (s.range r).fields.access)
    let after := decide (i ∈ s.newAccess r)
    before ≠ after ∨ (before ∧ s.receivesKey r))

/-- Check 8: the records of the group (R21). -/
def State.commitSize (s : State) : Nat :=
  1 + (allRanges.filter (fun r => r ≠ 0 ∧ s.rangeChanges r)).length + (allSlots.filter s.slotChanges).length

/-- The first failing check from 2 on, with its reply (R18). -/
def State.commitRefusal (s : State) : Option (Code × Payload) :=
  if s.inLockdown then some (.lockdown, .none)
  else if s.overlapping.isSome then some (.overlap, .range s.overlapping)
  else if s.withinCapacity = false then some (.outOfRange, .none)
  else if s.differsErasing.isSome then some (.slotState, .range s.differsErasing)
  else if s.addsEmptySlot.isSome then some (.slotState, .range s.addsEmptySlot)
  else if s.lacksKey.isSome then some (.keyUnavailable, .range s.lacksKey)
  else if Config.groupMax < s.commitSize then some (.outOfRange, .none)
  else none

/-! ### The drain wait (R19) -/

/-- The range keys in hand (R18 check 7): those of the entries that are LIVE or DRAINING. -/
def State.rangeKeys (s : State) : List (RangeId × Key) :=
  allRanges.filterMap (fun r => (s.key (.range r)).material.map (fun key => (r, key)))

/-- The affected ranges that are ACTIVE or UNDEFINED go to UPDATING, and the drain limit starts (R19). The keys that validation found in
hand are kept for the wraps, since a relock in the drain wait may empty an entry (R12, R21; log 46). -/
def State.startCommit (s : State) : State :=
  let affected := allRanges.filter s.affects
  let updating := forEach affected (fun r s =>
    if s.table[r].service = .active ∨ s.table[r].service = .undefined then s.modRange r (fun e => { e with service := .updating })
    else s) s
  updating.startJob
    (.commit
      { affected := affected.map (fun r => (r, s.table[r].service)), held := [], keys := s.rangeKeys, newKeys := []
        drainSince := s.clock })
    .working

/-- The reference count of every affected range is 0 (R19). -/
def State.drained (s : State) (c : Commit) : Bool := c.affected.all (fun p => (s.key (.range p.1)).refs = 0)

/-- The drain wait ends, and the group is ready to be submitted (R19). -/
def State.endDrainWait (s : State) : State :=
  match s.commit with
  | some c => if s.commitDraining ∧ s.drained c then { s with executor := { s.executor with stage := .wanted } } else s
  | none => s

/-! ### The commit group (R21) -/

/-- The key of a range among keys held for a RANGE-COMMIT. -/
def keyAmong (keys : List (RangeId × Key)) (r : RangeId) : Option Key := (keys.find? (fun p => p.1 = r)).map (·.2)

/-- Draw a fresh key for each range of a list (R21, log 8). -/
def State.drawKeys : List RangeId → State → List (RangeId × Key) × State
  | [], s => ([], s)
  | r :: rest, s =>
    let d := s.draw
    let more := State.drawKeys rest d.2
    ((r, Config.freshKey d.1) :: more.1, more.2)

/-- The range key that validation found in hand (R18 check 7); check 7 leaves none without a key where a wrap is made. -/
def Commit.rangeKey (c : Commit) (r : RangeId) : Key := (keyAmong c.keys r).getD (Config.unstatedKey 0)

/-- The fresh key that the group carries for a range; one is drawn for each range that receives a key. -/
def Commit.newKey (c : Commit) (r : RangeId) : Key := (keyAmong c.newKeys r).getD (Config.unstatedKey 0)

/-- The root wrap of a range that keeps its key (R21, R22): none with a lock enabled; of the key in hand when its locks go. -/
def State.keptRootWrap (s : State) (c : Commit) (r : RangeId) : Option Key :=
  if (s.staged r).anyLock then none
  else if s.losesLocks r then some (c.rangeKey r)
  else (s.range r).rootWrap

/-- The entry of a range after the switch, less the table generation (R22). -/
def State.switched (s : State) (c : Commit) (r : RangeId) : RangeRecord :=
  let old := s.range r
  if s.removes r then { old with fields := defaultFields, tweakOrigin := 0, rootWrap := none }
  else if s.receivesKey r then
    { old with
      fields := s.staged r, tweakOrigin := s.originFor r (s.staged r), generation := old.generation + 1
      rootWrap := if (s.staged r).anyLock then none else some (c.newKey r) }
  else { old with fields := s.staged r, rootWrap := s.keptRootWrap c r }

/-- The range record of the commit group: range 0 carries the new table generation (R21). -/
def State.commitRecord (s : State) (c : Commit) (r : RangeId) : RangeRecord :=
  let new := s.switched c r
  if r = 0 then { new with tableGeneration := s.tableGeneration + 1 } else new

/-- A slot's wrap of a range after the switch (R21, R53). -/
def State.switchedWrap (s : State) (c : Commit) (i : SlotId) (r : RangeId) : Option Wrap :=
  if i ∉ s.newAccess r then none
  else if s.receivesKey r = false ∧ i ∈ (s.range r).fields.access then (s.cred i).wraps.find? (fun w => w.range = r)
  else
    match (s.cred i).verifier with
    | none => none
    | some v =>
      some { range := r, generation := (s.switched c r).generation
             key := if s.receivesKey r then c.newKey r else c.rangeKey r, verifier := v }

/-- The credential record of a slot whose wrap list the switch changes (R21). -/
def State.commitCred (s : State) (c : Commit) (i : SlotId) : CredRecord :=
  { s.cred i with wraps := allRanges.filterMap (s.switchedWrap c i) }

/-- The records of the commit group (R21). -/
def State.commitRecords (s : State) (c : Commit) : List Record :=
  .range 0 (s.commitRecord c 0) ::
    ((allRanges.filter (fun r => r ≠ 0 ∧ s.rangeChanges r)).map (fun r => .range r (s.commitRecord c r)) ++
      (allSlots.filter s.slotChanges).map (fun i => .cred i (s.commitCred c i)))

/-! ### The switch (R22) -/

/-- Locked flags of a range at the switch: open where the lock is newly enabled or the range is new; held at no where no lock is
enabled (R5, R22). -/
def State.switchFlags (s old : State) (r : RangeId) : State :=
  let before := (old.range r).fields
  let after := (s.range r).fields
  let kept := old.defined r
  s.modRange r (fun e =>
    { e with readLocked := e.readLocked && kept && before.readLock && after.readLock
             writeLocked := e.writeLocked && kept && before.writeLock && after.writeLock })

/-- An affected range leaves UPDATING (R22): to ACTIVE, or to UNDEFINED when it is not defined, which also empties its entry and takes it
from the wake gate (R103). -/
def State.leaveUpdating (s : State) (r : RangeId) : State :=
  if s.defined r = false then ((s.modRange r (fun e => { e with service := .undefined })).emptyKeyOf (.range r)).ungate r
  else if s.table[r].service = .updating then s.modRange r (fun e => { e with service := .active })
  else s

/-- The Key Cache entry of a range at the switch (R22): the new key where it has an open direction, the key of a new root wrap, or LIVE
again where a direction is open. A range whose entry is EMPTY and of which the switch disables one of two closed locks has a direction
opened for which R22 loads no key: the entry stays EMPTY, although R5 has it LIVE (DESIGN CHOICE, log 44). -/
def State.switchKey (s old : State) (c : Commit) (r : RangeId) : State :=
  if old.receivesKey r then
    let emptied := s.emptyKeyOf (.range r)
    if s.table[r].service = .active ∧ s.anyOpen r then emptied.loadRange r (c.newKey r) else emptied
  else if s.table[r].service = .active then
    if old.losesLocks r then s.loadFromRoot r
    else if s.anyOpen r then s.modKey (.range r) KeyEntry.makeLive
    else s
  else s

/-- What was held against a range takes it at the switch (R20): a range that became UNDEFINED takes nothing. -/
def State.takeHeld (s : State) (p : RangeId × Held) : State :=
  if s.table[p.1].service ≠ .active then s
  else
    match p.2 with
    | .lockdown => s.lockRangeDown p.1
    | .erasing => s.eraseRange p.1

/-- RANGE-COMMIT's switch at the close of its group; `old` is the state before the close (R22). -/
def State.switch (s old : State) (c : Commit) : State :=
  let flags := forEach allRanges (fun r s => s.switchFlags old r) s
  let served := forEach c.affected (fun p s => s.leaveUpdating p.1) flags
  let keyed := forEach allRanges (fun r s => s.switchKey old c r) served
  let drained := forEach c.affected (fun p s => s.drainIfClosed p.1) keyed
  let held := forEach c.held (fun p s => s.takeHeld p) drained
  let staged := forEach allRanges (fun r s => s.restage r) held
  (staged.raise .mediaViewChanged).reply .ok (.generation staged.tableGeneration)

end Sys2Proof.Machine
end

