-- ==== Sys2Proof/Machine/Jobs.lean ====
section
/-! DEFINITION. Machine/Jobs.lean: the request executor's groups: what each request in execution submits, and when (R129, R166). -/

namespace Sys2Proof.Machine

/-- The shadow record of a SHADOW-CONFIG (R159). -/
def State.shadowConfigRecord (s : State) (enabled : Option Bool) (size : Option Nat) : ShadowRecord :=
  { s.shadowRecord with enabled := enabled.getD s.shadowRecord.enabled, size := size.getD s.shadowRecord.size }

/-- Replace the entry of a trigger (R107). -/
def TriggerTable.setEntry (t : TriggerTable) (c : TriggerChange) : TriggerTable :=
  match c.trigger with
  | .guessLimit => { t with guessLimit := c.entry }
  | .unbound => { t with unbound := c.entry }
  | .bayOpen => { t with bayOpen := c.entry }
  | .idle => { t with idle := c.entry }

/-- The trigger table of a TRIGGER-SET (R107). -/
def State.triggerSetRecord (s : State) (entry : Option TriggerChange) (gmax idleLimit : Option Nat) : TriggerTable :=
  let changed := match entry with
    | some c => s.triggers.setEntry c
    | none => s.triggers
  { changed with gmax := gmax.getD changed.gmax, idleLimit := idleLimit.getD changed.idleLimit }

/-- The records of an AUTHENTICATE's group, by its phase (R58, R60, R61, R62). -/
def State.attemptRecords (s : State) (a : Attempt) : List Record :=
  match a.phase with
  | .charging => s.chargeRecords a.slot
  | .deriving => []
  | .verdict true => s.successRecords a.slot
  | .verdict false => s.settleRecords a.slot
  | .settling => s.settleRecords a.slot

/-- The records the request in execution submits, formed now from the owners' working values (R129). Of a RANGE-COMMIT's fresh keys only
the records' contents depend, not their cells. -/
def State.jobRecords (s : State) : List Record :=
  match s.executor.job with
  | .immediate => []
  | .attempt a => s.attemptRecords a
  | .commit c => s.commitRecords c
  | .credSet j => s.credSetRecords j
  | .credPolicy i p idle => s.credPolicyRecords i p idle
  | .credState i a =>
    match (s.cred i).apply a with
    | some c => [.cred i c]
    | none => []
  | .shadowConfig enabled size => [.shadow (s.shadowConfigRecord enabled size)]
  | .triggerSet entry gmax idleLimit => [.triggers (s.triggerSetRecord entry gmax idleLimit)]
  | .lockdownClear => [.lockdown s.trigger.working]
  | .setToken token => [.token token]
  | .wrongToken => [s.wrongTokenRecord]
  | .wipe => []
  | .enrol recheck digest =>
    match digest, s.binding.freshSecret with
    | some d, some x => [.binding (s.enrolRecord recheck d x)]
    | _, _ => []

/-- A RANGE-COMMIT draws the fresh keys of its group when the group is formed (R21). -/
def State.prepareJob (s : State) : State :=
  match s.executor.job with
  | .commit c =>
    let k := State.drawKeys (allRanges.filter s.receivesKey) s
    { k.2 with executor := { s.executor with job := .commit { c with newKeys := k.1 } } }
  | _ => s

/-- The request in execution submits its group (R166). -/
def State.submitJob (s : State) : State :=
  let ready := s.prepareJob
  { ready with executor := { ready.executor with stage := .submitted } }.submit
    { submitter := .executor, records := ready.jobRecords, effects := [.request], rewrites := false, final := false }

/-- The request in execution is answered STORE_FAULT: its group has failed, or meets FAILED at its submission (R81, R85). A RANGE-COMMIT's
ranges return to their previous states (R21), and a BIND-ENROLL's fresh secret is erased (R102). -/
def State.refuseJob (s : State) : State :=
  match s.executor.job with
  | .commit _ => s.endCommit .storeFault .none
  | .enrol .. => (s.setBinding { s.binding with freshSecret := none }).reply .storeFault
  | _ => s.reply .storeFault

/-- The request in execution goes on as far as it can: it submits its group unless a key step, trim or final group that writes one of the
same cells is queued, held or writing (R129). A request that has waited and finds nothing to write is a CRED-STATE whose slot the final
group has left EMPTY; it is answered SLOT_STATE (R69), and no group without records is submitted (R76). -/
def State.advanceExecutor (s : State) : State :=
  if s.executor.stage ≠ .wanted then s
  else if s.power.part = .failsafe then s.refuseJob
  else if s.wipeRewrites (s.jobRecords.map Record.cell) then s
  else if s.jobRecords.isEmpty then s.reply .slotState (.range none)
  else s.submitJob

end Sys2Proof.Machine
end

