-- ==== Sys2Proof/Machine/Failsafe.lean ====
section
/-! DEFINITION. Machine/Failsafe.lean: what the owners do when a group fails, and the entry into FAILSAFE (R81, R85, R87, R104, R122). -/

namespace Sys2Proof.Machine

/-- Every owner of a Key Cache entry (R34). -/
def allOwners : List Owner := allRanges.map .range ++ [.shadow]

/-- The plan record of a group. -/
def Group.planOf (g : Group) : Option WipePlan :=
  g.records.findSome? (fun r => match r with
    | .plan p => some p
    | _ => none)

/-- The effect belongs to a step of an item: a trim, a key step, the end of an item or the final group. -/
def Effect.isStep : Effect → Bool
  | .trimmed _ => true
  | .keyStep .. => true
  | .itemDone _ => true
  | .finalCommit _ => true
  | _ => false

/-- The groups of the Wipe Engine that the store still keeps, in their order; after a failure, those of R87. -/
def State.keptWipeGroups (s : State) : List Group := s.store.waitingGroups.filter (fun g => g.submitter = .wipeEngine)

/-- The plan as the Wipe Engine's kept groups will leave it: the last plan record among them, or the effective plan when none is kept
(R122, log 51). -/
def State.keptPlan (s : State) : WipePlan := (s.keptWipeGroups.filterMap Group.planOf).getLast?.getD s.plan

/-- A group of the Wipe Engine has failed: the intended plan is the effective plan again, with the changes of the groups that R87 keeps,
and nothing of the failed group is expected any more (R122, R134). -/
def State.wipeFailed (s : State) : State :=
  let kept := s.keptWipeGroups
  { s with
    wipe := { s.wipe with
      intended := s.keptPlan, key := none, position := none, count := 0
      stepInFlight := kept.any (fun g => g.effects.any Effect.isStep)
      final := if kept.any Group.final then .submitted else .none }
    derivations := s.derivations.filter (fun d => d ≠ .wipeEngine) }

/-- The WIPE in execution, if that is the request, is answered STORE_FAULT (R125). -/
def State.refuseWipe (s : State) : State :=
  match s.executor.job with
  | .wipe => s.reply .storeFault
  | _ => s

/-- A submitter is told FAILED (R81 steps 2 and 4). -/
def State.groupFailed (g : Group) (s : State) : State :=
  match g.submitter with
  | .executor => if .request ∈ g.effects then s.refuseJob else s
  | .wipeEngine => if .planAccepted ∈ g.effects then s.wipeFailed.refuseWipe else s.wipeFailed
  | .triggerUnit => s

/-- Entry into FAILSAFE answers a RANGE-COMMIT in its drain wait and a BIND-ENROLL in its exchange STORE_FAULT at once (R85), and so a
BIND-ENROLL that still waits for a check to end (DESIGN CHOICE, log 69). -/
def State.refuseWaiting (s : State) : State :=
  if s.executor.stage = .working then
    match s.executor.job with
    | .commit _ => s.refuseJob
    | .enrol .. => s.refuseJob
    | _ => s
  else s

/-- The part enters FAILSAFE from a running state (R85, R104, R144). -/
def State.enterFailsafe (s : State) : State :=
  let closed := forEach allOwners (fun o s => s.drainKey o) s.endAuthority.relock
  let stopped := (closed.stopOverwrite.wipeFailed).stopExchange
  let refused := stopped.refuseWaiting
  { refused with power := { refused.power with part := .failsafe, hold := false, drained := false } }

/-- A group has failed after its restore (R81): its submitter is told, the part enters FAILSAFE with STORE_FAULT raised, and every group
queued or held is failed (R81 step 4), but for those R87 keeps. After RESET-PART the restart follows instead (R156, log 23). -/
def State.storeFailed (s : State) (g : Group) (cells : List Cell) : State :=
  let keep := s.store.wipeAccepted
  let waiting := if keep then [] else s.store.queue ++ s.store.held
  let noted := ({ s with store := s.store.fail g cells keep (s.power.part != PartState.failsafe) }).groupFailed g
  let entered := if noted.power.restarting then noted else noted.enterFailsafe
  forEach waiting State.groupFailed (entered.raise .storeFault)

end Sys2Proof.Machine
end

