-- ==== Sys2Proof/Machine/PowerOps.lean ====
section
/-! DEFINITION. Machine/PowerOps.lean: the Power Unit: start-up, RESET-PART, sleep and wake (chapters 8 and 9). -/

namespace Sys2Proof.Machine

/-! ### The shadow window (R49, R158) -/

/-- The window is presented in the given state (R155, R147, R160): the entry is loaded unless the window refuses with ERASING (R49), and
MEDIA_VIEW_CHANGED is raised. -/
def State.presentShadow (s : State) (state : ShadowState) : State :=
  let on := { s with shadow := state }
  (if s.shadowErasing then on else on.loadShadow).raise .mediaViewChanged

/-- The window is removed (R49, R158): the entry is drained and MEDIA_VIEW_CHANGED is raised. -/
def State.removeShadow (s : State) : State :=
  if s.windowPresent then (({ s with shadow := .off } : State).drainKey .shadow).raise .mediaViewChanged else s

/-! ### Start-up (R149 to R155) -/

/-- Every volatile state as it is at entry into STARTING (R48, R73, R105, R121, R137, R149, R174), with the persisted state of `store`.
The lines keep their levels. -/
def State.startVolatile (s : State) (store : Store) (cause : StartCause) (rolledBack : Bool) : State :=
  let t := { s with store := store }
  { t with
    power := { powered := true, part := .starting, stage := .charge, restarting := false, cause := cause, rollbackFound := rolledBack,
               attemptCharged := false, slp := s.power.slp, hold := false, drained := false, relocked := false }
    table := tab16 fun r => rebuiltRange r (t.range r)
    shadow := .off
    staging := tab16 fun r => { fields := (t.range r).fields, newKey := false }
    cache := tab16 fun _ => emptyKey
    shadowEntry := emptyKey
    inflight := tab32 fun _ => none
    nextSequence := 0
    lanes := tab4 fun _ => idleLane
    lastGranted := .transfer
    openAt := tab8 fun _ => 0
    authority := none
    authTimer := none
    derivations := []
    binding := restingBinding (if t.enrolled then .checking else .unenrolled)
    trigger := restingTriggerUnit s.trigger.bayLine
    wipe := restingWipe t.plan
    events := restingEvents s.trigger.bayLine
    executor := freeExecutor }

/-- The scan has sent the part to FAILSAFE (R84, R121, R151): STATUS shows the lockdown the record holds (log 33),
and a full wipe that ends there leaves it (log 79). -/
def State.scanFailed (s : State) : State :=
  ({ s with
    power := { s.power with part := .failsafe }
    trigger := { s.trigger with working := s.lockdownRecord } } : State).raise .storeFault

/-- The CHARGE stage (R152): a marker found is settled by a group; without one the stage ends at once. -/
def State.startCharge (s : State) : State :=
  match s.counters.marker with
  | some m =>
    s.submit { submitter := .executor, records := s.settleRecords m.slot, effects := [.chargeStage m.slot (s.cred m.slot).atLimit],
               rewrites := false, final := false }
  | none => { s with power := { s.power with stage := .restoreDue } }

/-- A start-up begins: the scan, then the CHARGE stage (R149, R151, R152). -/
def State.startUp (s : State) (cause : StartCause) (found : ScanFindings) : State :=
  let o := s.store.scan found
  let bare := s.startVolatile o.store cause o.rolledBack
  let rolled := if o.rolledBack then bare.raise .storeRollback else bare
  if o.failsafe then rolled.scanFailed else rolled.startCharge

/-- The CHARGE stage's group closes (R152). -/
def State.chargeClosed (s : State) (lockedOut : Bool) : State :=
  let charged := ({ s with power := { s.power with attemptCharged := true } } : State).raise .attemptCharged
  let told := (if lockedOut then charged.raise .slotLockedOut else charged).handOverG
  { told with power := { told.power with stage := .restoreDue } }

/-- RESTORE step 2 (R153, R121). -/
def State.restoreLockdown (s : State) : State :=
  if s.lockdownRecord.device = .lockdown then (s.setLockdown s.lockdownRecord).enterLockdown else s

/-- RESTORE step 3 (R153, R137). -/
def State.restoreMarks (s : State) : State :=
  let items := forEach (s.plan.items.filter (fun i => i.step ≠ .done)) (fun i s => s.markTarget i.target) s
  if s.plan.full then
    (forEach allRanges (fun r s => if s.defined r then s.markErasing r else s) items).abortOwner .shadow .erase
  else items

/-- RESTORE step 4 (R153). -/
def State.restoreKeys (s : State) : State :=
  forEach allRanges (fun r s => if s.table[r].service = .active ∧ s.anyLock r = false then s.loadFromRoot r else s) s

/-- RESTORE step 6 (R153, R109). -/
def State.restoreBay (s : State) : State :=
  if s.trigger.bayLevel = .open ∧ s.trigger.bayTaken = false then ((s.raise .bayChanged).latchOpen .open).fire .bayOpen else s

/-- RESTORE, steps 1 to 8 (R153). -/
def State.restoreStage (s : State) : State :=
  let locks := forEach allRanges (fun r s => s.closeRange r) s
  let rebuilt := locks.restoreLockdown.restoreMarks.restoreKeys.restartBackoff.restoreBay
  ({ rebuilt with power := { rebuilt.power with stage := .ended } } : State).carryOutHeld.exitDecision

/-- An assertion of SLP is taken (R139): in READY the hold is set; with the executor FREE sleep entry follows in the same event. -/
def State.takeAssertion (s : State) : State :=
  if s.power.part = .ready then { s with power := { s.power with hold := true } } else s

/-- READY (R155). With SLP asserted the part goes on to SLEEP_ENTERING before step 4 has begun a key step or an overwrite, which are steps of
their own and R140 then forbids; the final group of a full wipe whose items are all DONE is begun first (DESIGN CHOICE, log 80). -/
def State.readyStage (s : State) : State :=
  let shown :=
    if s.shadowRecord.enabled ∧ allRanges.any (fun r => s.table[r].service ≠ .undefined ∧ s.anyLock r) then s.presentShadow .on else s
  let ready := { shown with power := { shown.power with part := .ready } }
  if ready.power.slp then ready.takeAssertion else ready

/-- RESET-PART is taken (R156 steps 1 to 3): the reply has been sent. -/
def State.beginRestart (s : State) : State :=
  let ended := s.endAuthority.stopExchange
  let stopped := { ended with power := { ended.power with part := .starting, stage := .charge, restarting := true, hold := false } }
  stopped.abortAll.stopOverwrite

/-- Every lane is idle. -/
def State.lanesIdle (s : State) : Bool := allLanes.all (fun l => s.lanes[l].task.isNone)

/-- The restart is due: the last lane has reported and the store is idle (R156 step 5). -/
def State.restartDue (s : State) : Bool := s.power.restarting ∧ s.lanesIdle ∧ s.store.idle

/-! ### Sleep and wake (R139 to R148) -/

/-- Sleep entry is due: the hold is set in READY and the executor is FREE (R139), also when FRONT_RESET has just freed it (R167; DEDUCED,
log 63). -/
def State.sleepEntryDue (s : State) : Bool := s.power.part = .ready ∧ s.power.hold ∧ s.executor.status = .free

/-- Entry into SLEEP_ENTERING (R140). -/
def State.enterSleep (s : State) : State :=
  { s.endAuthority with
    power := { s.power with part := .sleepEntering, hold := false, drained := false, relocked := false }
    shadow := if s.shadow = .loading then .on else s.shadow
    wipe := { s.wipe with asked := false } }

/-- The drain of sleep entry is complete (R142). -/
def State.drainComplete (s : State) : Bool := allTags.all (fun t => s.inflight[t].isNone) ∧ s.lanesIdle

/-- The sleep DROP is due (R142). -/
def State.sleepDropDue (s : State) : Bool := s.power.part = .sleepEntering ∧ s.power.drained = false ∧ s.drainComplete

/-- The sleep DROP is applied and the drain mark set (R142). -/
def State.applySleepDrop (s : State) : State :=
  let dropped := noteRelocked State.sleepDropAll s
  { dropped with power := { dropped.power with drained := true } }

/-- The part is ready to go ASLEEP (R143). -/
def State.sleepReadyDue (s : State) : Bool := s.power.part = .sleepEntering ∧ s.power.drained ∧ s.store.idle

/-- The part goes ASLEEP (R143). -/
def State.goAsleep (s : State) : State :=
  let raised := s.raise .sleepReady
  ({ raised with power := { raised.power with part := .asleep } } : State).abandonCheck

/-- A release of SLP takes the part back from SLEEP_ENTERING (R145). -/
def State.leaveSleepEntry (s : State) : State :=
  ({ s with power := { s.power with part := .ready, drained := false, relocked := false } } : State).resumeOverwrite

/-- The gate and the check of a wake (R147 step 2, R103). -/
def State.wakeGate (s : State) : State :=
  if s.enrolled then
    let gated := s.setBinding { s.binding with
      gated := allRanges.filter (fun r => (s.range r).fields.sleep = .hold ∧ s.anyLock r) }
    gated.startCheck s.binding.state
  else s.setBinding { s.binding with gated := [] }

/-- The shadow at a wake (R147 step 3). -/
def State.wakeShadow (s : State) : State :=
  if s.shadowRecord.enabled ∧ s.shadow = .off ∧ s.power.relocked then s.presentShadow .on else s

/-- The part wakes (R147). -/
def State.wake (s : State) : State :=
  let shown := s.restartBackoff.wakeGate.wakeShadow
  ({ shown with power := { shown.power with part := .ready, drained := false, relocked := false } } : State).resumeOverwrite

end Sys2Proof.Machine
end

