-- ==== Sys2Proof/Machine/Close.lean ====
section
/-! DEFINITION. Machine/Close.lean: what the owners do at the close of a commit group (R77 step 3). -/

namespace Sys2Proof.Machine

/-! ### Requests -/

/-- The group of a SHADOW-CONFIG closes; `old` is the state before (R159). -/
def State.shadowConfigClosed (s old : State) (enabled : Option Bool) (size : Option Nat) : State :=
  let removed := if enabled = some false then s.removeShadow else s
  let resized :=
    if size.isSome ∧ s.shadowRecord.size ≠ old.shadowRecord.size ∧ removed.windowPresent then removed.raise .mediaViewChanged
    else removed
  resized.reply .ok (.shadowConfig s.shadowRecord.enabled s.shadowRecord.size)

/-- The group of a TRIGGER-SET closes (R107): a new idle limit restarts the idle timer, and the exit decision is made again. -/
def State.triggerSetClosed (s : State) (idleLimit : Option Nat) : State :=
  let timed := if idleLimit.isSome then { s with trigger := { s.trigger with idle := .stopped } } else s
  (timed.reply .ok (.triggers s.triggers)).exitDecision

/-- The counters group of a wrong wipe token closes (R124). -/
def State.wrongTokenClosed (s : State) : State := s.handOverG.reply .failed (.failed none none)

/-- The group of the request in execution closes; `old` is the state before. -/
def State.requestClosed (s old : State) : State :=
  match s.executor.job with
  | .immediate => s
  | .attempt a => s.attemptClosed old a
  | .commit c => s.switch old c
  | .credSet j => s.credSetClosed j
  | .credPolicy i _ _ => s.credPolicyClosed old i
  | .credState i a => s.credStateClosed i a
  | .shadowConfig enabled size => s.shadowConfigClosed old enabled size
  | .triggerSet _ _ idleLimit => s.triggerSetClosed idleLimit
  | .lockdownClear => s.reply .ok
  | .setToken _ => s.reply .ok
  | .wrongToken => s.wrongTokenClosed
  | .wipe => s
  | .enrol _ (some digest) => s.enrolClosed digest
  | .enrol _ none => s

/-! ### The Wipe Engine -/

/-- The plan group of the WIPE in execution closes (R125). -/
def State.planClosed (s : State) : State :=
  match s.executor.job with
  | .wipe => s.reply .ok (.items s.plan.items.length)
  | _ => s

/-- Nothing of the current item's overwrite is held: no key, no position, count 0. -/
def State.clearItem (s : State) : State :=
  s.setWipe { s.wipe with key := none, position := none, count := 0, asked := false, overwriting := false, stepInFlight := false }

/-- A trim group closes (R127, R14). -/
def State.trimClosed (s : State) (r : RangeId) : State := (s.restage r).setWipe { s.wipe with stepInFlight := false }

/-- The work of a request without the key of a range that it had in hand (R127): a RANGE-COMMIT and a CRED-SET hold such keys (logs 25,
46). -/
def Job.forgetKey (r : RangeId) : Job → Job
  | .commit c => .commit { c with keys := c.keys.filter (fun p => p.1 ≠ r) }
  | .credSet j => .credSet { j with keys := j.keys.filter (fun p => p.1 ≠ r) }
  | j => j

/-- The request in execution no longer holds the old key of a range (R127). -/
def State.forgetKey (s : State) (r : RangeId) : State := { s with executor := { s.executor with job := s.executor.job.forgetKey r } }

/-- A key step group closes (R127, R128): the target's entry stays EMPTY, flags open, staging follows, the new key is kept for the
overwrite, and the old key is gone from the Key Cache, from the Wipe Engine and from the request in execution. -/
def State.keyStepClosed (s : State) (t : Owner) (key : Key) : State :=
  let cleared := s.clearItem.emptyKeyOf t
  let kept := cleared.setWipe { cleared.wipe with key := some key }
  match t with
  | .shadow => kept
  | .range r => ((kept.modRange r (fun e => { e with readLocked := false, writeLocked := false })).restage r).forgetKey r

/-- A range whose item is DONE leaves ERASING (R132): to ACTIVE with its new key LIVE, or to LOCKDOWN on a device in LOCKDOWN. -/
def State.leaveErasing (s : State) (r : RangeId) : State :=
  if s.table[r].service ≠ .erasing then s
  else if s.inLockdown then s.modRange r (fun e => { e with service := .lockdown, inForce := (s.range r).fields.response })
  else (s.modRange r (fun e => { e with service := .active, readLocked := false, writeLocked := false })).loadFromRoot r

/-- The intended plan holds the target's item back at KEYS_DESTROYED, because an overwrite flag was set before its key step closed
(R125, log 26). -/
def State.reopened (s : State) (t : Owner) : Bool := (s.wipe.intended.item t).any (fun i => i.step = .keysDestroyed)

/-- An item becomes DONE (R132). Its target stays out of use with the full-wipe flag set, in the plan or in an accepted one, and when the
target has been accepted anew behind this group (R125); an item that is overwritten after all goes on with its key. -/
def State.itemDone (s : State) (t : Owner) : State :=
  let cleared := s.clearItem
  if s.reopened t then s
  else if s.plan.full ∨ s.wipe.intended.full ∨ s.wipe.intended.unfinished t then cleared
  else
    match t with
    | .range r => cleared.leaveErasing r
    | .shadow => if cleared.windowPresent then cleared.loadShadow else cleared

/-- Place of a step in the order in which an item passes them (R122). -/
def ItemStep.rank : ItemStep → Nat
  | .pending => 0
  | .keysDestroyed => 1
  | .overwriting => 2
  | .done => 3

/-- Some item's step advanced between two plans (R123); an item that left the plan with it became DONE (R133, log 39). An item that a held
group, merged with a later acceptance, takes back to PENDING has not advanced (DEDUCED, log 62). -/
def stepAdvanced (old new : WipePlan) : Bool :=
  old.items.any (fun i => match new.item i.target with
    | some j => i.step.rank < j.step.rank
    | none => i.step ≠ .done)

/-! ### The final group of a full wipe (R134) -/

/-- The Range Table and the Key Cache after a full wipe (R134). Range 0 is ACTIVE and LIVE from here even where a WIPE accepted while the
final group was under way holds it as a new item (DESIGN CHOICE, log 60). A range that a RANGE-COMMIT has created while the full wipe went
on, its item DONE since it was UNDEFINED, can have transfers here, which R134 rules out: its entry is emptied with its count standing, and
they go on under an unstated key (DESIGN CHOICE, log 75). -/
def State.factoryTable (s : State) (key : Key) : State :=
  { s with
    table := tab16 fun r => rebuiltRange r (s.range r)
    staging := tab16 fun r => { fields := (s.range r).fields, newKey := false }
    cache := tab16 fun r => if r = 0 then s.cache[r].erase.load key (some (s.range 0).generation) else s.cache[r].erase
    shadow := .off
    shadowEntry := s.shadowEntry.erase
    openAt := tab8 fun i => if i = 0 then s.clock else 0 }

/-- The Binding Unit at the final commit (R104). -/
def State.factoryBinding (s : State) : State :=
  let b := match s.binding.exchange with
    | .enrol _ => s.binding
    | _ => { s.binding with exchange := .none, reference := none, challenge := none, firstHalf := none }
  let set := s.setBinding { b with state := .unenrolled, rounds := 0, gated := [], recheck := none }
  if s.binding.state = .unenrolled then set else set.raise .bindingChanged

/-- The Trigger Unit at the final commit (R120). A part that the scan sent to FAILSAFE with a record holding LOCKDOWN counts as in LOCKDOWN
here, so LOCKDOWN_LEFT is raised (DESIGN CHOICE, log 79). -/
def State.factoryLockdown (s : State) : State :=
  if s.inLockdown then (s.setLockdown manufacturedLockdown).raise .lockdownLeft else s

/-- The Wipe Engine at the final commit: the plan has ended (R133). -/
def State.factoryWipe (s : State) : State := s.clearItem.setWipe { s.clearItem.wipe with final := .none }

/-- An AUTHENTICATE whose verdict commit is not submitted is discarded with SLOT_STATE (R59, log 36). -/
def State.discardAttempt (s : State) : State :=
  match s.executor.job with
  | .attempt _ =>
    if s.executor.stage = .submitted then s
    else ({ s with derivations := s.derivations.filter (fun d => d ≠ .executor) } : State).reply .slotState (.range none)
  | _ => s

/-- Every failed cell has been written by a closed group since FAILSAFE was entered (R86), the marker cell by any of them (log 56). -/
def State.repaired (s : State) : Bool :=
  s.power.part = .failsafe ∧ s.store.failed.all (fun c => c ∈ s.store.writtenSince)

/-- The start-up that follows the repair of FAILSAFE (R86) restarts at once (R156). Where a WIPE accepted behind the final group still
executes, it begins as RESET-PART does: the store writes what is held, the close answers the request, and the restart follows from a FREE
executor (R88, R162, R164; DESIGN CHOICE, log 57). -/
def State.restartRepaired (s : State) (found : ScanFindings) : State :=
  let stopped := s.beginRestart
  if stopped.restartDue then stopped.startUp .partReset found else stopped

/-- The final group closes (R134), with the repair check of R86. -/
def State.finalClosed (s : State) (key : Key) (found : ScanFindings) : State :=
  let ended := s.revokeAuthority
  let factory := (ended.factoryTable key).factoryBinding.factoryLockdown.factoryWipe
  let raised := (factory.raise .wipeComplete).raise .mediaViewChanged
  let settled := raised.discardAttempt
  if settled.repaired then settled.restartRepaired found else settled

/-! ### The close -/

/-- One effect of a group's close; `old` is the state before it. -/
def State.closeEffect (s old : State) (found : ScanFindings) : Effect → State
  | .request => s.requestClosed old
  | .chargeStage _ lockedOut => s.chargeClosed lockedOut
  | .lockdownRecord => s
  | .planAccepted => s.planClosed
  | .trimmed r => s.trimClosed r
  | .keyStep t key => s.keyStepClosed t key
  | .cursor => s.raise .wipeStepDone
  | .itemDone t => s.itemDone t
  | .planEnded t => if s.reopened t then s else s.raise .wipeComplete
  | .finalCommit key => s.finalClosed key found

/-- The close of the writing group (R77 step 3): its copies become effective, WIPE_STEP_DONE is raised for an advance (R123), as it is
at the close of every cursor group, the owners take their effects, and the Trigger Unit compares the lockdown record (R117). -/
def State.closeGroup (s : State) (w : Writing) (found : ScanFindings) : State :=
  let closed := { s with store := s.store.close w }
  let stepped := if stepAdvanced s.plan closed.plan then closed.raise .wipeStepDone else closed
  let after := forEach w.group.effects (fun e t => t.closeEffect s found e) stepped
  if Cell.lockdown ∈ w.group.cells then after.compareRecord else after

end Sys2Proof.Machine
end

