-- ==== Sys2Proof/Machine/Settle.lean ====
section
/-! DEFINITION. Machine/Settle.lean: what comes about in the same event as the change that calls for it (R19, R39, R129, R139, R142, R143,
R177, the timers' running conditions); its order is log 3. -/

namespace Sys2Proof.Machine

/-! ### The lane arbiter (R39, R40) -/

/-- Index of the head segment of a transfer that waits (R39): RUNNING, nothing in a lane, the first unfinished segment WAITING. -/
def Transfer.head (x : Transfer) : Option Nat :=
  if x.state = .running ∧ x.inLane = false then
    match x.segments.findIdx? (fun g => g.step ≠ .finished) with
    | some i =>
      match x.segments[i]? with
      | some g => if g.step = .waiting then some i else none
      | none => none
    | none => none
  else none

/-- Of two tags that wait, the one admitted earlier (R39). -/
def State.earlier (s : State) (best : Option (Tag × Nat × Nat)) (t : Tag) : Option (Tag × Nat × Nat) :=
  match s.inflight[t] with
  | none => best
  | some x =>
    match x.head with
    | none => best
    | some i =>
      match best with
      | none => some (t, i, x.sequence)
      | some b => if x.sequence < b.2.2 then some (t, i, x.sequence) else best

/-- The tag and head segment that the transfer side grants next (R39). -/
def State.nextTransfer (s : State) : Option (Tag × Nat) :=
  (allTags.foldl s.earlier none).map (fun b => (b.1, b.2.1))

/-- The wipe side waits (R40). -/
def State.wipeWaits (s : State) : Bool := s.wipe.asked ∧ s.overwriteLane = none

/-- A grant to the transfer side (R39). -/
def State.grantTransfer (s : State) (l : LaneId) (t : Tag) (i : Nat) : State :=
  match s.inflight[t] with
  | none => s
  | some x =>
    let marked := (s.setTransfer t (some (x.modSegment i (fun g => { g with step := .inLane })))).setLane l
      { idleLane with task := some (.transfer t i) }
    ({ marked with lastGranted := .transfer } : State).fillLane l

/-- A grant to the wipe side (R40): the overwrite segment is formed and starts in the lane (R130). -/
def State.grantWipe (s : State) (l : LaneId) : State :=
  match s.overwriteTarget with
  | none => s.setWipe { s.wipe with asked := false }
  | some t =>
    match s.extentNext t s.position with
    | none => s
    | some p =>
      let placed := s.setWipe { s.wipe with position := some p, asked := false, overwriting := true }
      ({ placed.setLane l { idleLane with task := some (.overwrite p (placed.segmentLength t p) 0) } with
          lastGranted := .wipe } : State).fillOverwrite l

/-- One idle lane is handed to waiting work (R39, R40). -/
def State.grantLane (s : State) (l : LaneId) : State :=
  if s.lanes[l].task.isSome then s
  else
    match s.nextTransfer with
    | some (t, i) => if s.wipeWaits ∧ s.lastGranted = .transfer then s.grantWipe l else s.grantTransfer l t i
    | none => if s.wipeWaits then s.grantWipe l else s

/-- The idle lanes are handed out in turn (R40), the lowest numbered first: R40 numbers no lane (DESIGN CHOICE, log 55). -/
def State.grantLanes (s : State) : State := forEach allLanes (fun l s => s.grantLane l) s

/-! ### The request executor -/

/-- A BIND-ENROLL that has waited for a check begins its exchange (R101). A check that the final commit of a full wipe abandons (R104) ends
the wait like a check that ends under R98 (DESIGN CHOICE, log 59). -/
def State.advanceEnrolment (s : State) : State :=
  match s.executor.job with
  | .enrol _ none =>
    if s.executor.stage = .working ∧ s.executor.status = .executing ∧ s.binding.exchange = .none then s.startEnrolment else s
  | _ => s

/-! ### Timers -/

/-- The condition under which the trigger idle timer runs (R110). -/
def State.idleRuns (s : State) : Bool :=
  s.power.part = .ready ∧ s.triggers.idleLimit ≠ 0 ∧ s.inLockdown = false ∧ allRanges.any s.openEnabled

/-- The trigger idle timer follows its running condition (R110). -/
def State.tendIdle (s : State) : State :=
  if s.idleRuns then
    match s.trigger.idle with
    | .stopped => { s with trigger := { s.trigger with idle := .running s.clock } }
    | .running _ => s
    | .expired => s
  else { s with trigger := { s.trigger with idle := .stopped } }

/-- The recheck timer follows its running condition (R99). -/
def State.tendRecheck (s : State) : State :=
  if s.recheckRuns then
    match s.binding.recheck with
    | none => s.setBinding { s.binding with recheck := some s.clock }
    | some _ => s
  else s.setBinding { s.binding with recheck := none }

/-- The authority idle timer runs while authority is held and the executor is FREE (R71). -/
def State.tendAuthority (s : State) : State :=
  if s.authority.isSome ∧ s.executor.status = .free then
    match s.authTimer with
    | none => { s with authTimer := some s.clock }
    | some _ => s
  else { s with authTimer := none }

/-! ### All together -/

/-- Sleep entry, its DROP and its end, each taken in the event that makes it due (R139, R142, R143). -/
def State.advanceSleep (s : State) : State :=
  let entered := if s.sleepEntryDue then s.enterSleep else s
  let dropped := if entered.sleepDropDue then entered.applySleepDrop else entered
  if dropped.sleepReadyDue then dropped.goAsleep else dropped

/-- The consequences that fall in the same event (log 3). -/
def settle (s : State) : State :=
  let worked := s.endDrainWait.advanceEnrolment.advanceExecutor.advanceWipe.grantLanes
  settleAlert worked.advanceSleep.advanceWipe.tendIdle.tendRecheck.tendAuthority

/-- A command's effect on a part with power, with what falls in the same event; a part without power takes none (log 5). -/
def State.whilePowered (s : State) (f : State → State) : State := if s.power.powered then settle (f s) else s

end Sys2Proof.Machine
end

