-- ==== Sys2Proof/Machine/Admission.lean ====
section
/-! DEFINITION. Machine/Admission.lean: the split, the dispositions and the admission of a transfer (R24 to R29), CANCEL (R43) and
FRONT_RESET (R46, R47, R62, R167). -/

namespace Sys2Proof.Machine

/-! ### Split and dispositions (R26 to R28) -/

/-- The owner of a block (R26). -/
def State.ownerOf (s : State) (x : Nat) : Owner :=
  if s.windowPresent ∧ x < s.shadowRecord.size then .shadow
  else
    match s.definedOwner x with
    | some r => .range r
    | none => .range 0

/-- A run of consecutive blocks with one owner. -/
structure Run where
  owner : Owner
  first : Nat
  count : Nat
deriving DecidableEq, Repr

/-- A block joins the runs behind it: the first of them when it has the same owner, otherwise as a run of its own. -/
def joinRun (o : Owner) (a : Nat) : List Run → List Run
  | [] => [{ owner := o, first := a, count := 1 }]
  | r :: rest =>
    if r.owner = o then { owner := o, first := a, count := r.count + 1 } :: rest
    else { owner := o, first := a, count := 1 } :: r :: rest

/-- The split of the blocks from `a` on into maximal runs of one owner (R26). -/
def State.split (s : State) : Nat → Nat → List Run
  | _, 0 => []
  | a, n + 1 => joinRun (s.ownerOf a) a (s.split (a + 1) n)

/-- What a segment is given: a disposition, or a reason to refuse. -/
abbrev Treatment := Except RefuseReason Disposition

/-- The wake gate refuses the range, or nothing is in the way (last two rows of R27 and R28). -/
def State.gateTreatment (s : State) (r : RangeId) : Treatment :=
  if (s.range r).fields.sleep = .hold ∧ r ∈ s.binding.gated then .error .bindingPending else .ok .cipher

/-- The disposition of a segment of a READ (R27). -/
def State.readTreatment (s : State) : Owner → Treatment
  | .shadow => if s.shadowErasing then .error .erasing else .ok .shadow
  | .range r =>
    match s.table[r].service with
    | .erasing => .error .erasing
    | .updating => .error .rangeUpdating
    | .lockdown =>
      match s.table[r].inForce with
      | .close => .error .lockdown
      | .hide => .ok .zero
    | _ =>
      if s.readClosed r then
        match (s.range r).fields.lockedRead with
        | .zero => .ok .zero
        | .refuse => .error .locked
      else s.gateTreatment r

/-- The disposition of a segment of a WRITE (R28). -/
def State.writeTreatment (s : State) : Owner → Treatment
  | .shadow =>
    if s.shadowErasing then .error .erasing
    else if s.shadow = .loading then .ok .shadow
    else .error .locked
  | .range r =>
    match s.table[r].service with
    | .erasing => .error .erasing
    | .updating => .error .rangeUpdating
    | .lockdown => .error .lockdown
    | _ => if s.writeClosed r then .error .locked else s.gateTreatment r

/-- The disposition of a segment by the direction of its transfer. -/
def State.treatment (s : State) (d : Direction) (o : Owner) : Treatment :=
  match d with
  | .read => s.readTreatment o
  | .write => s.writeTreatment o

/-- The values recorded in a CIPHER segment of a range (R30). -/
def State.recordedTweak (s : State) (r : RangeId) : TweakBase :=
  { k := s.unitsPerBlock (s.range r).fields, base := if r = 0 then 0 else (s.range r).fields.start
    origin := (s.range r).tweakOrigin }

/-- The segment of a run under a disposition (R29, R33). -/
def State.segmentOf (s : State) (r : Run) (d : Disposition) : Segment :=
  { owner := r.owner, first := r.first, count := r.count, disposition := d
    tweak := match d, r.owner with
      | .cipher, .range q => some (s.recordedTweak q)
      | _, _ => none
    keyRef := match d with
      | .zero => none
      | _ => some r.owner
    progress := 0, step := .waiting }

/-- The first refusing run in LBA order, with its reason (R29). -/
def State.firstRefusal (s : State) (d : Direction) : List Run → Option (RefuseReason × Owner)
  | [] => none
  | r :: rest =>
    match s.treatment d r.owner with
    | .error reason => some (reason, r.owner)
    | .ok _ => s.firstRefusal d rest

/-- The segments of a transfer, in LBA order (R26, R29). -/
def State.segmentsOf (s : State) (d : Direction) : List Run → List Segment
  | [] => []
  | r :: rest =>
    match s.treatment d r.owner with
    | .error _ => s.segmentsOf d rest
    | .ok disposition => s.segmentOf r disposition :: s.segmentsOf d rest

/-! ### Admission (R24, R25, R29) -/

/-- The direction of its code (R171). -/
def directionOf (b : Byte) : Option Direction :=
  if b = 0x01 then some .read else if b = 0x02 then some .write else none

/-- The tag of its byte; none above 31 (R25 check 1, R43). -/
def tagOf (b : Byte) : Option Tag := if h : b.toNat < 32 then some ⟨b.toNat, h⟩ else none

/-- The refusal by part state (R25 check 2). -/
def admitPartRefusal : PartState → Option RefuseReason
  | .ready => none
  | .starting => some .starting
  | .sleepEntering => some .asleep
  | .asleep => some .asleep
  | .failsafe => some .storeFault

/-- The transfer takes a reference on each owner its segments name (R29). -/
def State.addRefs (s : State) (l : List Owner) : State := forEach l (fun o s => s.modKey o KeyEntry.addRef) s

/-- The transfer is admitted (R29). A CIPHER segment takes its reference also on an EMPTY entry, which a range with exactly one lock enabled
can have while it is open (log 44). -/
def State.admitSegments (s : State) (t : Tag) (d : Direction) (a n : Nat) (segments : List Segment) : State :=
  let entry : Transfer :=
    { direction := d, start := a, count := n, generation := s.tableGeneration, sequence := s.nextSequence, segments := segments,
      state := .running, abortReason := none, failingLba := none }
  let admitted := (({ s with nextSequence := s.nextSequence + 1 } : State).setTransfer t (some entry)).addRefs entry.refs
  (admitted.restartIdle).say (.admitted (BitVec.ofNat 8 t.val) segments.length s.tableGeneration)

/-- Checks 3 to 5 of R25, and the admission. -/
def State.admitTransfer (s : State) (tag : Byte) (t : Tag) (d : Direction) (a n : Nat) : State :=
  if s.inflight[t].isSome then s.say (.refused tag .tagBusy none)
  else if s.profile.capacity < a + n then s.say (.refused tag .outOfRange none)
  else
    let runs := s.split a n
    match s.firstRefusal d runs with
    | some (reason, owner) => s.say (.refused tag reason (some owner))
    | none => s.admitSegments t d a n (s.segmentsOf d runs)

/-- ADMIT (R25). -/
def State.takeAdmit (s : State) (tag direction : Byte) (a n : Nat) : State :=
  match tagOf tag, directionOf direction with
  | some t, some d =>
    match admitPartRefusal s.power.part with
    | some reason => s.say (.refused tag reason none)
    | none => s.admitTransfer tag t d a n
  | _, _ => s.say (.refused tag .badDescriptor none)

/-! ### CANCEL (R43) -/

/-- CANCEL of a RUNNING transfer (R43): its WAITING segments are discarded; it goes to CANCELLING behind the segment in a lane, or reaches
CANCELLED. -/
def State.cancelRunning (s : State) (t : Tag) (x : Transfer) : State :=
  let discarded := s.discardWaiting t
  if x.inLane then
    match discarded.inflight[t] with
    | some y => discarded.setTransfer t (some { y with state := .cancelling })
    | none => discarded
  else discarded.endTransfer t .cancelled

/-- CANCEL (R43). The reply is sent when the CANCEL is taken. -/
def State.cancel (s : State) (tag : Byte) : State :=
  match tagOf tag with
  | none => s.say (.cancelReply tag false)
  | some t =>
    match s.inflight[t] with
    | none => s.say (.cancelReply tag false)
    | some x =>
      let answered := s.say (.cancelReply tag true)
      if x.state = .running then answered.cancelRunning t x else answered

/-! ### FRONT_RESET -/

/-- The owner of a segment that writes, which a lane remembers when FRONT_RESET clears its transfer (R130). -/
def State.clearedWrite (s : State) (t : Tag) (i : Nat) : Option Owner :=
  match s.inflight[t] with
  | none => none
  | some x => if x.direction = .write then (x.segments[i]?).map (·.owner) else none

/-- A lane that works a transfer segment is told to stop, and its report reaches no transfer (R46 step 3). -/
def State.clearLane (s : State) (l : LaneId) : State :=
  match s.lanes[l].task with
  | some (.transfer t i) =>
    (s.setLane l { idleLane with task := some (.cleared (s.clearedWrite t i)), issued := s.lanes[l].issued, stopping := true }).reportIfStopped l
  | _ => s

/-- The in-flight table is cleared, its lanes are told to stop, and every reference is released (R46, R47). -/
def State.clearTransfers (s : State) : State :=
  let stopped := forEach allLanes (fun l s => s.clearLane l) s
  forEach allOwners (fun o s => s.modKey o KeyEntry.clearRefs) { stopped with inflight := tab32 fun _ => none }

/-- The request in execution is abandoned with nothing of it in progress: the executor is FREE at once (R167). -/
def State.freeAbandoned (s : State) : State := { s with executor := freeExecutor }

/-- The request in execution is abandoned with work in progress (R167). -/
def State.markAbandoned (s : State) : State := { s with executor := { s.executor with status := .abandoned } }

/-- A derivation of the executor stops, or does not start (R62, R66). -/
def State.dropDerivation (s : State) : State := { s with derivations := s.derivations.filter (fun d => d ≠ .executor) }

/-- An AUTHENTICATE is abandoned (R62): settled as failed from this moment when its charge is submitted or closed, carried to its verdict
commit after the verdict time. A charge that still waits under R129 is neither queued, written nor submitted, the cases of R62 and R167: the
attempt is dropped uncounted and the executor is FREE (DEDUCED, log 77). -/
def State.abandonAttempt (s : State) (a : Attempt) : State :=
  match a.phase with
  | .charging =>
    if s.executor.stage = .submitted then
      s.markAbandoned.attemptGoesOn { a with settledAt := s.clock } .charging .submitted
    else s.freeAbandoned
  | .deriving => s.dropDerivation.markAbandoned.attemptGoesOn { a with settledAt := s.clock } .settling .wanted
  | .verdict _ => s.markAbandoned
  | .settling => s.markAbandoned

/-- The request in execution is abandoned by FRONT_RESET (R167). One whose group waits under R129 has submitted nothing and is dropped: an
AUTHENTICATE before its charge (DEDUCED, log 77), a CRED-SET (log 40), and a BIND-ENROLL past ENROL 2, whose secret is erased (DEDUCED,
log 52). The counters group of a wrong wipe token is carried to its close also where it waits so: the executor stays ABANDONED until it has
been submitted and has closed (DEDUCED, log 81). -/
def State.abandonRequest (s : State) : State :=
  if s.executor.status ≠ .executing then s
  else
    match s.executor.job with
    | .attempt a => s.abandonAttempt a
    | .commit _ => s.markAbandoned
    | .wrongToken => s.markAbandoned
    | .credSet _ => if s.executor.stage = .submitted then s.markAbandoned else s.dropDerivation.freeAbandoned
    | .enrol .. =>
      if s.executor.stage = .submitted then s.markAbandoned
      else (s.abandonEnrolment.setBinding { s.abandonEnrolment.binding with freshSecret := none }).freeAbandoned
    | _ => if s.executor.stage = .submitted then s.markAbandoned else s.freeAbandoned

/-- FRONT_RESET at every block it reaches (R46, R47, R72, R110, R131, R167). -/
def State.frontReset (s : State) : State :=
  (s.clearTransfers.restartOverwrite.endAuthority.restartIdle).abandonRequest

end Sys2Proof.Machine
end

