-- ==== Sys2Proof/Machine/TransferPort.lean ====
section
/-! DEFINITION. Machine/TransferPort.lean: the meanings of ADMIT, CANCEL, FRONT_RESET, MEDIA_ACKNOWLEDGE and MEDIA_ERROR. -/

namespace Sys2Proof.Machine

/-- ADMIT (R24 to R33): the count field carries n − 1. -/
def execAdmit (tag direction : Byte) (start : BitVec 40) (countLessOne : BitVec 16) (s : State) : Host.Outcome State Fault Refusal :=
  .next (s.whilePowered fun s => s.takeAdmit tag direction start.toNat (countLessOne.toNat + 1))

/-- CANCEL (R43, R44). -/
def execCancel (tag : Byte) (s : State) : Host.Outcome State Fault Refusal := .next (s.whilePowered fun s => s.cancel tag)

/-- FRONT_RESET (R46, R47, R167). -/
def execFrontReset (s : State) : Host.Outcome State Fault Refusal := .next (s.whilePowered State.frontReset)

/-- A lane receives an answer of the media controller, or delivers a read block (R38). -/
def State.laneReceives (s : State) (l : LaneId) (e : LaneEvent) : State :=
  match s.lanes[l].task, e with
  | some (.transfer t i), .answer data => s.answerTransfer l t i data
  | some (.transfer t i), .delivered => s.deliverTransfer l t i
  | some (.cleared _), .answer _ => s.answerCleared l
  | some (.overwrite first count progress), .answer _ => s.answerOverwrite l first count progress
  | some (.cleared _), .delivered => s
  | some (.overwrite ..), .delivered => s
  | none, _ => s

/-- MEDIA_ACKNOWLEDGE (R38, R41, R45, R131). -/
def execMediaAcknowledge (lane : LaneId) (event : LaneEvent) (s : State) : Host.Outcome State Fault Refusal :=
  .next (s.whilePowered fun s => s.laneReceives lane event)

/-- A lane receives a media error for a block (R42, R131). -/
def State.laneFails (s : State) (l : LaneId) (block : Nat) : State :=
  match s.lanes[l].task with
  | some (.transfer t i) => s.errorTransfer l t i block
  | some (.cleared _) => if s.lanes[l].issued.head? = some block then s.answerCleared l else s
  | some (.overwrite first _ _) => s.errorOverwrite l first block
  | none => s

/-- MEDIA_ERROR (R42, R131). -/
def execMediaError (lane : LaneId) (block : Nat) (s : State) : Host.Outcome State Fault Refusal :=
  .next (s.whilePowered fun s => s.laneFails lane block)

end Sys2Proof.Machine
end

