-- ==== Sys2Proof/Machine/PowerUnit.lean ====
section
/-! DEFINITION. Machine/PowerUnit.lean: the meanings of POWER_ON, POWER_LOSS, RESTORE, PART_RESTART and the SLP and sleep rows. -/

namespace Sys2Proof.Machine

/-- POWER_ON (R149 to R152); on a part that has power it changes nothing (log 5). -/
def execPowerOn (scan : ScanFindings) (s : State) : Host.Outcome State Fault Refusal :=
  .next (if s.power.powered then s else settle (s.startUp .powerOn scan))

/-- Power is lost: every volatile state is gone, and the store keeps its cells (R88, R89, R157). -/
def State.losePower (s : State) (midWrite : Bool) : State :=
  let bare := s.startVolatile (s.store.powerLoss midWrite) .powerOn false
  { bare with power := { bare.power with powered := false } }

/-- POWER_LOSS (R89, R157). -/
def execPowerLoss (midWrite : Bool) (s : State) : Host.Outcome State Fault Refusal :=
  .next (if s.power.powered then s.losePower midWrite else s)

/-- RESTORE is due: STARTING, with the CHARGE stage ended (R153). -/
def State.restoreIsDue (s : State) : Bool :=
  s.power.part = .starting ∧ s.power.stage = .restoreDue ∧ s.power.restarting = false

/-- RESTORE, BIND and READY (R153 to R155). -/
def execRestore (s : State) : Host.Outcome State Fault Refusal :=
  .next (s.whilePowered fun s => if s.restoreIsDue then ((s.restoreStage).startCheck .bound).readyStage else s)

/-- PART_RESTART (R156 step 5, R149). -/
def execPartRestart (scan : ScanFindings) (s : State) : Host.Outcome State Fault Refusal :=
  .next (s.whilePowered fun s => if s.restartDue then s.startUp .partReset scan else s)

/-- SLP_ASSERTED (R138, R139): the level is recorded; in READY it is taken as an assertion. -/
def execSlpAsserted (s : State) : Host.Outcome State Fault Refusal :=
  let level := { s with power := { s.power with slp := true } }
  .next (if s.power.slp then s else if s.power.powered then settle level.takeAssertion else level)

/-- SLEEP_ENTRY (R140). -/
def execSleepEntry (s : State) : Host.Outcome State Fault Refusal :=
  .next (s.whilePowered fun s => if s.sleepEntryDue then s.enterSleep else s)

/-- SLEEP_DROP (R142). -/
def execSleepDrop (s : State) : Host.Outcome State Fault Refusal :=
  .next (s.whilePowered fun s => if s.sleepDropDue then s.applySleepDrop else s)

/-- SLEEP_READY (R143). -/
def execSleepReady (s : State) : Host.Outcome State Fault Refusal :=
  .next (s.whilePowered fun s => if s.sleepReadyDue then s.goAsleep else s)

/-- A release of SLP is taken, by part state (R145, R147). -/
def State.takeRelease (s : State) : State :=
  match s.power.part with
  | .ready => { s with power := { s.power with hold := false } }
  | .sleepEntering => s.leaveSleepEntry
  | .asleep => s.wake
  | .starting => s
  | .failsafe => s

/-- SLP_RELEASED (R138, R145, R147). -/
def execSlpReleased (s : State) : Host.Outcome State Fault Refusal :=
  let level := { s with power := { s.power with slp := false } }
  .next (if s.power.slp = false then s else if s.power.powered then settle level.takeRelease else level)

end Sys2Proof.Machine
end

