-- ==== Sys2Proof/Machine/StoreSteps.lean ====
section
/-! DEFINITION. Machine/StoreSteps.lean: the meanings of COPY_WRITE_DONE and GROUP_CLOSE. -/

namespace Sys2Proof.Machine

/-- One write of the writing group has been made and read back (R77, R81). -/
def State.copyWriteDone (s : State) (passed : Bool) : State :=
  match s.store.writeDone passed with
  | .going st => { s with store := st }
  | .failed st g cells => ({ s with store := st } : State).storeFailed g cells

/-- COPY_WRITE_DONE (R77, R81, R85). -/
def execCopyWriteDone (passed : Bool) (s : State) : Host.Outcome State Fault Refusal :=
  .next (s.whilePowered fun s => s.copyWriteDone passed)

/-- GROUP_CLOSE (R77): the marker of the writing group has passed. `scan` is what a start-up that the close begins finds (R86). -/
def execGroupClose (scan : ScanFindings) (s : State) : Host.Outcome State Fault Refusal :=
  .next (s.whilePowered fun s =>
    match s.store.closing with
    | some w => s.closeGroup w scan
    | none => s)

end Sys2Proof.Machine
end

