-- ==== Sys2Proof/Machine/Timers.lean ====
section
/-! DEFINITION. Machine/Timers.lean: the meanings of the rows for waits, timers, the derivation function, the BAY line and the Wipe
Engine's own steps. An expiry of a timer that does not run changes nothing (log 4). -/

namespace Sys2Proof.Machine

/-- DRAIN_WAIT_END (R19). -/
def execDrainWaitEnd (s : State) : Host.Outcome State Fault Refusal := .next (s.whilePowered State.endDrainWait)

/-- The drain limit of the RANGE-COMMIT in its drain wait expires (R20). -/
def State.drainLimitExpires (s : State) : State :=
  match s.commit with
  | some c =>
    if s.commitDraining then (s.reachTime (c.drainSince + Config.drainLimitMs)).endCommit .drainTimeout .none else s
  | none => s

/-- DRAIN_LIMIT_EXPIRY (R20). -/
def execDrainLimitExpiry (s : State) : Host.Outcome State Fault Refusal := .next (s.whilePowered State.drainLimitExpires)

/-- The executor's derivation has ended: an AUTHENTICATE's verdict (R59), or a CRED-SET's group is ready (R66). -/
def State.executorDerived (s : State) : State :=
  match s.executor.job with
  | .attempt a =>
    match a.phase with
    | .deriving => s.verdictReached a
    | _ => s
  | .credSet j => if s.executor.stage = .working then s.startJob (.credSet j) .wanted else s
  | _ => s

/-- The Wipe Engine's derivation has ended: the final group is ready (R133). -/
def State.wipeDerived (s : State) : State :=
  match s.wipe.final with
  | .deriving salt => s.setWipe { s.wipe with final := .ready salt }
  | _ => s

/-- The running derivation ends, and the one that waits starts (R52). -/
def State.derivationEnds (s : State) : State :=
  match s.derivations with
  | [] => s
  | .executor :: rest => ({ s with derivations := rest } : State).executorDerived
  | .wipeEngine :: rest => ({ s with derivations := rest } : State).wipeDerived

/-- DERIVATION_COMPLETE (R52, R59, R66, R133). -/
def execDerivationComplete (s : State) : Host.Outcome State Fault Refusal := .next (s.whilePowered State.derivationEnds)

/-- The authority idle timer expires (R71, R72). -/
def State.authorityExpires (s : State) : State :=
  match s.authTimer with
  | some t => (s.reachTime (t + s.counters.idleLimit * 1000)).revokeAuthority
  | none => s

/-- AUTHORITY_IDLE_EXPIRY (R71). -/
def execAuthorityIdleExpiry (s : State) : Host.Outcome State Fault Refusal := .next (s.whilePowered State.authorityExpires)

/-- BAY_EDGE (R108); without power only the line has changed (log 5). -/
def execBayEdge (level : BayLevel) (s : State) : Host.Outcome State Fault Refusal :=
  .next (if s.power.powered then settle (s.bayEdge level)
    else { s with trigger := { s.trigger with bayLine := level } })

/-- The stability timer expires: the debounced level takes the candidate (R108). -/
def State.stabilityExpires (s : State) : State :=
  match s.trigger.stability with
  | some t => (s.reachTime (t + Config.bayStableMs)).takeBayChange s.trigger.candidate
  | none => s

/-- BAY_STABILITY_EXPIRY (R108). -/
def execBayStabilityExpiry (s : State) : Host.Outcome State Fault Refusal := .next (s.whilePowered State.stabilityExpires)

/-- The trigger idle timer reaches its limit: it stops there and IDLE fires (R110). -/
def State.idleExpires (s : State) : State :=
  match s.trigger.idle with
  | .running t =>
    let reached := s.reachTime (t + s.triggers.idleLimit * 60000)
    ({ reached with trigger := { reached.trigger with idle := .expired } } : State).fire .idle
  | .stopped => s
  | .expired => s

/-- IDLE_TIMER_EXPIRY (R110). -/
def execIdleTimerExpiry (s : State) : Host.Outcome State Fault Refusal := .next (s.whilePowered State.idleExpires)

/-- The recheck timer reaches the interval and starts a check (R99). -/
def State.recheckExpires (s : State) : State :=
  match s.binding.recheck with
  | some t => (s.reachTime (t + s.bindingRecord.recheck * 60000)).startCheck s.binding.state
  | none => s

/-- RECHECK_TIMER_EXPIRY (R99). -/
def execRecheckTimerExpiry (s : State) : Host.Outcome State Fault Refusal := .next (s.whilePowered State.recheckExpires)

/-- KEY_STEP (R127, R128): the Wipe Engine begins the current item when the part state allows it (R135). -/
def execKeyStep (s : State) : Host.Outcome State Fault Refusal :=
  .next (s.whilePowered fun s =>
    match s.keyStepDue with
    | some t => if s.keyStepAllowed then s.beginItem t else s
    | none => s)

/-- OVERWRITE_START (R130, R137). -/
def execOverwriteStart (s : State) : Host.Outcome State Fault Refusal := .next (s.whilePowered State.startOverwrite)

end Sys2Proof.Machine
end

