-- ==== Sys2Proof/Machine/Tether.lean ====
section
/-! DEFINITION. Machine/Tether.lean: the meanings of TETHER_PAGE_RECEIVED, TETHER_FAULT, PAGE_TIMEOUT, ROUND_WAIT_EXPIRY and
ENROL_RETRY_EXPIRY. -/

namespace Sys2Proof.Machine

/-- A page arrives (R93, R172): one whose check fails is discarded; one of no listed form is a sequence error in an exchange. -/
def State.pageArrives (s : State) (bytes : List Byte) : State :=
  match readPage bytes with
  | .badCheck => s
  | .unlisted => if s.binding.exchange.live.isSome then s.failExchange else s
  | .page p => s.receivePage p

/-- TETHER_PAGE_RECEIVED (R93 to R95, R101). -/
def execTetherPageReceived (page : Vector Byte 20) (s : State) : Host.Outcome State Fault Refusal :=
  .next (s.whilePowered fun s => s.pageArrives page.toList)

/-- TETHER_FAULT (R92): the exchange in progress fails. In the pause between two rounds or two enrolment exchanges it changes nothing
(DESIGN CHOICE, log 70). -/
def execTetherFault (s : State) : Host.Outcome State Fault Refusal :=
  .next (s.whilePowered fun s => if s.binding.exchange.live.isSome then s.failExchange else s)

/-- PAGE_TIMEOUT (R92, R93): the 50 ms pass, and the exchange fails. -/
def execPageTimeout (s : State) : Host.Outcome State Fault Refusal :=
  .next (s.whilePowered fun s =>
    if s.binding.exchange.live.isSome then (s.reachTime (s.binding.waitSince + Config.pageWaitMs)).failExchange else s)

/-- ROUND_WAIT_EXPIRY (R96): the next round of the same check starts. -/
def execRoundWaitExpiry (s : State) : Host.Outcome State Fault Refusal :=
  .next (s.whilePowered fun s =>
    if s.binding.exchange = .check .pausing then (s.reachTime (s.binding.waitSince + Config.roundWaitMs)).startRound else s)

/-- ENROL_RETRY_EXPIRY (R101): the exchange runs again with the same secret. -/
def execEnrolRetryExpiry (s : State) : Host.Outcome State Fault Refusal :=
  .next (s.whilePowered fun s =>
    match s.binding.freshSecret with
    | some x =>
      if s.binding.exchange = .enrol .pausing then (s.reachTime (s.binding.waitSince + Config.roundWaitMs)).startEnrolExchange x else s
    | none => s)

end Sys2Proof.Machine
end

