-- ==== Sys2Proof/Machine/ChannelSteps.lean ====
section
/-! DEFINITION. Machine/ChannelSteps.lean: the meanings of BAD_FRAME, UNKNOWN_KIND, STATUS, EVENTS_ENABLE and EVENTS_ACK. -/

namespace Sys2Proof.Machine

/-- A reply that answers no request kind: kind FFh (R163). -/
def frameReply (tag : Byte) (code : Code) : Sent := .reply { kind := 0xFF, tag := tag, code := code, payload := .none }

/-- A malformed record is answered BAD_FRAME (R163); a well-formed one is no BAD_FRAME event (log 4). -/
def State.badFrame (s : State) (record : List Byte) : State :=
  match checkFrame record with
  | .malformed => s.say (frameReply (receivedTag record) .badFrame)
  | .frame .. => s

/-- What a part with power answers at once, outside the request executor and with nothing else changed (R163, R165, R178); a part without
power takes nothing (log 5). -/
def State.atOnce (s : State) (f : State → State) : State := if s.power.powered then f s else s

/-- BAD_FRAME (R163). -/
def execBadFrame (record : List Byte) (s : State) : Host.Outcome State Fault Refusal :=
  .next (s.atOnce fun s => s.badFrame record)

/-- The kind is in the catalogue: 1 to 24 (R170). -/
def knownKind (kind : Byte) : Bool := 1 ≤ kind.toNat ∧ kind.toNat ≤ 24

/-- A well-formed frame of an unknown kind is answered UNKNOWN_KIND (R163). -/
def State.unknownKind (s : State) (record : List Byte) : State :=
  match checkFrame record with
  | .malformed => s
  | .frame kind tag _ => if knownKind kind then s else s.say (frameReply tag .unknownKind)

/-- UNKNOWN_KIND (R163). -/
def execUnknownKind (record : List Byte) (s : State) : Host.Outcome State Fault Refusal :=
  .next (s.atOnce fun s => s.unknownKind record)

/-! ### STATUS (R178, R179) -/

/-- The plan summary, of the effective plan (R122). -/
def State.planSummary (s : State) : PlanSummary :=
  { items := s.plan.items.length, current := s.plan.current, cursor := s.plan.cursor, overwrite := s.plan.overwrite
    full := s.plan.full }

/-- The report of a range: a locked flag of a direction whose lock is not enabled is reported no (R178). -/
def State.rangeReport (s : State) (r : RangeId) : RangeReport :=
  { service := s.table[r].service, readLocked := s.readClosed r, writeLocked := s.writeClosed r }

/-- The fields of a STATUS reply (R178). -/
def State.statusReport (s : State) : StatusReport :=
  { part := s.power.part, cause := s.power.cause, rollbackFound := s.power.rollbackFound, attemptCharged := s.power.attemptCharged
    lockdown := s.trigger.working, binding := s.binding.state, bay := s.trigger.bayLevel, latchedOpen := s.events.latchedOpen
    shadow := s.shadow, holder := s.authority.map (fun a => (a.slot, roleOf a.slot)), ranges := allRanges.map s.rangeReport
    g := s.counters.g, tableGeneration := s.tableGeneration, plan := s.planSummary, pending := s.events.pending
    enabled := s.events.enabled, detail := s.events.detail
    inFlight := (allTags.filter (fun t => s.inflight[t].isSome)).length }

/-- The kind number of STATUS (R170). -/
def statusKind : Nat := 1

/-- STATUS: answered at once in every part state and executor state (R165 step 1); a body is answered BAD_BODY. -/
def State.status (s : State) (tag : Byte) : Body Unit → State
  | .misfit => s.say (replyTo statusKind tag .badBody .none)
  | .fits _ => (s.say (replyTo statusKind tag .ok (.status s.statusReport))).rearmLatch

/-- STATUS (R165, R178, R179). -/
def execStatus (tag : Byte) (body : Body Unit) (s : State) : Host.Outcome State Fault Refusal :=
  .next (s.atOnce fun s => s.status tag body)

/-! ### EVENTS-ENABLE and EVENTS-ACK (R175, R176) -/

/-- Replace the Event Unit's sets. -/
def State.setEvents (s : State) (e : Events) : State := { s with events := e }

/-- EVENTS-ENABLE taken with authority (R175). -/
def State.eventsEnable (codes : List Nat) (s : State) : State :=
  match eventSetOf codes with
  | none => s.reply .badBody
  | some kinds =>
    let set := s.setEvents (s.events.enable kinds)
    set.reply .ok (.events set.events.enabled set.events.pending)

/-- EVENTS-ACK taken with authority (R176). -/
def State.eventsAck (codes : List Nat) (s : State) : State :=
  match eventSetOf codes with
  | none => s.reply .badBody
  | some kinds =>
    let set := s.setEvents (s.events.clear kinds)
    set.reply .ok (.pendingEvents set.events.pending)

/-- A body of which a field breaks the form the catalogue gives it does not fit (R166 step 1, R170). -/
def fitting {α : Type} (ok : α → Bool) : Body α → Body α
  | .misfit => .misfit
  | .fits a => if ok a then .fits a else .misfit

/-- A body whose list passes its bound does not fit its form (R166 step 1, R170). -/
def bounded {α β : Type} (bound : Nat) (list : α → List β) (body : Body α) : Body α :=
  fitting (fun a => decide ((list a).length ≤ bound)) body

/-- EVENTS_ENABLE (R175). -/
def execEventsEnable (tag : Byte) (body : Body (List Nat)) (s : State) : Host.Outcome State Fault Refusal :=
  .next (s.whilePowered fun s => s.request 2 tag (bounded 14 id body) (adminOnly State.eventsEnable))

/-- EVENTS_ACK (R176). -/
def execEventsAck (tag : Byte) (body : Body (List Nat)) (s : State) : Host.Outcome State Fault Refusal :=
  .next (s.whilePowered fun s => s.request 3 tag (bounded 14 id body) (adminOnly State.eventsAck))

end Sys2Proof.Machine
end

