-- ==== Sys2Proof/Machine/CredentialRequests.lean ====
section
/-! DEFINITION. Machine/CredentialRequests.lean: the meanings of AUTHENTICATE, AUTHORITY_END, CRED_SET, CRED_POLICY and the CRED_STATE
rows. -/

namespace Sys2Proof.Machine

/-! ### AUTHENTICATE (R57, R58) -/

/-- Checks 2 to 5 of R57. They are made of a taken request (R166 step 2), so check 2 finds READY: outside READY the Management Channel has
answered before any check of R57 (R165 step 2, R141, R150, R85; log 16). -/
def State.authRefusal (s : State) (i : SlotId) : Option (Code × Payload) :=
  if let some code := partRefusal s.power.part 4 then some (code, .none)
  else if (s.cred i).state ≠ .active then some (.slotState, .range none)
  else if s.accepting i = false then some (.lockedOut, .retryAfter (s.retryAfter i))
  else if s.binding.state = .checking then some (.bindingPending, .none)
  else none

/-- AUTHENTICATE's checks; when they pass the charge group is ready to be submitted (R57, R58). -/
def State.authenticate (x : AuthArgs) (s : State) : State :=
  match slotOf x.slot, unlockSetOf x.unlock with
  | some i, some unlock =>
    if secretOk x.secret then
      match s.authRefusal i with
      | some r => s.reply r.1 r.2
      | none =>
        s.startJob (.attempt { slot := i, secret := x.secret, unlock := unlock, phase := .charging, settledAt := s.clock }) .wanted
    else s.reply .badBody
  | _, _ => s.reply .badBody

/-- AUTHENTICATE (R57 to R62). -/
def execAuthenticate (tag : Byte) (body : Body AuthArgs) (s : State) : Host.Outcome State Fault Refusal :=
  .next (s.whilePowered fun s => s.request 4 tag (bounded 16 AuthArgs.unlock body) State.authenticate)

/-- AUTHORITY-END (R70, R72). -/
def State.authorityEnd (_ : Unit) (s : State) : State :=
  if s.authority.isSome then s.endAuthority.reply .ok else s.reply .noAuthority

/-- AUTHORITY_END (R72). -/
def execAuthorityEnd (tag : Byte) (body : Body Unit) (s : State) : Host.Outcome State Fault Refusal :=
  .next (s.whilePowered fun s => s.request 5 tag body State.authorityEnd)

/-! ### CRED-SET (R66, R67) -/

/-- The slot's policy as it will stand (R66, R51). -/
def State.policyToStand (s : State) (i : SlotId) (p : Option Policy) : Policy :=
  match p with
  | some q => clampPolicy q
  | none => (s.cred i).policy

/-- The ranges of a slot whose key is unavailable (R67). -/
def State.unavailable (s : State) (i : SlotId) : List RangeId := (s.listedRanges i).filter (fun r => (s.credSetKey i r).isNone)

/-- The keys in hand for a slot's wraps (R67, log 25). -/
def State.keysInHand (s : State) (i : SlotId) : List (RangeId × Key) :=
  (s.listedRanges i).filterMap (fun r => (s.credSetKey i r).map (fun k => (r, k)))

/-- CRED-SET goes on to its derivation, with a new salt (R66). The policy that will stand is settled here: without a policy in the request
it is the slot's as these checks read it, also when a final commit overtakes the derivation (DESIGN CHOICE, log 53). -/
def State.startCredSet (s : State) (i : SlotId) (x : CredSetArgs) : State :=
  let d := s.draw
  let job : CredSetJob :=
    { slot := i, secret := x.secret, policy := s.policyToStand i x.policy, salt := Config.freshSalt d.1, keys := s.keysInHand i
      dropped := s.unavailable i }
  { d.2.startJob (.credSet job) .working with derivations := s.derivations ++ [.executor] }

/-- CRED-SET's checks (R66). -/
def State.credSet (x : CredSetArgs) (s : State) : State :=
  match slotOf x.slot with
  | none => s.reply .badBody
  | some i =>
    if secretOk x.secret = false then s.reply .badBody
    else if s.maySetCred i = false then s.reply .noAuthority
    else if s.unavailable i ≠ [] ∧ x.dropUnavailable = false then s.reply .keyUnavailable (.range (s.unavailable i).head?)
    else if Config.groupMax < 1 + (s.unavailable i).length then s.reply .outOfRange
    else s.startCredSet i x

/-- CRED_SET (R66, R67). -/
def execCredSet (tag : Byte) (body : Body CredSetArgs) (s : State) : Host.Outcome State Fault Refusal :=
  .next (s.whilePowered fun s => s.request 12 tag body State.credSet)

/-! ### CRED-POLICY (R68) -/

/-- CRED-POLICY taken with authority (R68). -/
def State.credPolicy (x : CredPolicyArgs) (s : State) : State :=
  match slotOf x.slot with
  | none => s.reply .badBody
  | some i => s.startJob (.credPolicy i (clampPolicy x.policy) (x.idleLimit.map clampAuthIdle)) .wanted

/-- CRED_POLICY (R68). -/
def execCredPolicy (tag : Byte) (body : Body CredPolicyArgs) (s : State) : Host.Outcome State Fault Refusal :=
  .next (s.whilePowered fun s => s.request 13 tag body (adminOnly State.credPolicy))

/-! ### CRED-STATE (R69) -/

/-- CRED-STATE without a change is answered at once; REOPEN leaves the slot accepting (R69). -/
def State.credStateUnchanged (s : State) (i : SlotId) (a : CredAction) : State :=
  let opened := if a = .reopen then s.setOpenAt i s.clock else s
  opened.reply .ok (.credState (s.cred i).state (s.cred i).failures)

/-- CRED-STATE on a slot the authority permits (R69). -/
def State.credStateOn (s : State) (i : SlotId) (a : CredAction) : State :=
  match (s.cred i).apply a with
  | none => s.reply .slotState (.range none)
  | some c => if c = s.cred i then s.credStateUnchanged i a else s.startJob (.credState i a) .wanted

/-- CRED-STATE's checks: R69 does not place the authority among them, so the check of R70 comes first (R166), then the slot and the
action. -/
def State.credStateChange (a : CredAction) (x : CredStateArgs) (s : State) : State :=
  if s.mayCredState x.slot = false then s.reply .noAuthority
  else
    match slotOf x.slot with
    | none => s.reply .badBody
    | some i => if x.actionKnown = false then s.reply .badBody else s.credStateOn i a

/-- CRED_STATE_ENABLE (R69). -/
def execCredStateEnable (tag : Byte) (body : Body CredStateArgs) (s : State) : Host.Outcome State Fault Refusal :=
  .next (s.whilePowered fun s => s.request 14 tag body (State.credStateChange .enable))

/-- CRED_STATE_DISABLE (R69). -/
def execCredStateDisable (tag : Byte) (body : Body CredStateArgs) (s : State) : Host.Outcome State Fault Refusal :=
  .next (s.whilePowered fun s => s.request 14 tag body (State.credStateChange .disable))

/-- CRED_STATE_REOPEN (R69). -/
def execCredStateReopen (tag : Byte) (body : Body CredStateArgs) (s : State) : Host.Outcome State Fault Refusal :=
  .next (s.whilePowered fun s => s.request 14 tag body (State.credStateChange .reopen))

end Sys2Proof.Machine
end

