-- ==== Sys2Proof/Machine/RangeRequests.lean ====
section
/-! DEFINITION. Machine/RangeRequests.lean: the meanings of RANGE_UNLOCK, RANGE_LOCK, RANGE_STAGE, RANGE_DISCARD, RANGE_COMMIT and
RANGE_READ. -/

namespace Sys2Proof.Machine

/-- The carried range of a refusal: present where the rule names it (R6, R168). -/
def refusalRange (code : Code) (r : RangeId) : Payload :=
  match code with
  | .slotState => .range (some r)
  | .keyUnavailable => .range (some r)
  | _ => .none

/-- The OK reply of RANGE-UNLOCK and RANGE-LOCK: the resulting flags (R6, R7). -/
def State.replyLocks (s : State) (r : RangeId) : State := s.reply .ok (.locks s.table[r].readLocked s.table[r].writeLocked)

/-- RANGE-UNLOCK's checks 3 to 5 and its effect, for the authority holder (R6, R54). -/
def State.unlockBy (s : State) (a : Authority) (u : Unlock) : State :=
  match s.unlockRefusal a.slot a.unwrap u.range with
  | some code => s.reply code (refusalRange code u.range)
  | none => (s.applyUnlock a.slot a.unwrap u).replyLocks u.range

/-- RANGE-UNLOCK (R6). -/
def State.rangeUnlock (x : RangeDirs) (s : State) : State :=
  match unlockOf x with
  | none => s.reply .badBody
  | some u =>
    if s.mayLock u.range = false then s.reply .noAuthority
    else
      match s.authority with
      | some a => s.unlockBy a u
      | none => s.reply .noAuthority

/-- RANGE_UNLOCK (R6). -/
def execRangeUnlock (tag : Byte) (body : Body RangeDirs) (s : State) : Host.Outcome State Fault Refusal :=
  .next (s.whilePowered fun s => s.request 6 tag body State.rangeUnlock)

/-- RANGE-LOCK's check 3 and its effect (R7). -/
def State.lockRange (s : State) (u : Unlock) : State :=
  if s.table[u.range].service = .undefined ∨ s.table[u.range].service = .erasing then s.reply .slotState (.range (some u.range))
  else ((s.setLocks u.range u.dirs true).drainIfClosed u.range).replyLocks u.range

/-- RANGE-LOCK (R7). -/
def State.rangeLock (x : RangeDirs) (s : State) : State :=
  match unlockOf x with
  | none => s.reply .badBody
  | some u => if s.mayLock u.range = false then s.reply .noAuthority else s.lockRange u

/-- RANGE_LOCK (R7). -/
def execRangeLock (tag : Byte) (body : Body RangeDirs) (s : State) : Host.Outcome State Fault Refusal :=
  .next (s.whilePowered fun s => s.request 7 tag body State.rangeLock)

/-! ### RANGE-STAGE (R15) -/

/-- The fields of a RANGE-STAGE, each of which names a member of its set where it names one. -/
structure StageFields where
  lockedRead : Option LockedRead
  sleep : Option SleepPolicy
  response : Option LockdownResponse
  access : Option (List SlotId)
deriving DecidableEq, Repr

/-- An optional field: absent, its value, or (none) a value outside its set. -/
def optionalField {α β : Type} (read : α → Option β) : Option α → Option (Option β)
  | none => some none
  | some a => (read a).map some

/-- The named fields of a RANGE-STAGE; none when one is outside its set (R15). -/
def stageFieldsOf (x : StageArgs) : Option StageFields := do
  let lockedRead ← optionalField fieldValue x.lockedRead
  let sleep ← optionalField fieldValue x.sleep
  let response ← optionalField fieldValue x.response
  let access ← optionalField accessOf x.access
  return { lockedRead := lockedRead, sleep := sleep, response := response, access := access }

/-- U is absent, 512 or 4096 (R15). -/
def unitNamed (u : Option Nat) : Bool := u = none ∨ u = some 512 ∨ u = some 4096

/-- A start or length is given for range 0 (R15). -/
def placesRange0 (x : StageArgs) (r : RangeId) : Bool := r = 0 ∧ (x.start.isSome ∨ x.length.isSome)

/-- The staged entry with the given fields replaced (R15). -/
def stageInto (old : Staged) (x : StageArgs) (f : StageFields) : Staged :=
  { fields :=
      { start := x.start.getD old.fields.start, length := x.length.getD old.fields.length
        readLock := x.readLock.getD old.fields.readLock, writeLock := x.writeLock.getD old.fields.writeLock
        lockedRead := f.lockedRead.getD old.fields.lockedRead, unitSize := x.unitSize.getD old.fields.unitSize
        sleep := f.sleep.getD old.fields.sleep, response := f.response.getD old.fields.response
        access := f.access.getD old.fields.access }
    newKey := old.newKey || x.newKey }

/-- RANGE-STAGE taken with authority (R15). -/
def State.rangeStage (x : StageArgs) (s : State) : State :=
  match rangeIdOf x.range, stageFieldsOf x with
  | some r, some f =>
    if placesRange0 x r ∨ unitNamed x.unitSize = false then s.reply .badBody
    else if x.unitSize.any (fun u => s.profile.blockSize < u) then s.reply .outOfRange
    else ({ s with staging := s.staging.set r (stageInto s.staging[r] x f) } : State).reply .ok
  | _, _ => s.reply .badBody

/-- RANGE_STAGE (R15). -/
def execRangeStage (tag : Byte) (body : Body StageArgs) (s : State) : Host.Outcome State Fault Refusal :=
  .next (s.whilePowered fun s => s.request 8 tag (bounded 8 (fun x => x.access.getD []) body) (adminOnly State.rangeStage))

/-! ### RANGE-DISCARD, RANGE-COMMIT, RANGE-READ (R16 to R19) -/

/-- RANGE-DISCARD taken with authority (R16). -/
def State.rangeDiscard (_ : Unit) (s : State) : State := (forEach allRanges (fun r s => s.restage r) s).reply .ok

/-- RANGE_DISCARD (R16). -/
def execRangeDiscard (tag : Byte) (body : Body Unit) (s : State) : Host.Outcome State Fault Refusal :=
  .next (s.whilePowered fun s => s.request 9 tag body (adminOnly State.rangeDiscard))

/-- RANGE-COMMIT taken with authority (R18, R19): a refusal, OK at once when nothing differs, or the drain wait. -/
def State.rangeCommit (_ : Unit) (s : State) : State :=
  match s.commitRefusal with
  | some r => s.reply r.1 r.2
  | none => if allRanges.any s.differs then s.startCommit else s.reply .ok (.generation s.tableGeneration)

/-- RANGE_COMMIT (R18 to R22). -/
def execRangeCommit (tag : Byte) (body : Body Unit) (s : State) : Host.Outcome State Fault Refusal :=
  .next (s.whilePowered fun s => s.request 10 tag body (adminOnly State.rangeCommit))

/-- The fields RANGE-READ returns (R17). -/
def State.readReport (s : State) (r : RangeId) : RangeReadReport :=
  let e := s.range r
  { number := r, start := if r = 0 then none else some e.fields.start, length := if r = 0 then none else some e.fields.length
    committed := e.fields, readLocked := s.table[r].readLocked, writeLocked := s.table[r].writeLocked
    tweakOrigin := e.tweakOrigin, generation := e.generation, service := s.table[r].service, staged := s.staging[r]
    tableGeneration := s.tableGeneration }

/-- RANGE-READ taken with authority (R17). -/
def State.rangeRead (n : Nat) (s : State) : State :=
  match rangeIdOf n with
  | none => s.reply .badBody
  | some r => s.reply .ok (.rangeRead (s.readReport r))

/-- RANGE_READ (R17). -/
def execRangeRead (tag : Byte) (body : Body Nat) (s : State) : Host.Outcome State Fault Refusal :=
  .next (s.whilePowered fun s => s.request 11 tag body (adminOnly State.rangeRead))

end Sys2Proof.Machine
end

