-- ==== Sys2Proof/Machine/DeviceRequests.lean ====
section
/-! DEFINITION. Machine/DeviceRequests.lean: the meanings of the shadow, binding, trigger, lockdown and RESET-PART rows. -/

namespace Sys2Proof.Machine

/-! ### The shadow (R159 to R161) -/

/-- SHADOW-CONFIG taken with authority (R159). -/
def State.shadowConfig (x : ShadowArgs) (s : State) : State :=
  if x.enabled.isNone ∧ x.size.isNone then s.reply .badBody
  else s.startJob (.shadowConfig x.enabled (x.size.map clampShadow)) .wanted

/-- SHADOW_CONFIG (R159). -/
def execShadowConfig (tag : Byte) (body : Body ShadowArgs) (s : State) : Host.Outcome State Fault Refusal :=
  .next (s.whilePowered fun s => s.request 15 tag body (adminOnly State.shadowConfig))

/-- The reply of SHADOW-LOAD: the state as it now stands (R160). -/
def State.replyShadow (s : State) : State := s.reply .ok (.shadowState s.shadow)

/-- The window opens to writes (R160). -/
def State.openShadow (s : State) : State :=
  match s.shadow with
  | .off => s.presentShadow .loading
  | .on => { s with shadow := .loading }
  | .loading => s

/-- SHADOW-LOAD OPEN taken with authority (R160). -/
def State.shadowOpen (x : LoadArgs) (s : State) : State :=
  if x.actionKnown = false then s.reply .badBody
  else if s.shadowRecord.enabled = false ∨ s.shadowErasing then s.reply .slotState (.range none)
  else s.openShadow.replyShadow

/-- SHADOW_LOAD_OPEN (R160). -/
def execShadowLoadOpen (tag : Byte) (body : Body LoadArgs) (s : State) : Host.Outcome State Fault Refusal :=
  .next (s.whilePowered fun s => s.request 16 tag body (adminOnly State.shadowOpen))

/-- SHADOW-LOAD CLOSE taken with authority (R160). -/
def State.shadowClose (x : LoadArgs) (s : State) : State :=
  if x.actionKnown = false then s.reply .badBody
  else ({ s with shadow := if s.shadow = .loading then .on else s.shadow } : State).replyShadow

/-- SHADOW_LOAD_CLOSE (R160). -/
def execShadowLoadClose (tag : Byte) (body : Body LoadArgs) (s : State) : Host.Outcome State Fault Refusal :=
  .next (s.whilePowered fun s => s.request 16 tag body (adminOnly State.shadowClose))

/-- SHADOW-DONE, which any authority permits (R161). -/
def State.shadowDone (_ : Unit) (s : State) : State :=
  if s.authority.isSome then s.removeShadow.reply .ok else s.reply .noAuthority

/-- SHADOW_DONE (R161). -/
def execShadowDone (tag : Byte) (body : Body Unit) (s : State) : Host.Outcome State Fault Refusal :=
  .next (s.whilePowered fun s => s.request 17 tag body State.shadowDone)

/-! ### Binding (R100 to R102) -/

/-- BIND-ENROLL taken with authority (R101): the enrolment begins once no check is in progress. -/
def State.bindEnroll (recheck : Option Nat) (s : State) : State :=
  s.startJob (.enrol (recheck.map clampRecheck) none) .working

/-- BIND_ENROLL (R101, R102). -/
def execBindEnroll (tag : Byte) (body : Body (Option Nat)) (s : State) : Host.Outcome State Fault Refusal :=
  .next (s.whilePowered fun s => s.request 18 tag body (adminOnly State.bindEnroll))

/-- BIND-CHECK taken with authority (R100): a check in progress stands. -/
def State.bindCheck (_ : Unit) (s : State) : State :=
  if s.enrolled = false then s.reply .notEnrolled else (s.startCheck s.binding.state).reply .ok

/-- BIND_CHECK (R100). -/
def execBindCheck (tag : Byte) (body : Body Unit) (s : State) : Host.Outcome State Fault Refusal :=
  .next (s.whilePowered fun s => s.request 19 tag body (adminOnly State.bindCheck))

/-! ### Triggers and lockdown (R107, R119) -/

/-- The trigger entry of TRIGGER-SET, when its names are known and it is allowed for its trigger (R107 checks 1 and 2). -/
def triggerChangeOf (x : TriggerEntryArgs) : Option TriggerChange := do
  let trigger ← fieldValue x.trigger
  let action ← fieldValue x.action
  if trigger = .idle ∧ ((action ≠ .note ∧ action ≠ .relock) ∨ x.autoResume) then none
  else return { trigger := trigger, entry := { action := action, autoResume := x.autoResume } }

/-- TRIGGER-SET taken with authority (R107). -/
def State.triggerSet (x : TriggerArgs) (s : State) : State :=
  if x.entry.isNone ∧ x.gmax.isNone ∧ x.idleLimit.isNone then s.reply .badBody
  else
    match optionalField triggerChangeOf x.entry with
    | none => s.reply .badBody
    | some entry => s.startJob (.triggerSet entry (x.gmax.map clampGmax) (x.idleLimit.map clampIdleLimit)) .wanted

/-- TRIGGER_SET (R107). -/
def execTriggerSet (tag : Byte) (body : Body TriggerArgs) (s : State) : Host.Outcome State Fault Refusal :=
  .next (s.whilePowered fun s => s.request 20 tag body (adminOnly State.triggerSet))

/-- LOCKDOWN-CLEAR taken with authority (R119). -/
def State.lockdownClear (_ : Unit) (s : State) : State :=
  if s.inLockdown = false then s.reply .ok
  else if s.someCauseActive then s.reply .conditionActive
  else s.leave.startJob .lockdownClear .wanted

/-- LOCKDOWN_CLEAR (R119, R120). -/
def execLockdownClear (tag : Byte) (body : Body Unit) (s : State) : Host.Outcome State Fault Refusal :=
  .next (s.whilePowered fun s => s.request 21 tag body (adminOnly State.lockdownClear))

/-! ### RESET-PART (R156) -/

/-- RESET-PART taken with authority (R156): the reply is sent, and the part goes on to its restart. -/
def State.resetPart (_ : Unit) (s : State) : State := (s.reply .ok).beginRestart

/-- RESET_PART (R156). -/
def execResetPart (tag : Byte) (body : Body Unit) (s : State) : Host.Outcome State Fault Refusal :=
  .next (s.whilePowered fun s => s.request 24 tag body (adminOnly State.resetPart))

end Sys2Proof.Machine
end

