-- ==== Sys2Proof/Machine/WipeRequests.lean ====
section
/-! DEFINITION. Machine/WipeRequests.lean: the meanings of WIPE_TOKEN_SET, WIPE_TOKEN_CLEAR and WIPE. -/

namespace Sys2Proof.Machine

/-- WIPE-TOKEN-SET with a token, taken with authority (R126). -/
def State.wipeTokenSet (t : List Byte) (s : State) : State := s.startJob (.setToken (some t)) .wanted

/-- WIPE_TOKEN_SET (R126). A token of 32 bytes is the form of its body (R170), so another length is answered BAD_BODY before the authority
is looked at (R166 step 1). -/
def execWipeTokenSet (tag : Byte) (body : Body (List Byte)) (s : State) : Host.Outcome State Fault Refusal :=
  .next (s.whilePowered fun s => s.request 22 tag (fitting (fun t => decide (t.length = 32)) body) (adminOnly State.wipeTokenSet))

/-- WIPE-TOKEN-SET with CLEAR, taken with authority (R126). -/
def State.wipeTokenClear (_ : Unit) (s : State) : State := s.startJob (.setToken none) .wanted

/-- WIPE_TOKEN_CLEAR (R126). -/
def execWipeTokenClear (tag : Byte) (body : Body Unit) (s : State) : Host.Outcome State Fault Refusal :=
  .next (s.whilePowered fun s => s.request 22 tag body (adminOnly State.wipeTokenClear))

/-! ### WIPE (R124, R125, R136) -/

/-- The credential of a WIPE has its length, and a factory secret is given only in FAILSAFE (R124 check 1). -/
def State.wipeCredentialOk (s : State) : WipeCredential → Bool
  | .absent => true
  | .token t => t.length = 32
  | .factorySecret f => f.length = 32 ∧ s.power.part = .failsafe

/-- The WIPE is accepted (R125): its reply follows the plan group, or is sent at once when the plan does not change. The reply sent at once
carries the item count of the effective plan (DESIGN CHOICE, log 61). -/
def State.takeWipe (s : State) (x : WipeArgs) (targets : List Owner) : State :=
  let a := (s.startJob .wipe .submitted).acceptWipe targets x.overwrite (x.scope = .all) true
  if a.2 then a.1 else a.1.reply .ok (.items a.1.plan.items.length)

/-- WIPE in FAILSAFE (R124 check 2, R136, R86). -/
def State.wipeInFailsafe (s : State) (x : WipeArgs) (targets : List Owner) : State :=
  match x.scope, x.credential with
  | .all, .factorySecret f =>
    if s.profileLost then s.reply .storeFault
    else if f = s.profile.factorySecret then ({ s with store := { s.store with wipeAccepted := true } } : State).takeWipe x targets
    else s.reply .failed (.failed none none)
  | _, _ => s.reply .storeFault

/-- WIPE in READY, by its permission (R124 check 3). -/
def State.wipeInReady (s : State) (x : WipeArgs) (targets : List Owner) : State :=
  match x.credential with
  | .token t => if s.token = some t then s.takeWipe x targets else s.startJob .wrongToken .wanted
  | _ => if s.admin then s.takeWipe x targets else s.reply .noAuthority

/-- WIPE's checks (R124). -/
def State.wipeRequest (x : WipeArgs) (s : State) : State :=
  match scopeOf x.scope with
  | none => s.reply .badBody
  | some targets =>
    if s.wipeCredentialOk x.credential = false then s.reply .badBody
    else if s.power.part = .failsafe then s.wipeInFailsafe x targets
    else s.wipeInReady x targets

/-- WIPE (R124, R125, R136). -/
def execWipe (tag : Byte) (body : Body WipeArgs) (s : State) : Host.Outcome State Fault Refusal :=
  .next (s.whilePowered fun s => s.request wipeKind tag body State.wipeRequest)

end Sys2Proof.Machine
end

