-- ==== Sys2Proof/Machine/Dispatch.lean ====
section
/-! DEFINITION. Machine/Dispatch.lean: one arm per command, each one call of its meaning. -/

namespace Sys2Proof.Machine

def exec (i : Instr) (s : State) : Host.Outcome State Fault Refusal :=
  match i with
  | .powerOn scan => Sys2Proof.Machine.execPowerOn scan s
  | .powerLoss midWrite => Sys2Proof.Machine.execPowerLoss midWrite s
  | .restore => Sys2Proof.Machine.execRestore s
  | .partRestart scan => Sys2Proof.Machine.execPartRestart scan s
  | .admitRequest tag direction start countLessOne => Sys2Proof.Machine.execAdmit tag direction start countLessOne s
  | .cancel tag => Sys2Proof.Machine.execCancel tag s
  | .frontReset => Sys2Proof.Machine.execFrontReset s
  | .mediaAcknowledge lane event => Sys2Proof.Machine.execMediaAcknowledge lane event s
  | .mediaError lane block => Sys2Proof.Machine.execMediaError lane block s
  | .copyWriteDone passed => Sys2Proof.Machine.execCopyWriteDone passed s
  | .groupClose scan => Sys2Proof.Machine.execGroupClose scan s
  | .drainWaitEnd => Sys2Proof.Machine.execDrainWaitEnd s
  | .drainLimitExpiry => Sys2Proof.Machine.execDrainLimitExpiry s
  | .derivationComplete => Sys2Proof.Machine.execDerivationComplete s
  | .authorityIdleExpiry => Sys2Proof.Machine.execAuthorityIdleExpiry s
  | .bayEdge level => Sys2Proof.Machine.execBayEdge level s
  | .bayStabilityExpiry => Sys2Proof.Machine.execBayStabilityExpiry s
  | .idleTimerExpiry => Sys2Proof.Machine.execIdleTimerExpiry s
  | .recheckTimerExpiry => Sys2Proof.Machine.execRecheckTimerExpiry s
  | .tetherPageReceived page => Sys2Proof.Machine.execTetherPageReceived page s
  | .tetherFault => Sys2Proof.Machine.execTetherFault s
  | .pageTimeout => Sys2Proof.Machine.execPageTimeout s
  | .roundWaitExpiry => Sys2Proof.Machine.execRoundWaitExpiry s
  | .enrolRetryExpiry => Sys2Proof.Machine.execEnrolRetryExpiry s
  | .slpAsserted => Sys2Proof.Machine.execSlpAsserted s
  | .sleepEntry => Sys2Proof.Machine.execSleepEntry s
  | .sleepDrop => Sys2Proof.Machine.execSleepDrop s
  | .sleepReady => Sys2Proof.Machine.execSleepReady s
  | .slpReleased => Sys2Proof.Machine.execSlpReleased s
  | .keyStep => Sys2Proof.Machine.execKeyStep s
  | .overwriteStart => Sys2Proof.Machine.execOverwriteStart s
  | .badFrame record => Sys2Proof.Machine.execBadFrame record s
  | .unknownKind record => Sys2Proof.Machine.execUnknownKind record s
  | .status tag body => Sys2Proof.Machine.execStatus tag body s
  | .eventsEnable tag body => Sys2Proof.Machine.execEventsEnable tag body s
  | .eventsAck tag body => Sys2Proof.Machine.execEventsAck tag body s
  | .authenticate tag body => Sys2Proof.Machine.execAuthenticate tag body s
  | .authorityEnd tag body => Sys2Proof.Machine.execAuthorityEnd tag body s
  | .rangeUnlock tag body => Sys2Proof.Machine.execRangeUnlock tag body s
  | .rangeLock tag body => Sys2Proof.Machine.execRangeLock tag body s
  | .rangeStage tag body => Sys2Proof.Machine.execRangeStage tag body s
  | .rangeDiscard tag body => Sys2Proof.Machine.execRangeDiscard tag body s
  | .rangeCommit tag body => Sys2Proof.Machine.execRangeCommit tag body s
  | .rangeRead tag body => Sys2Proof.Machine.execRangeRead tag body s
  | .credSet tag body => Sys2Proof.Machine.execCredSet tag body s
  | .credPolicy tag body => Sys2Proof.Machine.execCredPolicy tag body s
  | .credStateEnable tag body => Sys2Proof.Machine.execCredStateEnable tag body s
  | .credStateDisable tag body => Sys2Proof.Machine.execCredStateDisable tag body s
  | .credStateReopen tag body => Sys2Proof.Machine.execCredStateReopen tag body s
  | .shadowConfig tag body => Sys2Proof.Machine.execShadowConfig tag body s
  | .shadowLoadOpen tag body => Sys2Proof.Machine.execShadowLoadOpen tag body s
  | .shadowLoadClose tag body => Sys2Proof.Machine.execShadowLoadClose tag body s
  | .shadowDone tag body => Sys2Proof.Machine.execShadowDone tag body s
  | .bindEnroll tag body => Sys2Proof.Machine.execBindEnroll tag body s
  | .bindCheck tag body => Sys2Proof.Machine.execBindCheck tag body s
  | .triggerSet tag body => Sys2Proof.Machine.execTriggerSet tag body s
  | .lockdownClear tag body => Sys2Proof.Machine.execLockdownClear tag body s
  | .wipeTokenSet tag body => Sys2Proof.Machine.execWipeTokenSet tag body s
  | .wipeTokenClear tag body => Sys2Proof.Machine.execWipeTokenClear tag body s
  | .wipe tag body => Sys2Proof.Machine.execWipe tag body s
  | .resetPart tag body => Sys2Proof.Machine.execResetPart tag body s

end Sys2Proof.Machine
end

