-- ==== Sys2Proof/Machine/Step.lean ====
section
/-! DEFINITION. Machine/Step.lean: one step of the part: the command at the front of the queue, or, on an empty queue, a tick. -/

namespace Sys2Proof.Machine

/-- An empty queue: one millisecond passes (log 2). -/
def State.tick (s : State) : State := { s with clock := s.clock + 1 }

/-- One step: the command at the front of the queue is taken with the queue's rest; on an empty queue the clock ticks (log 2). -/
def step (s : State) : Host.Outcome State Fault Refusal :=
  match s.pending with
  | [] => .next s.tick
  | c :: rest => exec c { s with pending := rest }

/-- The state with the command that a word spells at the front of its queue; unchanged where it spells none. -/
def State.withFetchWord (s : State) (nbits w : Nat) : State :=
  match decodeTableWord nbits w with
  | some c => { s with pending := c :: s.pending }
  | none => s

end Sys2Proof.Machine
end

