-- ==== Sys2Proof/Safety.lean ====
section
/-! DEFINITION. Safety.lean: the terms in which statements about the part are made: when a request is taken, what answering one does, when
a group has begun, and the invariants of a safe run. -/

namespace Sys2Proof.Machine

/-- The part takes a management request now (R165 steps 2 to 4): it has power, is READY, and the executor is FREE. -/
def State.takesRequest (s : State) : Prop :=
  s.power.powered = true ∧ s.power.part = .ready ∧ s.executor.status = .free

/-- The state after a taken request has been answered that changed nothing else: the reply is handed over, the executor is FREE, the
authority idle timer starts anew, and the trigger idle timer was restarted when the request was taken (R71, R110, R162, R164). -/
def State.answered (s : State) (kind : Nat) (tag : Byte) (code : Code) (payload : Payload) : State :=
  { s.restartIdle.say (replyTo kind tag code payload) with executor := freeExecutor, authTimer := none }

/-- The request executor's group of these records has begun to be written: it takes the last closed number plus 1 and starts at its
first copy (R76, R77); no copy of any cell has changed yet; the request holds the executor (R166). -/
def beginsGroup (s t : State) (records : List Record) : Prop :=
  t.store.writing = some
      { group := { submitter := .executor, records := records, effects := [.request], rewrites := false, final := false }
        number := s.store.lastClosed + 1, stage := .copies 0 0 } ∧
    { t.store with queue := s.store.queue, writing := s.store.writing, held := s.store.held } = s.store ∧
    t.executor.status = .executing ∧ t.executor.stage = .submitted

/-- A RANGE-STAGE that names a range, field value or slot outside its set, or places range 0 (the BAD_BODY cases of R15). -/
def stageMisnamed (x : StageArgs) : Prop :=
  15 < x.range ∨ (x.range = 0 ∧ (x.start.isSome = true ∨ x.length.isSome = true)) ∨ x.lockedRead = some .unknown ∨
    x.sleep = some .unknown ∨ x.response = some .unknown ∨ (∃ u, x.unitSize = some u ∧ u ≠ 512 ∧ u ≠ 4096) ∨
    ∃ l, x.access = some l ∧ (¬ l.Nodup ∨ ∃ n ∈ l, 7 < n)

/-- A defined range among 1 to 15 owns an LBA in the committed table (R3). -/
def State.owns (s : State) (r : RangeId) (x : Nat) : Prop :=
  r ≠ 0 ∧ (s.range r).fields.start ≤ x ∧ x < (s.range r).fields.start + (s.range r).fields.length

/-! ### What the checks of RANGE-COMMIT refuse (R18) -/

/-- The lowest range a check concerns. -/
def lowestRange (p : RangeId → Prop) (r : RangeId) : Prop := p r ∧ ∀ q, q < r → ¬ p q

/-- The staging copy has the range defined (R2, R3). -/
def State.stagesRange (s : State) (r : RangeId) : Prop := r = 0 ∨ s.staging[r].fields.length ≠ 0

/-- A range among 1 to 15 is staged to own an LBA. -/
def State.stagedOwns (s : State) (r : RangeId) (x : Nat) : Prop :=
  r ≠ 0 ∧ s.staging[r].fields.start ≤ x ∧ x < s.staging[r].fields.start + s.staging[r].fields.length

/-- Check 3: the staged range shares an LBA with another. -/
def State.stagesOverlap (s : State) (r : RangeId) : Prop := ∃ q x, q ≠ r ∧ s.stagedOwns r x ∧ s.stagedOwns q x

/-- Check 4: the staged range ends beyond the capacity. -/
def State.stagesBeyond (s : State) (r : RangeId) : Prop :=
  r ≠ 0 ∧ s.staging[r].fields.length ≠ 0 ∧ s.profile.capacity < s.staging[r].fields.start + s.staging[r].fields.length

/-- Check 5: the range differs or carries a mark, and is ERASING. -/
def State.stagesErasing (s : State) (r : RangeId) : Prop :=
  s.table[r].service = .erasing ∧ (s.staging[r].fields ≠ (s.range r).fields ∨ s.staging[r].newKey = true)

/-- A slot stands on the staged access list and not on the committed one. -/
def State.stagesSlot (s : State) (r : RangeId) (i : SlotId) : Prop :=
  i ∈ s.staging[r].fields.access ∧ i ∉ (s.range r).fields.access

/-- Check 6: such a slot is EMPTY. -/
def State.stagesEmptySlot (s : State) (r : RangeId) : Prop := ∃ i, s.stagesSlot r i ∧ (s.cred i).state = .empty

/-- The switch gives the range a fresh key: it is created, or carries a mark and stays defined (R18 check 7, R3; log 30). -/
def State.stagesFreshKey (s : State) (r : RangeId) : Prop :=
  s.stagesRange r ∧ ((r ≠ 0 ∧ (s.range r).fields.length = 0) ∨ s.staging[r].newKey = true)

/-- The access list of the range grows; that of a range being removed becomes empty instead (R22). -/
def State.stagesGrowth (s : State) (r : RangeId) : Prop :=
  (∃ i, s.stagesSlot r i) ∧ (s.stagesRange r ∨ (s.range r).fields.length = 0)

/-- The range stays defined and loses its last enabled lock. -/
def State.stagesUnlocked (s : State) (r : RangeId) : Prop :=
  s.stagesRange r ∧ (s.range r).fields.anyLock = true ∧ s.staging[r].fields.anyLock = false

/-- Check 7: a wrap must be made of a key that the Key Cache does not hold. -/
def State.stagesWithoutKey (s : State) (r : RangeId) : Prop :=
  ¬ s.stagesFreshKey r ∧ (s.stagesGrowth r ∨ s.stagesUnlocked r) ∧ (s.key (.range r)).state = .empty

/-! ### Requests -/

/-- The tag of a management request (R162); none for a command of another port. -/
def requestTag : Instr → Option Byte
  | .status tag _ => some tag
  | .eventsEnable tag _ => some tag
  | .eventsAck tag _ => some tag
  | .authenticate tag _ => some tag
  | .authorityEnd tag _ => some tag
  | .rangeUnlock tag _ => some tag
  | .rangeLock tag _ => some tag
  | .rangeStage tag _ => some tag
  | .rangeDiscard tag _ => some tag
  | .rangeCommit tag _ => some tag
  | .rangeRead tag _ => some tag
  | .credSet tag _ => some tag
  | .credPolicy tag _ => some tag
  | .credStateEnable tag _ => some tag
  | .credStateDisable tag _ => some tag
  | .credStateReopen tag _ => some tag
  | .shadowConfig tag _ => some tag
  | .shadowLoadOpen tag _ => some tag
  | .shadowLoadClose tag _ => some tag
  | .shadowDone tag _ => some tag
  | .bindEnroll tag _ => some tag
  | .bindCheck tag _ => some tag
  | .triggerSet tag _ => some tag
  | .lockdownClear tag _ => some tag
  | .wipeTokenSet tag _ => some tag
  | .wipeTokenClear tag _ => some tag
  | .wipe tag _ => some tag
  | .resetPart tag _ => some tag
  | _ => none

/-- ALERT is asserted exactly when some event kind is both pending and enabled (R177). -/
def State.alertRight (s : State) : Prop := s.events.alert = s.events.alertDue

/-- Authority is absent while the part is SLEEP_ENTERING, ASLEEP, STARTING or FAILSAFE (R71). -/
def State.authorityOnlyInReady (s : State) : Prop := s.authority.isSome = true → s.power.part = .ready

/-- A run is safe while both hold: ALERT tells of every enabled pending event, and no authority outlasts READY. -/
def State.safe (s : State) : Prop := s.alertRight ∧ s.authorityOnlyInReady

/-! ### The Key Cache against the transfers in flight (R33, R34) -/

/-- The segment is WAITING or IN_LANE, the steps in which it may hold a key reference (R33). -/
def Segment.unfinished (g : Segment) : Bool := g.step = .waiting || g.step = .inLane

/-- How many WAITING and IN_LANE segments of a transfer reference an owner's entry. -/
def Transfer.references (x : Transfer) (o : Owner) : Nat :=
  (x.segments.filter (fun g => g.unfinished ∧ g.keyRef = some o)).length

/-- How many WAITING and IN_LANE segments reference an owner's entry: what its reference count must be (R34). -/
def State.references (s : State) (o : Owner) : Nat :=
  (allTags.map (fun t => match s.inflight[t] with
    | some x => x.references o
    | none => 0)).sum

/-- The Key Cache agrees with the transfers in flight (R33, R34): material is absent exactly in EMPTY, a DRAINING entry has references, a
count is the number of WAITING and IN_LANE segments that reference the entry, and only such a segment of a live transfer holds a
reference, on its owner's entry. -/
def State.keysRight (s : State) : Prop :=
  (∀ o, (s.key o).material = none ↔ (s.key o).state = .empty) ∧ (∀ o, (s.key o).state = .draining → 0 < (s.key o).refs) ∧
    (∀ o, (s.key o).refs = s.references o) ∧
    ∀ (t : Tag) (x : Transfer), s.inflight[t] = some x →
      x.live = true ∧ ∀ g ∈ x.segments, ∀ o, g.keyRef = some o → g.owner = o ∧ g.unfinished = true

/-- An entry after `n` of its references have been released: the count falls by `n`, and a DRAINING entry whose count that brings to 0 is
erased (R36). -/
def KeyEntry.released (e : KeyEntry) (n : Nat) : KeyEntry :=
  if n ≠ 0 ∧ e.refs - n = 0 ∧ e.state = .draining then emptyKey else { e with refs := e.refs - n }

/-- How many segments of a transfer satisfy `p` and hold a reference on an owner's entry. -/
def Transfer.holds (x : Transfer) (o : Owner) (p : Segment → Bool) : Nat :=
  (x.segments.filter (fun g => p g ∧ g.keyRef = some o)).length

/-- A transfer has left the in-flight table: its tag is free, it holds no reference any more, and these messages were sent (R32, R36). -/
def transferEnded (s x : State) (t : Tag) (y : Transfer) (messages : List Sent) : Prop :=
  x.inflight = s.inflight.set t none ∧ x.sent = s.sent ++ messages ∧
    ∀ o, x.key o = (s.key o).released (y.holds o (fun _ => true))

/-- Segment `i` of a transfer has had its last block moved, and its lane is idle (R41): the segment is FINISHED without its reference where
a RUNNING transfer has a later one; a RUNNING transfer ends DONE with its last segment, and a CANCELLING one ends CANCELLED. `data` is what
the last block sent. -/
def segmentCompleted (s x : State) (l : LaneId) (t : Tag) (i : Nat) (y : Transfer) (data : List Sent) : Prop :=
  x = { s with
    lanes := s.lanes.set l idleLane, inflight := x.inflight, cache := x.cache, shadowEntry := x.shadowEntry, sent := x.sent } ∧
  (y.state = .running → i + 1 < y.segments.length → x.sent = s.sent ++ data ∧
    x.inflight = s.inflight.set t (some { y with
      segments := y.segments.modify i (fun g => { g with progress := g.progress + 1, step := .finished, keyRef := none }) }) ∧
    ∀ o, x.key o = (s.key o).released (if y.segments[i]?.bind (·.keyRef) = some o then 1 else 0)) ∧
  (y.state = .running → i + 1 = y.segments.length → transferEnded s x t y (data ++ [.completion t .done none none])) ∧
  (y.state = .cancelling → transferEnded s x t y (data ++ [.completion t .cancelled none y.failingLba]))

/-! ### Media operations (R38) -/

/-- The blocks for which a lane that works a segment issues media operations now: in ascending order from the first block that is neither
moved, nor fetched, nor issued, to the segment's last, as far as the lane's window allows (R38; log 13). A ZERO segment, a stopping lane and
one that has met a media error issue none (R8, R31, R42). -/
def State.issues (s : State) (lane : Lane) (g : Segment) : List Nat :=
  let under := lane.fetched.length + lane.issued.length
  if lane.stopping = true ∨ lane.failing.isSome = true ∨ g.disposition = .zero then []
  else List.range' (g.first + g.progress + under) (min (g.count - (g.progress + under)) (s.laneWindow - under))

/-- The media operations of these blocks (R38, R31): a media read of the block's media LBA, or a media write of the host's block, each data
unit enciphered under the owner's key and the segment's tweaks. The host's data are free values (log 12). -/
def State.mediaOps (s : State) (l : LaneId) (d : Direction) (g : Segment) (blocks : List Nat) : List Sent :=
  match d with
  | .read => blocks.map (fun n => .mediaRead l (s.mediaLba g.owner n))
  | .write => blocks.mapIdx (fun j n => .mediaWrite l (s.mediaLba g.owner n)
      (overUnits Config.encipher (s.laneKey g.owner) g.tweakBase s.profile.blockSize n (Config.hostBlock (s.entropy + j))))

/-! ### Aborts (R37) -/

/-- An abort of some owners reaches the transfer: it is live and has a segment of one of them. -/
def Transfer.hitBy (y : Transfer) (owners : Owner → Bool) : Bool := y.live && y.segments.any (fun g => owners g.owner)

/-- How many references on an owner's entry the transfers hold that an abort of some owners reaches. -/
def State.refsHit (s : State) (owners : Owner → Bool) (o : Owner) : Nat :=
  (allTags.map (fun t => match s.inflight[t] with
    | some y => if y.hitBy owners then y.holds o (fun _ => true) else 0
    | none => 0)).sum

/-- What an abort of some owners with a reason does to the transfers and the lanes: a transfer it reaches keeps the reason of its first
abort; where its lane has an operation unanswered it is ABORTING, its WAITING segments discarded and no reference held, and the lane stops;
otherwise it is ABORTED, its tag free, and its completion among the messages sent. Every other transfer and lane stays as it was. -/
def transfersAborted (s x : State) (owners : Owner → Bool) (reason : AbortReason) : Prop :=
  (∀ (t : Tag) (y : Transfer), s.inflight[t] = some y → y.hitBy owners = true →
    (∀ l, s.laneOf t = some l → s.lanes[l].issued ≠ [] →
      x.inflight[t] = some { y with
        segments := y.segments.map (fun g => if g.step = .waiting then { g with step := .discarded, keyRef := none }
          else { g with keyRef := none })
        state := .aborting, abortReason := some (y.firstReason reason) } ∧
      x.lanes[l] = { s.lanes[l] with stopping := true, fetched := [] }) ∧
    ((∀ l, s.laneOf t = some l → s.lanes[l].issued = []) →
      x.inflight[t] = none ∧ (∀ l, s.laneOf t = some l → x.lanes[l] = idleLane) ∧
      ∃ more, x.sent = s.sent ++ more ∧ Sent.completion t .aborted (some (y.firstReason reason)) none ∈ more)) ∧
  (∀ t : Tag, (∀ y, s.inflight[t] = some y → y.hitBy owners = false) → x.inflight[t] = s.inflight[t]) ∧
  (∀ l : LaneId, (∀ (t : Tag) (y : Transfer), s.inflight[t] = some y → y.hitBy owners = true → s.laneOf t ≠ some l) →
    x.lanes[l] = s.lanes[l])

/-- The owners that an acceptance of a wipe marks at once (R125): among the new items' targets, and with the full-wipe flag among all
defined ranges, the ranges that are ACTIVE or in LOCKDOWN; and the shadow as a new item's target, or under the full-wipe flag when its item
is DONE. -/
def State.marksAtOnce (s : State) (targets : List Owner) (full : Bool) : Owner → Bool
  | .range r => decide (s.table[r].service = .active ∨ s.table[r].service = .lockdown) &&
      (decide (Owner.range r ∈ targets ∧ s.wipe.intended.item (.range r) = none) || (full && s.defined r))
  | .shadow => decide (Owner.shadow ∈ targets ∧ s.wipe.intended.item .shadow = none) ||
      (full && (s.wipe.intended.item .shadow).any (fun i => i.step = .done))

/-! ### A RANGE-COMMIT in its drain wait (R19, R20) -/

/-- The RANGE-COMMIT `c` is in its drain wait: each affected range is named once, with the state it had, ACTIVE or UNDEFINED (R18, R19). -/
def State.commitWaits (s : State) (c : Commit) : Prop :=
  s.executor.status = .executing ∧ s.executor.job = .commit c ∧ s.executor.stage = .working ∧ (c.affected.map (·.1)).Nodup ∧
    ∀ p ∈ c.affected, p.2 = .active ∨ p.2 = .undefined

/-- The service state of every range once that commit has ended: an affected range in UPDATING is back in its previous state (R20). -/
def State.statesBefore (s : State) (c : Commit) (before : RangeId → Service) : Prop :=
  (∀ p ∈ c.affected, s.table[p.1].service = .updating → before p.1 = p.2) ∧
    ∀ r : RangeId, r ∉ c.affected.map (·.1) ∨ s.table[r].service ≠ .updating → before r = s.table[r].service

/-! ### Entry into FAILSAFE (R85) -/

/-- What entry into FAILSAFE leaves of the whole part, beside the reply to a request: authority has ended, every enabled direction is
closed, every entry drained, an overwrite stopped and without key and position, an exchange ended; nothing is queued or written, the last
closed number stands, STORE_FAULT is pending, and the transfers go on. -/
def failsafeEntered (s x : State) : Prop :=
  x.power = { s.power with part := .failsafe, hold := false, drained := false } ∧ x.authority = none ∧ x.authTimer = none ∧
    EventKind.storeFault ∈ x.events.pending ∧
    x.store.lastClosed = s.store.lastClosed ∧ x.store.writing = none ∧ x.store.queue = [] ∧ x.store.held = [] ∧
    (∀ r : RangeId, x.table[r].readLocked = (s.range r).fields.readLock ∧ x.table[r].writeLocked = (s.range r).fields.writeLock) ∧
    (∀ o, x.key o = if (s.key o).state = .live then
      (if (s.key o).refs = 0 then emptyKey else { s.key o with state := .draining }) else s.key o) ∧
    x.inflight = s.inflight ∧
    (∀ l : LaneId, x.lanes[l] = if s.overwriteLane = some l then
      (if s.lanes[l].issued = [] then idleLane else { s.lanes[l] with stopping := true, fetched := [] }) else s.lanes[l]) ∧
    x.wipe.intended = s.plan ∧ x.wipe.asked = false ∧ x.wipe.key = none ∧ x.wipe.position = none ∧ x.wipe.count = 0 ∧
    x.binding.exchange = .none ∧ x.binding.state = s.binding.state

/-! ### Replies (R162) -/

/-- The lists a reply carries have no more entries than what they list: 16 ranges, 14 event kinds, 8 slots, 4 triggers. -/
def Payload.bounded : Payload → Prop
  | .authenticated _ applied skipped => applied.length ≤ 16 ∧ skipped.length ≤ 16
  | .rangeRead r => r.committed.access.length ≤ 8 ∧ r.staged.fields.access.length ≤ 8
  | .credSet _ dropped => dropped.length ≤ 16
  | .events enabled pending => enabled.length ≤ 14 ∧ pending.length ≤ 14
  | .pendingEvents pending => pending.length ≤ 14
  | .status r =>
    r.ranges.length ≤ 16 ∧ r.pending.length ≤ 14 ∧ r.enabled.length ≤ 14 ∧ r.lockdown.causes.length ≤ 4 ∧ r.detail.length ≤ 4
  | .none => True
  | .failed .. => True
  | .retryAfter _ => True
  | .range _ => True
  | .locks .. => True
  | .generation _ => True
  | .credPolicy .. => True
  | .credState .. => True
  | .shadowConfig .. => True
  | .shadowState _ => True
  | .enrolment .. => True
  | .triggers _ => True
  | .items _ => True

/-! ### Records in the store (R74, R75, R77) -/

/-- One copy of the record's cell holds this record, with a version, a tag and a check. -/
def Record.isCopy (st : Store) (side : Side) (version tag : Count32) (passes : Bool) : Record → Prop
  | .cred i r => st.creds[i].copy side = ⟨r, version, tag, passes⟩
  | .range n r => st.ranges[n].copy side = ⟨r, version, tag, passes⟩
  | .shadow r => st.shadow.copy side = ⟨r, version, tag, passes⟩
  | .counters r => st.counters.copy side = ⟨r, version, tag, passes⟩
  | .binding r => st.binding.copy side = ⟨r, version, tag, passes⟩
  | .triggers r => st.triggers.copy side = ⟨r, version, tag, passes⟩
  | .lockdown r => st.lockdown.copy side = ⟨r, version, tag, passes⟩
  | .plan r => st.plan.copy side = ⟨r, version, tag, passes⟩
  | .token r => st.token.copy side = ⟨r, version, tag, passes⟩

/-- The effective side of a cell (R75). -/
def Store.effectiveSide (st : Store) : Cell → Option Side
  | .profile => st.profile.effective
  | .cred i => st.creds[i].effective
  | .range r => st.ranges[r].effective
  | .shadow => st.shadow.effective
  | .counters => st.counters.effective
  | .binding => st.binding.effective
  | .triggers => st.triggers.effective
  | .lockdown => st.lockdown.effective
  | .plan => st.plan.effective
  | .token => st.token.effective
  | .marker => st.marker.effective

/-- The copy that the next write of the record's cell goes to (R75) holds the record's content. -/
def Record.inTarget (st : Store) : Record → Prop
  | .cred i r => (st.creds[i].copy st.creds[i].target).content = r
  | .range n r => (st.ranges[n].copy st.ranges[n].target).content = r
  | .shadow r => (st.shadow.copy st.shadow.target).content = r
  | .counters r => (st.counters.copy st.counters.target).content = r
  | .binding r => (st.binding.copy st.binding.target).content = r
  | .triggers r => (st.triggers.copy st.triggers.target).content = r
  | .lockdown r => (st.lockdown.copy st.lockdown.target).content = r
  | .plan r => (st.plan.copy st.plan.target).content = r
  | .token r => (st.token.copy st.token.target).content = r

/-- The record is what its owner reads of its cell (R80). -/
def Record.inEffect (s : State) : Record → Prop
  | .cred i r => s.cred i = r
  | .range n r => s.range n = r
  | .shadow r => s.shadowRecord = r
  | .counters r => s.counters = r
  | .binding r => s.bindingRecord = r
  | .triggers r => s.triggers = r
  | .lockdown r => s.lockdownRecord = r
  | .plan r => s.plan = r
  | .token r => s.token = r

/-! ### The store scan (R75, R82, R84) -/

/-- What a relation says of the copies of one cell before and after, whatever the cell's content. -/
def Store.onCell (old new : Store) (p : {α : Type} → CellPair α → CellPair α → Prop) : Cell → Prop
  | .profile => p old.profile new.profile
  | .cred i => p old.creds[i] new.creds[i]
  | .range r => p old.ranges[r] new.ranges[r]
  | .shadow => p old.shadow new.shadow
  | .counters => p old.counters new.counters
  | .binding => p old.binding new.binding
  | .triggers => p old.triggers new.triggers
  | .lockdown => p old.lockdown new.lockdown
  | .plan => p old.plan new.plan
  | .token => p old.token new.token
  | .marker => p old.marker new.marker

/-- The scan finds a copy of a cell passing: it passed when it was written and has not decayed since (R75, R82; log 18). -/
def CellPair.found {α : Type} (pair : CellPair α) (c : Cell) (scan : ScanFindings) (side : Side) : Prop :=
  (pair.copy side).passes = true ∧ (c, side) ∉ scan.decayed

/-- A scan settles a cell (R82 steps 2 to 5). A copy remains when it passes and does not carry the `unclosed` tag; the cell is in the list of
group `last`, or in no list that counts. With no copy remaining the cell has failed in both copies. A copy that remains alone is effective and
is written over the other, where the repair write passes; of two that remain the one whose version is the other's plus 1 is effective, and of
two with equal versions either. A cell whose effective copy would not be the one that group `last` wrote has failed in both copies. No copy
with the unclosed tag passes any more. -/
def CellPair.settled {α : Type} (old new : CellPair α) (c : Cell) (scan : ScanFindings) (unclosed last : Option Count32) : Prop :=
  let remains := fun side => old.found c scan side ∧ unclosed ≠ some (old.copy side).tag
  let whole := fun side => ∀ z, last = some z → (old.copy side).tag = z
  ((∀ side, ¬ remains side) → new.effective = none) ∧
  (∀ side, remains side → ¬ remains (otherSide side) →
    (¬ whole side → new.effective = none) ∧
    (whole side → new.effective = some side ∧ new.copy side = old.copy side ∧
      new.copy (otherSide side) = { old.copy side with passes := decide (c ∉ scan.repairFails) })) ∧
  (∀ side, remains side → remains (otherSide side) →
    (old.copy side).version = (old.copy (otherSide side)).version + 1 →
      (¬ whole side → new.effective = none) ∧
      (whole side → new.effective = some side ∧ ∀ which, new.copy which = old.copy which)) ∧
  ((∀ side, remains side) → (old.copy .a).version = (old.copy .b).version →
    ((∀ side, ¬ whole side) → new.effective = none) ∧
    ((∀ side, whole side) → new.effective.isSome = true ∧ ∀ which, new.copy which = old.copy which)) ∧
  ∀ side, (new.copy side).passes = true → unclosed ≠ some (new.copy side).tag

/-- A cell has failed at a scan (R84, R82 step 5): it has no effective copy, or the repair of its other copy has failed. -/
def CellPair.scanFailed {α : Type} (new : CellPair α) : Prop :=
  ∀ side, new.effective = some side → (new.copy (otherSide side)).passes = false

/-- A group is ready to close: its marker is being written, and its records, each for a cell of its own, stand in the copies that its close
makes effective (R77). -/
def State.readyToClose (s : State) (g : Group) : Prop :=
  s.power.powered = true ∧ (∃ number tries, s.store.writing = some { group := g, number := number, stage := .marker tries }) ∧
    g.cells.Nodup ∧ ∀ r ∈ g.records, r.inTarget s.store

/-- The group that the request in execution submits of some records (R166). -/
def requestGroup (records : List Record) : Group :=
  { submitter := .executor, records := records, effects := [.request], rewrites := false, final := false }

/-- A request ready to submit does so at once (R129): no group of the request executor and no key step, trim or final group waits in the
store. -/
def State.submitsAtOnce (s : State) : Prop := ∀ g ∈ s.store.waitingGroups, g.submitter ≠ .executor ∧ g.rewrites = false

/-- A range on whose access list the slot stands, and whose key a CRED-SET of the slot cannot obtain (R67). -/
abbrev State.keyMissing (s : State) (i : SlotId) (r : RangeId) : Prop := i ∈ (s.range r).fields.access ∧ s.credSetKey i r = none

/-- A group of the Wipe Engine that is no final group. -/
def wipeGroup (records : List Record) (effects : List Effect) (rewrites : Bool) : Group :=
  { submitter := .wipeEngine, records := records, effects := effects, rewrites := rewrites, final := false }

/-- The group by which the CHARGE stage settles an attempt of a slot as failed (R152). -/
def chargeGroup (i : SlotId) (lockedOut : Bool) (records : List Record) : Group :=
  { submitter := .executor, records := records, effects := [.chargeStage i lockedOut], rewrites := false, final := false }

/-- RESTORE marks the target erasing (R137, R153 step 3): the plan has the full-wipe flag set or holds an item of it that is not DONE. -/
def State.restoreErases (s : State) (o : Owner) : Bool :=
  s.plan.full || s.plan.items.any (fun i => i.target = o ∧ i.step ≠ .done)

/-- The window is presented at READY (R155 step 1): the shadow is enabled, and a defined range has a lock enabled. -/
def State.presentsShadow (s : State) : Bool :=
  s.shadowRecord.enabled && allRanges.any (fun r => s.defined r && s.anyLock r)

/-- The first CHALLENGE page of a round (R94): toggle 1 after the toggle was set to 0, bytes 0 to 15 of the challenge. -/
def firstChallenge (challenge : Word32) : Sent :=
  .page { kind := .challenge, toggle := true, more := true, acknowledge := false, index := 0, payload := firstHalfOf challenge }

/-- The binding fields at the start of a round with a fresh challenge (R94). -/
def Binding.inRound (b : Binding) (challenge : Word32) (now : Nat) : Binding :=
  { b with toggle := true, challenge := some challenge, firstHalf := none, exchange := .check (.sending 0), waitSince := now }

end Sys2Proof.Machine
end

