-- ==== Sys2Proof/WellFormed.lean ====
section
/-! DEFINITION. WellFormed.lean: which commands their ports can carry: the forms of R170 and R171 and the frame checks of R163. A request
body that does not fit its form is itself a command (`misfit`, R166 step 1). -/

namespace Sys2Proof

/-- Findings of a scan name no copy and no cell twice. -/
def scanOk (f : ScanFindings) : Bool := f.decayed.Nodup ∧ f.repairFails.Nodup

/-- A media answer carries one block of 512 or 4096 bytes (scope section 3), or nothing for a write. -/
def laneEventOk : LaneEvent → Bool
  | .answer data => data.length = 0 ∨ data.length = 512 ∨ data.length = 4096
  | .delivered => true

/-- A body that fits satisfies `p`. -/
def bodyOk {α : Type} (p : α → Bool) : Body α → Bool
  | .fits a => p a
  | .misfit => true

/-- A secret of 8 to 64 bytes (R170). -/
def secretForm (x : List Byte) : Bool := 8 ≤ x.length ∧ x.length ≤ 64

/-- An access list of at most 8 slots (R170). -/
def accessForm (x : StageArgs) : Bool := (x.access.getD []).length ≤ 8

/-- A start and a length that the bytes of their fields can carry (R170, log 14). -/
def placesForm (x : StageArgs) : Bool := x.start.all (· ≤ Config.stagedMax) && x.length.all (· ≤ Config.stagedMax)

/-- A scope of 1 to 17 targets or ALL, and a credential of 32 bytes (R170). -/
def wipeForm (x : WipeArgs) : Bool :=
  (match x.scope with
   | .targets ts => decide (1 ≤ ts.length ∧ ts.length ≤ 17)
   | .all => true) &&
  (match x.credential with
   | .absent => true
   | .token t => t.length = 32
   | .factorySecret f => f.length = 32)

/-- The record is malformed (R163). -/
def malformed (record : List Byte) : Bool := Machine.checkFrame record = .malformed

/-- The record is a frame of a kind outside 1 to 24 (R163). -/
def foreignKind (record : List Byte) : Bool :=
  match Machine.checkFrame record with
  | .malformed => false
  | .frame kind _ _ => kind.toNat = 0 ∨ 24 < kind.toNat

/-- The command is one its port can carry. -/
def wellFormed : Instr → Bool
  | .powerOn scan => scanOk scan
  | .powerLoss _ => true
  | .restore => true
  | .partRestart scan => scanOk scan
  | .admitRequest .. => true
  | .cancel _ => true
  | .frontReset => true
  | .mediaAcknowledge _ event => laneEventOk event
  | .mediaError _ block => block < 2 ^ 40 + 65536
  | .copyWriteDone _ => true
  | .groupClose scan => scanOk scan
  | .drainWaitEnd => true
  | .drainLimitExpiry => true
  | .derivationComplete => true
  | .authorityIdleExpiry => true
  | .bayEdge _ => true
  | .bayStabilityExpiry => true
  | .idleTimerExpiry => true
  | .recheckTimerExpiry => true
  | .tetherPageReceived _ => true
  | .tetherFault => true
  | .pageTimeout => true
  | .roundWaitExpiry => true
  | .enrolRetryExpiry => true
  | .slpAsserted => true
  | .sleepEntry => true
  | .sleepDrop => true
  | .sleepReady => true
  | .slpReleased => true
  | .keyStep => true
  | .overwriteStart => true
  | .badFrame record => malformed record
  | .unknownKind record => foreignKind record
  | .status .. => true
  | .eventsEnable _ body => bodyOk (fun l => l.length ≤ 14) body
  | .eventsAck _ body => bodyOk (fun l => l.length ≤ 14) body
  | .authenticate _ body => bodyOk (fun x => secretForm x.secret && decide (x.unlock.length ≤ 16)) body
  | .authorityEnd .. => true
  | .rangeUnlock .. => true
  | .rangeLock .. => true
  | .rangeStage _ body => bodyOk (fun x => accessForm x && placesForm x) body
  | .rangeDiscard .. => true
  | .rangeCommit .. => true
  | .rangeRead .. => true
  | .credSet _ body => bodyOk (fun x => secretForm x.secret) body
  | .credPolicy .. => true
  | .credStateEnable .. => true
  | .credStateDisable .. => true
  | .credStateReopen .. => true
  | .shadowConfig .. => true
  | .shadowLoadOpen .. => true
  | .shadowLoadClose .. => true
  | .shadowDone .. => true
  | .bindEnroll .. => true
  | .bindCheck .. => true
  | .triggerSet .. => true
  | .lockdownClear .. => true
  | .wipeTokenSet _ body => bodyOk (fun t => decide (t.length = 32)) body
  | .wipeTokenClear .. => true
  | .wipe _ body => bodyOk wipeForm body
  | .resetPart .. => true

/-- The kind number a management request carries (R170); none for a command of another port and for BAD_FRAME and UNKNOWN_KIND. -/
def requestKind : Instr → Option Nat
  | .status .. => some 1
  | .eventsEnable .. => some 2
  | .eventsAck .. => some 3
  | .authenticate .. => some 4
  | .authorityEnd .. => some 5
  | .rangeUnlock .. => some 6
  | .rangeLock .. => some 7
  | .rangeStage .. => some 8
  | .rangeDiscard .. => some 9
  | .rangeCommit .. => some 10
  | .rangeRead .. => some 11
  | .credSet .. => some 12
  | .credPolicy .. => some 13
  | .credStateEnable .. => some 14
  | .credStateDisable .. => some 14
  | .credStateReopen .. => some 14
  | .shadowConfig .. => some 15
  | .shadowLoadOpen .. => some 16
  | .shadowLoadClose .. => some 16
  | .shadowDone .. => some 17
  | .bindEnroll .. => some 18
  | .bindCheck .. => some 19
  | .triggerSet .. => some 20
  | .lockdownClear .. => some 21
  | .wipeTokenSet .. => some 22
  | .wipeTokenClear .. => some 22
  | .wipe .. => some 23
  | .resetPart .. => some 24
  | _ => none

end Sys2Proof
end

