-- ==== Sys2Proof/Certificates/Slice0/Obligations.lean ====
section
/-! DEFINITION. Certificates/Slice0/Obligations.lean: the statements for the provers. In a conclusion `exec c s = .next (settle x)`, `x` is
the command's own effect and `settle` what falls in the same event (log 3); `SettleKeepsReadyPart` says what that leaves alone. Where `x`
is given as `s` with some fields replaced by `x`'s own, every other field is unchanged. -/

open Sys2Proof Sys2Proof.Machine

/-! ### The machine -/

/-- One step takes the command at the front of the queue and runs it with the queue's rest. On an empty queue a step lets one
millisecond pass and changes nothing else (the model's choice, log 2). -/
def Obligations.StepTakesFrontCommandOrTicks : Prop :=
  (∀ (c : Instr) (rest : List Instr) (s : State), step { s with pending := c :: rest } = exec c { s with pending := rest }) ∧
  (∀ s : State, s.pending = [] → step s = .next { s with clock := s.clock + 1 })

/-- No command changes the queue of waiting commands. The queue is the model's own device (log 6): this is a frame over every command. -/
def Obligations.CommandsKeepQueue : Prop :=
  ∀ (c : Instr) (s t : State), exec c s = .next t → t.pending = s.pending

/-- R177: at every step ALERT stays asserted exactly when some kind is both pending and enabled. -/
def Obligations.EveryStepKeepsAlert : Prop :=
  ∀ s : State, s.alertRight → ∀ t, step s = .next t → t.alertRight

/-- R71: at every step authority stays absent outside READY. -/
def Obligations.EveryStepKeepsAuthorityInReady : Prop :=
  ∀ s : State, s.authorityOnlyInReady → ∀ t, step s = .next t → t.authorityOnlyInReady

/-- R34, R33: every step keeps the Key Cache in agreement with the transfers in flight: material is absent exactly in EMPTY, a DRAINING
entry has references, an entry's count is the number of WAITING and IN_LANE segments that reference it, and only such a segment of a
live transfer holds a reference, on its own owner's entry. -/
def Obligations.EveryStepKeepsKeyCache : Prop :=
  ∀ s : State, s.keysRight → ∀ t, step s = .next t → t.keysRight

/-- The state after reset is safe: ALERT is right and no authority is held; and its Key Cache agrees with its transfers, of which there
are none. -/
def Obligations.ResetIsSafe : Prop :=
  State.reset.safe ∧ State.reset.authority = none ∧ State.reset.events.alert = false ∧ State.reset.keysRight ∧
    (∀ o, State.reset.key o = emptyKey)

/-- What falls in the same event as a change, while the part is READY and not about to sleep: no lock, service state, shadow state,
authority, part state, pending or enabled event, staged entry, open-at time or copy of a cell changes. -/
def Obligations.SettleKeepsReadyPart : Prop :=
  ∀ s : State, s.power.part = .ready → s.power.hold = false →
    (settle s).table = s.table ∧ (settle s).shadow = s.shadow ∧ (settle s).authority = s.authority ∧
      (settle s).power = s.power ∧ (settle s).events.pending = s.events.pending ∧ (settle s).events.enabled = s.events.enabled ∧
      (settle s).events.detail = s.events.detail ∧ (settle s).staging = s.staging ∧ (settle s).openAt = s.openAt ∧
      (settle s).trigger.working = s.trigger.working ∧ (settle s).clock = s.clock ∧
      { (settle s).store with queue := s.store.queue, writing := s.store.writing, held := s.store.held } = s.store

/-! ### Byte layouts (10.5) -/

/-- R171: ADMIT, CANCEL and FRONT_RESET messages are read back from their bytes whatever their fields hold, and no other length or kind is
read; the ADMITTED, REFUSED, CANCEL reply and completion messages carry their kind byte and their fields in order, as long as the rule has
them (the failing LBA's bytes where it is absent are free, log 64). R172: a tether page of any listed kind, flags and index 0 to 2 is read
back from its 20 bytes. R163, R171: a channel frame of any kind, tag and body of at most 512 bytes passes the frame checks and is read back;
one of kind 1 to 24 is a request of that kind with that tag, another is UNKNOWN_KIND, and a record that fails the checks is BAD_FRAME. R162,
R170: a kind without fields fits an empty body alone; a set of event kinds is read with its count ahead of its entries, an optional field
behind its presence mark, and a body with bytes left over fits no form; a number is as wide as the values it must hold (beyond that its
width is open up to 4 bytes, and which mark but 0 a present value has is open, log 14). R162, R168: a reply that carries no value is the
frame of its kind, its tag and its code's byte; an absent value is a presence mark of 0; a reply whose lists have no more entries than what
they list has a body of at most 512 bytes and is read back as a frame. R15, R17: a RANGE-STAGE that a record carries has a start and a
length of at most 6 bytes, and RANGE-READ returns a staged start and length of that size whole (their width: log 14). R173: the fourteen
event kinds have the codes 1 to 14, and a reply carries a set by its count and these codes. -/
def Obligations.PortLayoutsAreExact : Prop :=
  (∀ (c : Instr) (b : List Byte), encodeTransferPort c = some b → decodeTransferPort b = some c) ∧
  (∀ (c : Instr) (b : List Byte), decodeTransferPort b = some c → encodeTransferPort c = some b) ∧
  (∀ (tag : Byte) (n : Nat) (g : Count32), n ≤ 32 → ∃ count generation,
    transferPortBytes (.admitted tag n g) = some (0x81 :: tag :: count :: generation) ∧ count.toNat = n ∧ generation.length = 4 ∧
      bigEndian generation = g.toNat) ∧
  ((∀ (tag : Byte) (reason : RefuseReason) (owner : Option Owner),
      transferPortBytes (.refused tag reason owner) = some [0x82, tag, reason.byte, ownerByte owner]) ∧
    [RefuseReason.badDescriptor, .starting, .asleep, .storeFault, .tagBusy, .outOfRange, .erasing, .rangeUpdating, .lockdown, .locked,
      .bindingPending].map RefuseReason.byte = [1, 2, 3, 4, 5, 6, 7, 8, 9, 10, 11] ∧
    (∀ r : RangeId, (ownerByte (some (.range r))).toNat = r.val) ∧ ownerByte (some .shadow) = 0x10 ∧ ownerByte none = 0xFF) ∧
  (∀ tag : Byte, transferPortBytes (.cancelReply tag true) = some [0x83, tag, 0] ∧
    transferPortBytes (.cancelReply tag false) = some [0x83, tag, 1]) ∧
  ((∀ (tag : Tag) (final : TransferState) (reason : Option AbortReason) (lba : Option Nat), ∃ present number,
      transferPortBytes (.completion tag final reason lba) =
        some (0x84 :: BitVec.ofNat 8 tag.val :: finalByte final :: abortByte reason :: present :: number) ∧ number.length = 5 ∧
      (lba = none → present = 0) ∧ (∀ x, lba = some x → present = 1 ∧ (x < 2 ^ 40 → bigEndian number = x))) ∧
    [TransferState.done, .cancelled, .aborted, .mediaError].map finalByte = [1, 2, 3, 4] ∧
    [none, some AbortReason.lockdown, some .erase, some .reset].map abortByte = [0, 1, 2, 3]) ∧
  (∀ p : TetherPage, p.index ≤ 2 → p.bytes.length = 20 ∧ readPage p.bytes = .page p) ∧
  (∀ (kind tag : Byte) (body : List Byte), body.length ≤ 512 →
    checkFrame (frameBytes kind tag body) = .frame kind tag body ∧
    (1 ≤ kind.toNat → kind.toNat ≤ 24 →
      requestKind (commandOfRecord (frameBytes kind tag body)) = some kind.toNat ∧
      requestTag (commandOfRecord (frameBytes kind tag body)) = some tag) ∧
    (kind.toNat = 0 ∨ 24 < kind.toNat →
      commandOfRecord (frameBytes kind tag body) = .unknownKind (frameBytes kind tag body)) ∧
    ∀ form : Body Unit, (form = .fits () ↔ body = []) →
      commandOfRecord (frameBytes 1 tag body) = .status tag form ∧ commandOfRecord (frameBytes 5 tag body) = .authorityEnd tag form ∧
      commandOfRecord (frameBytes 9 tag body) = .rangeDiscard tag form ∧
      commandOfRecord (frameBytes 10 tag body) = .rangeCommit tag form ∧
      commandOfRecord (frameBytes 17 tag body) = .shadowDone tag form ∧ commandOfRecord (frameBytes 19 tag body) = .bindCheck tag form ∧
      commandOfRecord (frameBytes 21 tag body) = .lockdownClear tag form ∧
      commandOfRecord (frameBytes 24 tag body) = .resetPart tag form) ∧
  (∀ (tag : Byte) (codes : List Nat), codes.length ≤ 14 → (∀ n ∈ codes, n < 256) →
    commandOfRecord (frameBytes 2 tag (listBytes 2 0 15 (numberBytes 2 1 15) codes)) = .eventsEnable tag (.fits codes)) ∧
  (∀ kind place top n : Nat, n ≤ top → (numberBytes kind place top n).length = fieldWidth kind place top ∧
    bigEndian (numberBytes kind place top n) = n) ∧
  (∀ (tag mark extra : Byte) (n : Nat), mark ≠ 0 → n < 256 ^ fieldWidth 15 1 65537 →
    commandOfRecord (frameBytes 15 tag [0, 0]) = .shadowConfig tag (.fits { enabled := none, size := none }) ∧
    commandOfRecord (frameBytes 15 tag (0 :: mark :: numberBytes 15 1 65537 n)) =
      .shadowConfig tag (.fits { enabled := none, size := some n }) ∧
    commandOfRecord (frameBytes 15 tag (0 :: mark :: (numberBytes 15 1 65537 n ++ [extra]))) = .shadowConfig tag .misfit) ∧
  (∀ record, checkFrame record = .malformed → commandOfRecord record = .badFrame record) ∧
  (∀ (kind : Nat) (tag : Byte) (code : Code),
    channelBytes (replyTo kind tag code .none) = some (frameBytes (BitVec.ofNat 8 (kind + 0x80)) tag [code.byte]) ∧
    channelBytes (replyTo kind tag .failed (.failed none none)) =
      some (frameBytes (BitVec.ofNat 8 (kind + 0x80)) tag [0x01, 0x00, 0x00]) ∧
    channelBytes (replyTo kind tag .slotState (.range none)) = some (frameBytes (BitVec.ofNat 8 (kind + 0x80)) tag [0x08, 0x00])) ∧
  (∀ r : Reply, r.payload.bounded → (r.code.byte :: payloadBytes r.kind.toNat r.code r.payload).length ≤ 512 ∧
    checkFrame r.bytes = .frame r.kind r.tag (r.code.byte :: payloadBytes r.kind.toNat r.code r.payload)) ∧
  (∀ (record : List Byte) (tag : Byte) (x : StageArgs), commandOfRecord record = .rangeStage tag (.fits x) →
    (∀ n, x.start = some n → n < 2 ^ 48) ∧ ∀ n, x.length = some n → n < 2 ^ 48) ∧
  (∀ (kind : Nat) (r : RangeReadReport), r.number ≠ 0 → r.staged.fields.start < 2 ^ 48 → r.staged.fields.length < 2 ^ 48 →
    ∃ start length rest, rangeReadBytes kind r =
        committedBytes kind r ++ (presentMark :: (start ++ (presentMark :: (length ++ rest)))) ∧ presentMark ≠ 0 ∧
      start.length = 6 ∧ bigEndian start = r.staged.fields.start ∧ length.length = 6 ∧ bigEndian length = r.staged.fields.length) ∧
  ([EventKind.attemptCharged, .slotLockedOut, .triggerFired, .lockdownEntered, .lockdownLeft, .wipeStepDone, .wipeComplete,
    .bindingChanged, .bayChanged, .authorityEnded, .mediaViewChanged, .storeRollback, .storeFault, .sleepReady].map EventKind.code =
      [1, 2, 3, 4, 5, 6, 7, 8, 9, 10, 11, 12, 13, 14] ∧
    (∀ k : EventKind, eventOfCode k.code = some k) ∧
    ∀ (tag : Byte) (pending : List EventKind), channelBytes (replyTo 3 tag .ok (.pendingEvents pending)) =
      some (frameBytes 0x83 tag
        (0x00 :: (numberBytes 0x83 0 14 pending.length ++ (pending.map (fun k => numberBytes 0x83 1 14 k.code)).flatten))))

/-! ### Transfers -/

/-- R26: the segments of a split start at the first block, follow one another without gap or overlap, cover the blocks exactly, have
one owner each, and two neighbours never have the same owner. The owner of a block is the shadow while the shadow state is not OFF and
the block lies below S; otherwise the defined range that owns its LBA, of which the committed table has at most one (R3); otherwise
range 0. -/
def Obligations.SplitCoversTransfer : Prop :=
  (∀ (s : State) (a n : Nat),
    ((s.split a n).map (·.count)).sum = n ∧
    (∀ i (h : i < (s.split a n).length),
      (s.split a n)[i].first = a + (((s.split a n).take i).map (·.count)).sum ∧ 0 < (s.split a n)[i].count ∧
      ∀ x, (s.split a n)[i].first ≤ x → x < (s.split a n)[i].first + (s.split a n)[i].count → s.ownerOf x = (s.split a n)[i].owner) ∧
    (∀ i (h : i + 1 < (s.split a n).length), (s.split a n)[i].owner ≠ (s.split a n)[i + 1].owner)) ∧
  ∀ (s : State) (x : Nat),
    (s.shadow ≠ .off → x < s.shadowRecord.size → s.ownerOf x = .shadow) ∧
    (s.shadow = .off ∨ s.shadowRecord.size ≤ x →
      (∀ r : RangeId, s.owns r x → (∀ q, s.owns q x → q = r) → s.ownerOf x = .range r) ∧
      ((∀ r : RangeId, ¬ s.owns r x) → s.ownerOf x = .range 0))

/-- R27 and R28: what a segment of a READ and of a WRITE is given by its owner. The window refuses with ERASING while a wipe plan holds a
SHADOW item that is not DONE or has the full-wipe flag set; that both plans count, the intended one from the acceptance on and the effective
one until the close, is the model's inference (log 34). -/
def Obligations.DispositionTables : Prop :=
  ∀ (s : State),
    (s.shadowErasing = true ↔ ∃ p, (p = s.plan ∨ p = s.wipe.intended) ∧
      (p.full = true ∨ ∃ i, p.items.find? (fun i => i.target = .shadow) = some i ∧ i.step ≠ .done)) ∧
    (s.shadowErasing = true → s.readTreatment .shadow = .error .erasing ∧ s.writeTreatment .shadow = .error .erasing) ∧
    (s.shadowErasing = false → s.readTreatment .shadow = .ok .shadow) ∧
    (s.shadowErasing = false → s.shadow = .loading → s.writeTreatment .shadow = .ok .shadow) ∧
    (s.shadowErasing = false → s.shadow = .on → s.writeTreatment .shadow = .error .locked) ∧
    ∀ r : RangeId,
      (s.table[r].service = .erasing →
        s.readTreatment (.range r) = .error .erasing ∧ s.writeTreatment (.range r) = .error .erasing) ∧
      (s.table[r].service = .updating →
        s.readTreatment (.range r) = .error .rangeUpdating ∧ s.writeTreatment (.range r) = .error .rangeUpdating) ∧
      (s.table[r].service = .lockdown →
        s.readTreatment (.range r) = (if s.table[r].inForce = .close then .error .lockdown else .ok .zero) ∧
        s.writeTreatment (.range r) = .error .lockdown) ∧
      (s.table[r].service = .active →
        (s.readClosed r = true → s.readTreatment (.range r) =
          if (s.range r).fields.lockedRead = .zero then .ok .zero else .error .locked) ∧
        (s.writeClosed r = true → s.writeTreatment (.range r) = .error .locked) ∧
        (s.readClosed r = false → s.readTreatment (.range r) =
          if (s.range r).fields.sleep = .hold ∧ r ∈ s.binding.gated then .error .bindingPending else .ok .cipher) ∧
        (s.writeClosed r = false → s.writeTreatment (.range r) =
          if (s.range r).fields.sleep = .hold ∧ r ∈ s.binding.gated then .error .bindingPending else .ok .cipher))

/-- R25, R29: an ADMIT that passes the five checks makes one WAITING segment per run, takes one reference for each that needs a key,
takes the next sequence number, restarts the idle timer, and is answered ADMITTED; nothing else changes. R30: a CIPHER segment records
k = B / U, s (0 for range 0) and o of its range; any other records none. -/
def Obligations.AdmitEntersTransfer : Prop :=
  ∀ (s : State) (tag directionByte : Byte) (t : Tag) (d : Direction) (start : BitVec 40) (countLessOne : BitVec 16),
    s.power.powered = true → s.power.part = .ready → tagOf tag = some t → directionOf directionByte = some d →
    s.inflight[t] = none → start.toNat + (countLessOne.toNat + 1) ≤ s.profile.capacity →
    (∀ run ∈ s.split start.toNat (countLessOne.toNat + 1), ∃ p, s.treatment d run.owner = .ok p) →
    ∃ (x : State) (segments : List Segment),
      exec (.admitRequest tag directionByte start countLessOne) s = .next (settle x) ∧
      segments.map (fun g => (g.owner, g.first, g.count)) =
        (s.split start.toNat (countLessOne.toNat + 1)).map (fun r => (r.owner, r.first, r.count)) ∧
      (∀ g ∈ segments, s.treatment d g.owner = .ok g.disposition ∧ g.step = .waiting ∧ g.progress = 0 ∧
        (g.keyRef = if g.disposition = .zero then none else some g.owner) ∧
        (∀ r : RangeId, g.disposition = .cipher → g.owner = .range r → g.tweak = some
          { k := s.profile.blockSize / (s.range r).fields.unitSize, base := if r = 0 then 0 else (s.range r).fields.start
            origin := (s.range r).tweakOrigin }) ∧
        (g.disposition ≠ .cipher → g.tweak = none)) ∧
      (∀ o, x.key o = { s.key o with refs := (s.key o).refs + (segments.filter (fun g => g.keyRef = some o)).length }) ∧
      x = { s with
        inflight := s.inflight.set t (some
          { direction := d, start := start.toNat, count := countLessOne.toNat + 1, generation := s.tableGeneration,
            sequence := s.nextSequence, segments := segments, state := .running, abortReason := none, failingLba := none })
        nextSequence := s.nextSequence + 1
        cache := x.cache, shadowEntry := x.shadowEntry, trigger := s.restartIdle.trigger
        sent := s.sent ++ [.admitted tag segments.length s.tableGeneration] }

/-- R24, R25: an ADMIT is refused by its first failing check, and a refusal changes nothing but the reply sent. -/
def Obligations.AdmitRefusalLeavesNoTrace : Prop :=
  ∀ (s : State) (tag directionByte : Byte) (start : BitVec 40) (countLessOne : BitVec 16), s.power.powered = true →
    (tagOf tag = none ∨ directionOf directionByte = none →
      exec (.admitRequest tag directionByte start countLessOne) s = .next (settle (s.say (.refused tag .badDescriptor none)))) ∧
    ∀ (t : Tag) (d : Direction), tagOf tag = some t → directionOf directionByte = some d →
      (s.power.part = .starting →
        exec (.admitRequest tag directionByte start countLessOne) s = .next (settle (s.say (.refused tag .starting none)))) ∧
      (s.power.part = .sleepEntering ∨ s.power.part = .asleep →
        exec (.admitRequest tag directionByte start countLessOne) s = .next (settle (s.say (.refused tag .asleep none)))) ∧
      (s.power.part = .failsafe →
        exec (.admitRequest tag directionByte start countLessOne) s = .next (settle (s.say (.refused tag .storeFault none)))) ∧
      (s.power.part = .ready → s.inflight[t].isSome = true →
        exec (.admitRequest tag directionByte start countLessOne) s = .next (settle (s.say (.refused tag .tagBusy none)))) ∧
      (s.power.part = .ready → s.inflight[t] = none →
        (s.profile.capacity < start.toNat + (countLessOne.toNat + 1) →
          exec (.admitRequest tag directionByte start countLessOne) s = .next (settle (s.say (.refused tag .outOfRange none)))) ∧
        (start.toNat + (countLessOne.toNat + 1) ≤ s.profile.capacity → ∀ (before after : List Run) (run : Run) (reason : RefuseReason),
          s.split start.toNat (countLessOne.toNat + 1) = before ++ run :: after →
          (∀ q ∈ before, ∃ p, s.treatment d q.owner = .ok p) → s.treatment d run.owner = .error reason →
          exec (.admitRequest tag directionByte start countLessOne) s =
            .next (settle (s.say (.refused tag reason (some run.owner))))))

/-- R30: within one segment's recorded values no two data units take the same tweak, as long as their tweaks stay below 2^64. -/
def Obligations.TweaksAreDistinct : Prop :=
  ∀ (t : TweakBase) (x y i j : Nat), t.base ≤ x → t.base ≤ y → i < t.k → j < t.k →
    t.origin.toNat + (x - t.base) * t.k + i < 2 ^ 64 → t.origin.toNat + (y - t.base) * t.k + j < 2 ^ 64 →
    tweakOf t x i = tweakOf t y j → x = y ∧ i = j

/-- R43: CANCEL is answered NOT_FOUND for a tag above 31 or not in use; a RUNNING transfer with no segment in a lane reaches CANCELLED
at once, and one with a segment in a lane goes to CANCELLING behind it; a CANCELLING or ABORTING one is answered OK and goes on. R36:
each reference released lowers its entry's count by one, and a DRAINING entry that this brings to 0 is erased. -/
def Obligations.CancelByOutcomeState : Prop :=
  ∀ (s : State) (tag : Byte), s.power.powered = true →
    ((∀ t, tagOf tag = some t → s.inflight[t] = none) → exec (.cancel tag) s = .next (settle (s.say (.cancelReply tag false)))) ∧
    ∀ (t : Tag) (y : Transfer), tagOf tag = some t → s.inflight[t] = some y →
      (y.state = .cancelling ∨ y.state = .aborting → exec (.cancel tag) s = .next (settle (s.say (.cancelReply tag true)))) ∧
      (y.state = .running → y.inLane = false → ∃ x, exec (.cancel tag) s = .next (settle x) ∧
        (∀ o, x.key o = (s.key o).released (y.holds o (fun _ => true))) ∧
        x = { s with
          inflight := s.inflight.set t none, cache := x.cache, shadowEntry := x.shadowEntry
          sent := s.sent ++ [.cancelReply tag true, .completion t .cancelled none y.failingLba] }) ∧
      (y.state = .running → y.inLane = true → ∃ x, exec (.cancel tag) s = .next (settle x) ∧
        (∀ o, x.key o = (s.key o).released (y.holds o (fun g => g.step = .waiting))) ∧
        x = { s with
          inflight := s.inflight.set t (some { y with
            state := .cancelling
            segments := y.segments.map (fun g => if g.step = .waiting then { g with step := .discarded, keyRef := none } else g) })
          cache := x.cache, shadowEntry := x.shadowEntry, sent := s.sent ++ [.cancelReply tag true] })

/-- R46, R47, R72: FRONT_RESET leaves no transfer in flight and no reference held (a DRAINING entry is erased), stops each lane that works a
transfer segment, ends authority and the request in execution without a reply or a completion, and leaves the locks, service states, staging
copy, shadow, lockdown, open-at times, events, arbiter and records as they were, and the Binding Unit unless an enrolment is in execution.
That a lane it stops remembers the owner of a segment that writes, and that an overwrite of that owner is not asked for before the lane's
report, is the model's inference (log 27). R131, R137: a lane that works an overwrite segment stops, the position of an overwrite returns to
the persisted cursor, or to the start of the extent without one, and the count to 0; where the part state allows it a lane is asked for from
the next block of the extent, with the item's key, its own or the one under the root wrap, or, where no block is left, the group that ends
the item is submitted. R167: a request in execution with a submitted group is ABANDONED and the group is carried to its close; one that has
submitted nothing stops and the executor is FREE, but for these. R62: an AUTHENTICATE whose charge is submitted, or closed with its
derivation running, is to be settled as failed from this moment: the derivation stops, and after a closed charge the settlement group is
submitted at once where no group of R129 is in its way; one after its verdict time keeps its verdict group; R20: a RANGE-COMMIT in its drain
wait, which ends with the references, submits its group and goes on to its switch. That an AUTHENTICATE whose charge still waits under R129
is dropped uncounted, and that the counters group of a wrong wipe token that waits so is carried on, is the model's inference (logs 77, 81),
and so is that a CRED-SET or BIND-ENROLL whose group waits so is dropped (logs 40, 52). -/
def Obligations.FrontResetClearsTransfers : Prop :=
  ∀ s : State, s.power.powered = true →
    ∃ x, exec .frontReset s = .next (settle x) ∧ (∀ t : Tag, x.inflight[t] = none) ∧
      (∀ o, x.key o = if (s.key o).state = .draining then emptyKey else { s.key o with refs := 0 }) ∧
      (∀ (l : LaneId) (t : Tag) (i : Nat), s.lanes[l].task = some (.transfer t i) →
        x.lanes[l] = if s.lanes[l].issued = [] then idleLane
          else { idleLane with task := some (.cleared (s.clearedWrite t i)), issued := s.lanes[l].issued, stopping := true }) ∧
      (∀ (t : Tag) (i : Nat) (y : Transfer) (g : Segment), s.inflight[t] = some y → y.segments[i]? = some g →
        s.clearedWrite t i = if y.direction = .write then some g.owner else none) ∧
      (∀ l : LaneId, s.overwriteLane = some l → x.lanes[l] = if s.lanes[l].issued = [] then idleLane
        else { s.lanes[l] with stopping := true, fetched := [] }) ∧
      (∀ l : LaneId, (∀ t i, s.lanes[l].task ≠ some (.transfer t i)) → s.overwriteLane ≠ some l → x.lanes[l] = s.lanes[l]) ∧
      (s.wipe.asked = false → s.overwriteLane = none → s.wipe.position = none → x.wipe = s.wipe) ∧
      (s.wipe.asked = true ∨ s.overwriteLane.isSome = true ∨ s.wipe.position.isSome = true →
        x.wipe.count = 0 ∧
        (s.overwriteTarget = none ∨ s.overwriteAllowed = false →
          x.wipe = { s.wipe with asked := false, position := some (s.plan.cursor.getD 0), count := 0 }) ∧
        ∀ o, s.overwriteTarget = some o → s.overwriteAllowed = true →
          (∀ l : LaneId, s.overwriteLane ≠ some l → ∀ f c p, s.lanes[l].task ≠ some (.overwrite f c p)) →
          (∀ l : LaneId, x.lanes[l].task ≠ some (.cleared (some o))) →
          (∀ p, s.extentNext o (s.plan.cursor.getD 0) = some p → x.wipe = { s.wipe with
            asked := true, key := some (s.wipe.key.getD (s.rootKeyOf o)), position := some p, count := 0 }) ∧
          (s.extentNext o (s.plan.cursor.getD 0) = none → s.power.restarting = false →
            x.wipe.asked = false ∧ x.wipe.intended = s.wipe.intended.finish o ∧
            ∃ g ∈ x.store.waitingGroups, g.submitter = .wipeEngine ∧ Record.plan x.wipe.intended ∈ g.records)) ∧
      x.authority = none ∧ x.authTimer = none ∧ x.executor.status ≠ .executing ∧ x.sent = s.sent ∧ x.table = s.table ∧
      x.staging = s.staging ∧ x.shadow = s.shadow ∧ x.events = s.events ∧ x.power = s.power ∧
      x.trigger = s.restartIdle.trigger ∧ x.openAt = s.openAt ∧ x.lastGranted = s.lastGranted ∧
      x.nextSequence = s.nextSequence ∧ (s.executor.job.isEnrol = false → x.binding = s.binding) ∧
      { x.store with queue := s.store.queue, writing := s.store.writing, held := s.store.held } = s.store ∧
      (s.executor.status ≠ .executing → x.executor = s.executor ∧ x.derivations = s.derivations) ∧
      (s.executor.status = .executing →
        (s.executor.stage = .submitted → (∀ a, s.executor.job ≠ .attempt a) → x.executor = { s.executor with status := .abandoned }) ∧
        (s.executor.stage ≠ .submitted →
          (s.executor.job = .wrongToken ∨ (∃ c, s.executor.job = .commit c) → x.executor = { s.executor with status := .abandoned }) ∧
          (s.executor.job ≠ .wrongToken → (∀ c, s.executor.job ≠ .commit c) → (∀ a, s.executor.job ≠ .attempt a) →
            x.executor = freeExecutor)) ∧
        (∀ j, s.executor.job = .credSet j → s.executor.stage ≠ .submitted → DerivationUser.executor ∉ x.derivations) ∧
        ∀ a, s.executor.job = .attempt a →
          (a.phase = .charging → x.derivations = s.derivations ∧
            (s.executor.stage = .submitted →
              x.executor = { s.executor with status := .abandoned, job := .attempt { a with settledAt := s.clock } }) ∧
            (s.executor.stage ≠ .submitted → x.executor = freeExecutor)) ∧
          (a.phase = .deriving → x.executor =
            { s.executor with status := .abandoned, job := .attempt { a with settledAt := s.clock, phase := .settling }, stage := .wanted } ∧
            ∀ d, d ∈ x.derivations ↔ d ∈ s.derivations ∧ d ≠ .executor) ∧
          (∀ success, a.phase = .verdict success → x.executor = { s.executor with status := .abandoned } ∧
            x.derivations = s.derivations)) ∧
      ∀ t, exec .frontReset s = .next t → s.power.part = .ready → s.executor.status = .executing → s.submitsAtOnce →
        (∀ a, s.executor.job = .attempt a → a.phase = .deriving →
          requestGroup (.counters { s.counters with marker := none } ::
            (if (s.cred a.slot).policy.limit ≠ 0 ∧ (s.cred a.slot).failures = (s.cred a.slot).policy.limit
             then [.cred a.slot { s.cred a.slot with state := .lockedOut }] else [])) ∈ t.store.waitingGroups ∧
          t.executor = { s.executor with
            status := .abandoned, job := .attempt { a with settledAt := s.clock, phase := .settling }, stage := .submitted }) ∧
        ∀ c, s.executor.job = .commit c → s.executor.stage = .working →
          ∃ (keys : List (RangeId × Key)) (records : List Record) (record : RangeRecord), requestGroup records ∈ t.store.waitingGroups ∧
            t.executor = { s.executor with status := .abandoned, job := .commit { c with newKeys := keys }, stage := .submitted } ∧
            Record.range 0 record ∈ records ∧ record.tableGeneration = s.tableGeneration + 1 ∧ t.table = s.table

/-- R41: the acknowledgement of the last block of a WRITE segment completes the segment: a RUNNING transfer goes on with a later segment or
ends DONE with its last, and a CANCELLING one ends CANCELLED (R43). R42: a media error for the block a transfer has come to ends it with
that block as failing LBA, MEDIA_ERROR from RUNNING and CANCELLED from CANCELLING; locks, records and other transfers are unchanged. A WRITE
with other writes unanswered records the block and waits, and the last answer or error, whatever it is, ends it so. That a READ with other
reads unanswered ends in the event of the error, its lane busy until they come, is the model's choice (log 66). R45: the answer or error
that a stopping lane waited for last ends its ABORTING transfer ABORTED with its reason and no failing LBA; an earlier one only shortens the
lane's wait, and nothing is sent (R38). R36: each release lowers the entry's count by one, and a DRAINING entry that this brings to 0 is
erased. -/
def Obligations.LaneAnswerEndsTransfer : Prop :=
  (∀ (s : State) (l : LaneId) (t : Tag) (i n : Nat) (rest : List Nat) (y : Transfer) (g : Segment) (data : List Byte),
    s.power.powered = true → s.lanes[l].task = some (.transfer t i) → s.lanes[l].issued = n :: rest →
    s.lanes[l].stopping = false → s.lanes[l].failing = none → s.inflight[t] = some y → y.direction = .write →
    y.state = .running ∨ y.state = .cancelling → y.segments[i]? = some g → g.progress + 1 = g.count →
    ∃ x, exec (.mediaAcknowledge l (.answer data)) s = .next (settle x) ∧ segmentCompleted s x l t i y []) ∧
  (∀ (s : State) (l : LaneId) (t : Tag) (i n : Nat) (rest : List Nat) (y : Transfer) (g : Segment), s.power.powered = true →
    s.lanes[l].task = some (.transfer t i) → s.lanes[l].issued = n :: rest → s.lanes[l].stopping = false →
    s.lanes[l].failing = none → s.inflight[t] = some y → y.state = .running ∨ y.state = .cancelling → y.segments[i]? = some g →
    g.first + g.progress = n → (y.direction = .write → rest = []) →
    ∃ x, exec (.mediaError l n) s = .next (settle x) ∧
      transferEnded s x t y [.completion t (if y.state = .running then .mediaError else .cancelled) none (some n)] ∧
      x = { s with
        inflight := x.inflight, lanes := x.lanes, cache := x.cache, shadowEntry := x.shadowEntry, sent := x.sent } ∧
      (∀ k : LaneId, k ≠ l → x.lanes[k] = s.lanes[k]) ∧ (rest = [] → x.lanes[l] = idleLane)) ∧
  (∀ (s : State) (l : LaneId) (t : Tag) (i n m : Nat) (rest : List Nat) (y : Transfer) (g : Segment), s.power.powered = true →
    s.lanes[l].task = some (.transfer t i) → s.lanes[l].stopping = false → s.inflight[t] = some y → y.direction = .write →
    y.state = .running ∨ y.state = .cancelling → y.segments[i]? = some g →
    (s.lanes[l].issued = n :: m :: rest → s.lanes[l].failing = none → exec (.mediaError l n) s = .next (settle { s with
      lanes := s.lanes.set l { s.lanes[l] with issued := m :: rest, failing := some n }
      inflight := s.inflight.set t (some { y with failingLba := some n }) })) ∧
    (∀ c, c = .mediaError l m ∨ (∃ data, c = .mediaAcknowledge l (.answer data)) → s.lanes[l].issued = [m] →
      s.lanes[l].failing = some n → g.first + g.progress = n →
      ∃ x, exec c s = .next (settle x) ∧
        transferEnded s x t y [.completion t (if y.state = .running then .mediaError else .cancelled) none y.failingLba] ∧
        x = { s with
          lanes := s.lanes.set l idleLane, inflight := x.inflight, cache := x.cache, shadowEntry := x.shadowEntry, sent := x.sent })) ∧
  (∀ (s : State) (l : LaneId) (t : Tag) (i n : Nat) (y : Transfer) (c : Instr), s.power.powered = true →
    s.lanes[l].task = some (.transfer t i) → s.lanes[l].stopping = true → s.inflight[t] = some y → y.state = .aborting →
    c = .mediaError l n ∨ (∃ data, c = .mediaAcknowledge l (.answer data)) →
    (s.lanes[l].issued = [n] → ∃ x, exec c s = .next (settle x) ∧
      transferEnded s x t y [.completion t .aborted y.abortReason none] ∧
      x = { s with
        lanes := s.lanes.set l idleLane, inflight := x.inflight, cache := x.cache, shadowEntry := x.shadowEntry, sent := x.sent }) ∧
    (∀ m rest, s.lanes[l].issued = n :: m :: rest →
      exec c s = .next (settle { s with lanes := s.lanes.set l { s.lanes[l] with issued := m :: rest } })))

/-- R30, R31, R8: a block x of a range lies at media LBA x and one of the shadow at C + x; a lane works with the owner's key and the tweaks
of the segment's recorded values, and T = x + j for a shadow segment. R38, R8: a block of a READ segment that a lane delivers carries the
media data deciphered under that key and the block's tweaks, or zeros for a ZERO segment; a media answer for a READ is fetched and not yet
delivered; and the answer for a WRITE moves its block. Each block moved raises the segment's progress by one, and where it is not the last,
the lane issues the media operations of the next blocks: reads of their media LBAs, or writes there of the host's blocks enciphered under
the key and their tweaks, and none for a ZERO segment. R41: the last block of a READ segment, delivered in the same way, completes it: a
RUNNING transfer goes on with a later segment or ends DONE with its last, and a CANCELLING one ends CANCELLED; the references are released
(R36). The cipher and the host's data are free (log 12), and so is how many operations a lane keeps unanswered (log 13). -/
def Obligations.DeliveredBlockIsDeciphered : Prop :=
  (∀ (s : State) (r : RangeId) (o : Owner) (key : Key) (g : Segment) (b : TweakBase) (x j : Nat),
    s.mediaLba (.range r) x = x ∧ s.mediaLba .shadow x = s.profile.capacity + x ∧
      ((s.key o).material = some key → s.laneKey o = key) ∧ (g.tweak = some b → g.tweakBase = b) ∧
      (g.tweak = none → (tweakOf g.tweakBase x j).toNat = (x + j) % 2 ^ 64) ∧
      (tweakOf b x j).toNat = (b.origin.toNat + (x - b.base) * b.k + j) % 2 ^ 64) ∧
  (∀ (s : State) (l : LaneId) (t : Tag) (i : Nat) (y : Transfer) (g : Segment) (n : Nat) (clear : List Byte)
    (later : List (Nat × List Byte)),
    s.power.powered = true → s.lanes[l].task = some (.transfer t i) → s.lanes[l].stopping = false → s.lanes[l].failing = none →
    s.inflight[t] = some y → y.direction = .read → y.segments[i]? = some g →
    (g.disposition = .zero ∧ n = g.first + g.progress ∧ clear = List.replicate s.profile.blockSize 0 ∧ later = s.lanes[l].fetched) ∨
      (g.disposition ≠ .zero ∧ ∃ data, s.lanes[l].fetched = (n, data) :: later ∧
        clear = overUnits Config.decipher (s.laneKey g.owner) g.tweakBase s.profile.blockSize n data) →
    (g.progress + 1 < g.count →
      let blocks := s.issues { s.lanes[l] with fetched := later } { g with progress := g.progress + 1 }
      exec (.mediaAcknowledge l .delivered) s = .next (settle { s with
        lanes := s.lanes.set l { s.lanes[l] with fetched := later, issued := s.lanes[l].issued ++ blocks }
        inflight := s.inflight.set t (some { y with segments := y.segments.modify i (fun g => { g with progress := g.progress + 1 }) })
        sent := s.sent ++ .data t n clear :: s.mediaOps l .read g blocks })) ∧
    (g.progress + 1 = g.count → y.state = .running ∨ y.state = .cancelling →
      ∃ x, exec (.mediaAcknowledge l .delivered) s = .next (settle x) ∧ segmentCompleted s x l t i y [.data t n clear])) ∧
  ∀ (s : State) (l : LaneId) (t : Tag) (i n : Nat) (rest : List Nat) (y : Transfer) (g : Segment) (data : List Byte),
    s.power.powered = true → s.lanes[l].task = some (.transfer t i) → s.lanes[l].issued = n :: rest →
    s.lanes[l].stopping = false → s.lanes[l].failing = none → s.inflight[t] = some y → y.segments[i]? = some g →
    (y.direction = .read → exec (.mediaAcknowledge l (.answer data)) s = .next (settle { s with
      lanes := s.lanes.set l { s.lanes[l] with issued := rest, fetched := s.lanes[l].fetched ++ [(n, data)] } })) ∧
    (y.direction = .write → g.progress + 1 < g.count →
      let blocks := s.issues { s.lanes[l] with issued := rest } { g with progress := g.progress + 1 }
      exec (.mediaAcknowledge l (.answer data)) s = .next (settle { s with
        lanes := s.lanes.set l { s.lanes[l] with issued := rest ++ blocks }
        inflight := s.inflight.set t (some { y with segments := y.segments.modify i (fun g => { g with progress := g.progress + 1 }) })
        sent := s.sent ++ s.mediaOps l .write g blocks, entropy := s.entropy + blocks.length }))

/-- R39, R40: an idle lane goes to the side that waits, and when both wait to the side that did not receive the last grant: the transfer
side grants the head segment of the waiting transfer that was admitted first, which goes from WAITING to IN_LANE; the wipe side an overwrite
segment from its position on. With the grant the lane starts the segment (R38): it issues the media operations of its first blocks, as many
as its window takes (log 13), and none for a ZERO segment. Each grant sets the last-granted side; with nothing waiting nothing changes. A
transfer waits with the head segment i when it is RUNNING, has no segment IN_LANE, and i is its first segment that is not FINISHED and is
WAITING. R130: the overwrite segment covers consecutive blocks of the extent and ends where the run does, with the extent's last block among
its ends, or at the block that brings the count written to 4,096, whichever comes first. -/
def Obligations.ArbiterGrantsInTurn : Prop :=
  (∀ (x : Transfer) (i : Nat), x.head = some i ↔ x.state = .running ∧ (∀ g ∈ x.segments, g.step ≠ .inLane) ∧
    (∀ j g, j < i → x.segments[j]? = some g → g.step = .finished) ∧ ∃ g, x.segments[i]? = some g ∧ g.step = .waiting) ∧
  ∀ (s : State) (l : LaneId), s.lanes[l].task = none →
    ((∀ (t : Tag) (x : Transfer), s.inflight[t] = some x → x.head = none) → s.wipeWaits = false → s.grantLane l = s) ∧
    (∀ (t : Tag) (x : Transfer) (i : Nat), s.inflight[t] = some x → x.head = some i →
      (∀ (u : Tag) (y : Transfer), u ≠ t → s.inflight[u] = some y → y.head ≠ none → x.sequence < y.sequence) →
      s.wipeWaits = false ∨ s.lastGranted = .wipe →
      (s.grantLane l).lastGranted = .transfer ∧ (s.grantLane l).lanes[l].task = some (.transfer t i) ∧
      (s.grantLane l).inflight =
        s.inflight.set t (some { x with segments := x.segments.modify i (fun g => { g with step := .inLane }) }) ∧
      (s.grantLane l).wipe = s.wipe ∧ (∀ k : LaneId, k ≠ l → (s.grantLane l).lanes[k] = s.lanes[k]) ∧
      ∀ g, x.segments[i]? = some g → (s.grantLane l).lanes[l].issued = s.issues idleLane g ∧
        (s.grantLane l).sent = s.sent ++ s.mediaOps l x.direction g (s.issues idleLane g)) ∧
    (∀ (o : Owner) (p : Nat), s.wipeWaits = true → s.overwriteTarget = some o → s.extentNext o s.position = some p →
      s.lastGranted = .transfer ∨ (∀ (t : Tag) (x : Transfer), s.inflight[t] = some x → x.head = none) →
      (s.grantLane l).lastGranted = .wipe ∧
      (∃ count, (s.grantLane l).lanes[l].task = some (.overwrite p count 0) ∧ count ≤ 4096 - s.wipe.count ∧
        (∀ x, p ≤ x → x < p + count → s.extentNext o x = some x) ∧
        (count = 4096 - s.wipe.count ∨ s.extentNext o (p + count) ≠ some (p + count))) ∧
      (s.grantLane l).wipe.asked = false ∧ (s.grantLane l).inflight = s.inflight ∧
      ∀ k : LaneId, k ≠ l → (s.grantLane l).lanes[k] = s.lanes[k])

/-! ### The Persistent Store -/

/-- R75, R77: a passing write of any record goes to the copy of its cell that is not effective, with the effective version plus 1 and the
group's number as tag; every other copy of every cell stays as it is, and so does which copies are effective; the group goes on to its
next copy or its marker. -/
def Obligations.CopyWriteGoesToTarget : Prop :=
  ∀ (s : State) (w : Writing) (i k : Nat) (record old : Record) (side : Side) (version tag : Count32) (passes : Bool),
    s.power.powered = true → s.store.writing = some w → w.stage = .copies i k → w.group.records[i]? = some record →
    s.store.effectiveSide record.cell = some side → old.cell = record.cell → old.isCopy s.store side version tag passes →
    ∃ x, exec (.copyWriteDone true) s = .next (settle x) ∧ x = { s with store := x.store } ∧
      record.isCopy x.store (otherSide side) (version + 1) w.number true ∧
      (∀ (q : Record) (which : Side) (v g : Count32) (p : Bool), q.cell ≠ record.cell ∨ which = side →
        (q.isCopy x.store which v g p ↔ q.isCopy s.store which v g p)) ∧
      (∀ c, x.store.effectiveSide c = s.store.effectiveSide c) ∧
      x.store.profile = s.store.profile ∧ x.store.marker = s.store.marker ∧ x.store.lastClosed = s.store.lastClosed ∧
      x.store.queue = s.store.queue ∧ x.store.held = s.store.held ∧ x.store.failed = s.store.failed ∧
      x.store.writing =
        some { w with stage := if i + 1 = w.group.records.length then .marker 0 else .copies (i + 1) 0 }

/-- R77, R81: of a copy or a marker that fails its read-back the store makes at most three writes. The third failure of a group's first copy
fails the group at once; that of a later copy, or of the marker, first has every copy written before it, or every copy of the group,
restored: each takes the content, version and tag of its cell's effective copy, also under at most three writes, and a restore that fails
three times leaves its copy failing and its cell among the failed ones. That the copies are restored in the order in which the group lists its
records is the model's choice (log 68): R81 orders them nowhere. With the last restore the group has failed. R85: the part is then in
FAILSAFE: authority has ended, every enabled direction is closed, all seventeen entries are drained, an overwrite segment stops, an exchange
is over, the plan is as last closed, and STORE_FAULT is raised; a failed charge is answered STORE_FAULT, and so are a RANGE-COMMIT in its
drain wait, whose ranges return to their previous states, and a BIND-ENROLL in its exchange. -/
def Obligations.ThirdFailedWriteEntersFailsafe : Prop :=
  (∀ (s : State) (w : Writing) (r : Record) (k : Nat), s.power.powered = true → s.power.part = .ready →
    s.power.restarting = false → s.store.writing = some w → w.stage = .copies 0 k → w.group.records[0]? = some r →
    (k < 2 → ∃ x, exec (.copyWriteDone false) s = .next (settle x) ∧ x.power = s.power ∧
      x.store.writing = some { w with stage := .copies 0 (k + 1) }) ∧
    (k = 2 → s.store.queue = [] → s.store.held = [] → ∃ x, exec (.copyWriteDone false) s = .next (settle x) ∧
      failsafeEntered s x ∧ r.cell ∈ x.store.failed ∧
      (w.group.submitter = .executor → Effect.request ∈ w.group.effects → s.executor.status = .executing →
        (∃ a, s.executor.job = .attempt a) →
        x.executor.status = .free ∧ x.sent = s.sent ++ [replyTo s.executor.kind s.executor.tag .storeFault .none]) ∧
      (w.group.submitter = .triggerUnit → s.executor.status = .executing → s.executor.stage = .working →
        (∀ c, s.executor.job = .commit c → (c.affected.map (·.1)).Nodup → x.executor = freeExecutor ∧
          x.sent = s.sent ++ [replyTo s.executor.kind s.executor.tag .storeFault .none] ∧
          ∀ p ∈ c.affected, s.table[p.1].service = .updating → x.table[p.1].service = p.2) ∧
        (∀ recheck digest p, s.executor.job = .enrol recheck digest → s.binding.exchange = .enrol p → x.executor = freeExecutor ∧
          x.sent = s.sent ++ [replyTo s.executor.kind s.executor.tag .storeFault .none] ∧ x.binding.freshSecret = none)))) ∧
  (∀ (s : State) (w : Writing) (k : Nat), s.power.powered = true → s.store.writing = some w →
    (∀ (i : Nat) (r : Record), 0 < i → w.stage = .copies i k → w.group.records[i]? = some r →
      ∃ x, exec (.copyWriteDone false) s = .next (settle x) ∧ x = { s with store := x.store } ∧
        (∀ q : Record, q.inEffect x ↔ q.inEffect s) ∧ x.store.lastClosed = s.store.lastClosed ∧
        (k < 2 → x.store.writing = some { w with stage := .copies i (k + 1) }) ∧
        (2 ≤ k → x.store.writing = some { w with stage := .restoring ((w.group.records.take i).map Record.cell) 0 [r.cell] })) ∧
    (w.stage = .marker k → w.group.records ≠ [] →
      ∃ x, exec (.copyWriteDone false) s = .next (settle x) ∧ x = { s with store := x.store } ∧
        (∀ q : Record, q.inEffect x ↔ q.inEffect s) ∧ x.store.lastClosed = s.store.lastClosed ∧
        (k < 2 → x.store.writing = some { w with stage := .marker (k + 1) }) ∧
        (2 ≤ k → x.store.writing = some { w with stage := .restoring w.group.cells 0 [.marker] })) ∧
    ∀ (c d : Cell) (rest failed : List Cell) (passed : Bool), w.stage = .restoring (c :: d :: rest) k failed →
      ∃ x, exec (.copyWriteDone passed) s = .next (settle x) ∧ x = { s with store := x.store } ∧
        (∀ (q : Record) (side : Side) (v g : Count32), q.cell = c → s.store.effectiveSide c = some side →
          q.isCopy s.store side v g true → q.isCopy x.store side v g true ∧ q.isCopy x.store (otherSide side) v g passed) ∧
        (∀ (q : Record) (side : Side) (v g : Count32) (p : Bool), q.cell ≠ c →
          (q.isCopy x.store side v g p ↔ q.isCopy s.store side v g p)) ∧
        (∀ b, x.store.effectiveSide b = s.store.effectiveSide b) ∧ x.store.lastClosed = s.store.lastClosed ∧
        (passed = true → x.store.writing = some { w with stage := .restoring (d :: rest) 0 failed }) ∧
        (passed = false → k < 2 → x.store.writing = some { w with stage := .restoring (c :: d :: rest) (k + 1) failed }) ∧
        (passed = false → 2 ≤ k → x.store.writing = some { w with stage := .restoring (d :: rest) 0 (failed ++ [c]) })) ∧
  (∀ (s : State) (w : Writing) (k : Nat) (c : Cell) (failed : List Cell) (passed : Bool), s.power.powered = true →
    s.power.part = .ready → s.power.restarting = false → s.store.writing = some w → w.stage = .restoring [c] k failed →
    s.store.queue = [] → s.store.held = [] → passed = true ∨ 2 ≤ k →
    ∃ x, exec (.copyWriteDone passed) s = .next (settle x) ∧ failsafeEntered s x ∧
      (∀ b ∈ failed, b ∈ x.store.failed) ∧ (passed = false → c ∈ x.store.failed))

/-- R77, R80: at the close of a group every record it wrote is what its owner reads, and every other record stays what it was; the group's
number becomes the last closed one. (The close of a full wipe's final group is stated apart, since a start-up may follow it in the same
event.) At the close of its group a request is answered OK and the executor is FREE: a WIPE-TOKEN-SET (R126) and a LOCKDOWN-CLEAR (R119)
with no value, a WIPE with the number of items in the plan (R125), and these with what now stands: a SHADOW-CONFIG (R159), which takes the
window OFF where it disables the shadow and raises MEDIA_VIEW_CHANGED where it changes the size of a window that is present; a CRED-POLICY
(R68) and a CRED-STATE (R69), which raise SLOT_LOCKED_OUT where the slot has become LOCKED_OUT, and REOPEN has the slot accepting from the
close; a TRIGGER-SET (R107), where a new idle limit restarts the idle timer and a device in LOCKDOWN stays, or leaves when no cause is
active under the new table and each has its auto-resume flag on (R118). -/
def Obligations.CloseMakesRecordsEffective : Prop :=
  (∀ (s : State) (scan : ScanFindings) (g : Group), s.readyToClose g → (∀ key, Effect.finalCommit key ∉ g.effects) →
    ∃ x, exec (.groupClose scan) s = .next (settle x) ∧ (∀ r ∈ g.records, r.inEffect x) ∧
      (∀ q : Record, q.cell ∉ g.cells → (q.inEffect x ↔ q.inEffect s)) ∧ x.store.profile = s.store.profile ∧
      ∀ w, s.store.writing = some w → x.store.lastClosed = w.number) ∧
  (∀ (s : State) (scan : ScanFindings) (record : Record) (payload : Payload) (g : Group), s.executor.status = .executing →
    (∃ token, g = requestGroup [record] ∧ record = .token token ∧ s.executor.job = .setToken token ∧ payload = .none) ∨
    (∃ l, g = requestGroup [record] ∧ record = .lockdown l ∧ s.executor.job = .lockdownClear ∧ payload = .none) ∨
    (∃ p, g = wipeGroup [record] [.planAccepted] false ∧ record = .plan p ∧ s.executor.job = .wipe ∧
      payload = .items p.items.length) →
    s.readyToClose g →
    ∃ x, exec (.groupClose scan) s = .next (settle x) ∧ record.inEffect x ∧
      x.sent = s.sent ++ [replyTo s.executor.kind s.executor.tag .ok payload] ∧ x.executor = freeExecutor ∧
      x.table = s.table ∧ x.cache = s.cache ∧ x.shadow = s.shadow ∧ x.shadowEntry = s.shadowEntry ∧ x.inflight = s.inflight ∧
      x.authority = s.authority) ∧
  (∀ (s : State) (scan : ScanFindings) (r : ShadowRecord) (enabled : Option Bool) (size : Option Nat),
    s.readyToClose (requestGroup [.shadow r]) → s.executor.status = .executing → s.executor.job = .shadowConfig enabled size →
    ∃ x, exec (.groupClose scan) s = .next (settle x) ∧ x.shadowRecord = r ∧
      x.sent = s.sent ++ [replyTo s.executor.kind s.executor.tag .ok (.shadowConfig r.enabled r.size)] ∧ x.executor = freeExecutor ∧
      x.table = s.table ∧ x.cache = s.cache ∧ x.inflight = s.inflight ∧ x.authority = s.authority ∧
      (enabled = some false → s.shadow ≠ .off → x.shadow = .off ∧ EventKind.mediaViewChanged ∈ x.events.pending ∧
        (s.shadowEntry.state = .live → x.shadowEntry =
          if s.shadowEntry.refs = 0 then emptyKey else { s.shadowEntry with state := .draining })) ∧
      (enabled ≠ some false ∨ s.shadow = .off → x.shadow = s.shadow ∧ x.shadowEntry = s.shadowEntry ∧
        (size.isSome = true → s.shadow ≠ .off → r.size ≠ s.shadowRecord.size → EventKind.mediaViewChanged ∈ x.events.pending) ∧
        (size = none ∨ s.shadow = .off ∨ r.size = s.shadowRecord.size →
          (EventKind.mediaViewChanged ∈ x.events.pending ↔ EventKind.mediaViewChanged ∈ s.events.pending)))) ∧
  (∀ (s : State) (scan : ScanFindings) (i : SlotId) (c : CredRecord) (more : List Record) (policy : Policy) (idle : Option Nat),
    s.readyToClose (requestGroup (.cred i c :: more)) → more = [] ∨ (∃ k, more = [.counters k]) → s.executor.status = .executing →
    s.executor.job = .credPolicy i policy idle →
    ∃ x, exec (.groupClose scan) s = .next (settle x) ∧ x.cred i = c ∧ (more = [] → x.counters = s.counters) ∧
      (∀ k, more = [.counters k] → x.counters = k) ∧ x.executor = freeExecutor ∧
      x.sent = s.sent ++
        [replyTo s.executor.kind s.executor.tag .ok (.credPolicy c.policy c.failures x.counters.idleLimit)] ∧
      (c.state = .lockedOut → (s.cred i).state ≠ .lockedOut → EventKind.slotLockedOut ∈ x.events.pending) ∧
      (c.state ≠ .lockedOut ∨ (s.cred i).state = .lockedOut →
        (EventKind.slotLockedOut ∈ x.events.pending ↔ EventKind.slotLockedOut ∈ s.events.pending)) ∧
      x.openAt = s.openAt ∧ x.table = s.table ∧ x.cache = s.cache ∧ x.authority = s.authority) ∧
  (∀ (s : State) (scan : ScanFindings) (i : SlotId) (c : CredRecord) (action : CredAction),
    s.readyToClose (requestGroup [.cred i c]) → s.executor.status = .executing → s.executor.job = .credState i action →
    ∃ x, exec (.groupClose scan) s = .next (settle x) ∧ x.cred i = c ∧ x.executor = freeExecutor ∧
      x.sent = s.sent ++ [replyTo s.executor.kind s.executor.tag .ok (.credState c.state c.failures)] ∧
      (action = .enable → c.state = .lockedOut → EventKind.slotLockedOut ∈ x.events.pending) ∧
      (action ≠ .enable ∨ c.state ≠ .lockedOut →
        (EventKind.slotLockedOut ∈ x.events.pending ↔ EventKind.slotLockedOut ∈ s.events.pending)) ∧
      x.openAt = (if action = .reopen then s.openAt.set i s.clock else s.openAt) ∧
      x.table = s.table ∧ x.cache = s.cache ∧ x.authority = s.authority) ∧
  (∀ (s : State) (scan : ScanFindings) (t : TriggerTable) (entry : Option TriggerChange) (gmax idleLimit : Option Nat),
    s.readyToClose (requestGroup [.triggers t]) → s.executor.status = .executing → s.executor.job = .triggerSet entry gmax idleLimit →
    ∃ x, exec (.groupClose scan) s = .next (settle x) ∧ x.triggers = t ∧ x.executor = freeExecutor ∧
      x.sent = s.sent ++ [replyTo s.executor.kind s.executor.tag .ok (.triggers t)] ∧ x.authority = s.authority ∧
      (idleLimit = none → x.trigger.idle = s.trigger.idle) ∧
      (idleLimit.isSome = true →
        (settle x).trigger.idle = if (settle x).idleRuns then IdleTimer.running s.clock else .stopped) ∧
      (s.trigger.working.device = .normal → x.trigger.working = s.trigger.working ∧ x.table = s.table) ∧
      (s.power.part = .ready → s.trigger.working.device = .lockdown →
        let stays := ∃ c ∈ s.trigger.working.causes, (t.entry c).autoResume = false ∨
          (c = .guessLimit ∧ t.gmax ≤ s.counters.g) ∨ (c = .bayOpen ∧ s.trigger.bayLevel = .open) ∨
          (c = .unbound ∧ (s.binding.state = .mismatch ∨ s.binding.state = .fault ∨ s.binding.state = .checking))
        (stays → x.trigger.working = s.trigger.working ∧ x.table = s.table) ∧
        (¬ stays → x.trigger.working = { device := .normal, causes := [] } ∧ EventKind.lockdownLeft ∈ x.events.pending ∧
          ∀ r : RangeId, s.table[r].service = .lockdown → x.table[r].service = .active)))

/-- R88, R89: power loss, in the middle of a write or not, leaves the effective content of every record and the drive profile as they were,
and nothing of the queue and the held groups. What else it takes follows from R157 and from the rules that give each state its value at the
next start: the keys (R34), the transfers and the lanes (R48), the shadow window (R13), authority (R73), the exchange and the gated set
(R105), the Wipe Engine's key (R137), the events (R174) and the request in execution (R164). That they are gone from the loss on, and not
first at the next start, is the model's inference (log 5). -/
def Obligations.PowerLossKeepsEffectiveRecords : Prop :=
  ∀ (s : State) (midWrite : Bool), s.power.powered = true →
    ∃ t, exec (.powerLoss midWrite) s = .next t ∧ t.power.powered = false ∧ (∀ r : Record, r.inEffect t ↔ r.inEffect s) ∧
      t.profile = s.profile ∧ t.store.lastClosed = s.store.lastClosed ∧ t.store.queue = [] ∧ t.store.held = [] ∧
      t.store.writing = none ∧ (∀ o, t.key o = emptyKey) ∧ (∀ tag : Tag, t.inflight[tag] = none) ∧
      (∀ l : LaneId, t.lanes[l] = idleLane) ∧ t.shadow = .off ∧ t.executor = freeExecutor ∧ t.derivations = [] ∧
      t.events.pending = [] ∧ t.events.enabled = [] ∧ t.events.detail = [] ∧ t.binding.exchange = .none ∧ t.binding.gated = [] ∧
      t.trigger.held = [] ∧ t.wipe.key = none ∧ t.authority = none ∧ t.authTimer = none ∧ t.sent = s.sent

/-- R82 to R84: what the store scan of POWER_ON and PART_RESTART makes effective. The marker cell's copy that passes, of two the one with
the higher version, gives the last closed number and the cell list; with both copies lost the number is the highest tag of a passing record
copy, no list counts and no copy is rolled back. Each record cell is settled as `CellPair.settled` says: copies that fail are lost and those
tagged one past the last closed number rolled back, the copy that remains or the higher version of two is effective, a cell in the last
group's list without that group's copy has failed in both copies, and a copy set aside is repaired from the effective one. The failed cells
are those without an effective copy or with a failed repair, the marker cell and the drive profile among them; with one, and only then, the
part enters FAILSAFE and STORE_FAULT is raised, and nothing is written. A copy rolled back, and nothing else, sets rollback-found and raises
STORE_ROLLBACK. A cell that failed in both copies reads as its manufacture contents. First the case of one roll-back for a cell by itself. -/
def Obligations.ScanSettlesStore : Prop :=
  (∀ (α : Type) (c : CellPair α) (side : Side) (unclosed : Count32) (last : Option Count32) (lost : α),
    (c.copy side).passes = true → (c.copy side).tag ≠ unclosed → (c.copy (otherSide side)).tag = unclosed →
    (c.copy (otherSide side)).passes = true → (∀ z, last = some z → (c.copy side).tag = z) →
    (c.scan (some unclosed) last true).pair.read lost = (c.copy side).content ∧
      (c.scan (some unclosed) last true).rolledBack = true ∧ (c.scan (some unclosed) last true).repairFailed = false ∧
      (c.scan (some unclosed) last true).pair.copy side = c.copy side ∧
      (c.scan (some unclosed) last true).pair.copy (otherSide side) = c.copy side) ∧
  ∀ (s : State) (scan : ScanFindings) (c : Instr),
    ((c = .powerOn scan ∧ s.power.powered = false) ∨
      (c = .partRestart scan ∧ s.power.powered = true ∧ s.restartDue = true)) →
    ∃ t, exec c s = .next t ∧
      let marker := t.store.marker
      let z := t.store.lastClosed
      let unclosed := if marker.effective.isSome then some (z + 1) else none
      let listed := match marker.effective with
        | some side => (marker.copy side).content.cells
        | none => []
      let recordTag := fun (tag : Count32) => ∃ b, b ≠ .marker ∧
        s.store.onCell t.store (fun old _ => ∃ side, old.found b scan side ∧ (old.copy side).tag = tag) b
      let rolledBack := ∃ tag, unclosed = some tag ∧ recordTag tag
      s.store.marker.settled marker .marker scan none none ∧
      (∀ side, marker.effective = some side → z = (marker.copy side).content.number) ∧
      (marker.effective = none → (∃ tag, recordTag tag) → recordTag z ∧ ∀ tag, recordTag tag → tag.toNat ≤ z.toNat) ∧
      (∀ b, b ≠ .marker →
        s.store.onCell t.store (fun old new => old.settled new b scan unclosed (if b ∈ listed then some z else none)) b) ∧
      (∀ b, b ∈ t.store.failed ↔ s.store.onCell t.store (fun _ new => new.scanFailed) b) ∧
      t.power.part = (if t.store.failed = [] then .starting else .failsafe) ∧
      (EventKind.storeFault ∈ t.events.pending ↔ t.store.failed ≠ []) ∧
      (t.store.failed ≠ [] → t.store.writing = none ∧ t.store.queue = [] ∧ t.store.held = []) ∧
      (t.power.rollbackFound = true ↔ rolledBack) ∧ (EventKind.storeRollback ∈ t.events.pending ↔ rolledBack) ∧
      (∀ i : SlotId, t.store.creds[i].effective = none → t.cred i = emptySlot) ∧
      (∀ r : RangeId, t.store.ranges[r].effective = none → (t.range r).fields = defaultFields ∧ t.range r =
        { t.range r with tweakOrigin := 0, rootWrap := none } ∧ t.table[r].service = if r = 0 then .active else .undefined) ∧
      (t.store.shadow.effective = none → t.shadowRecord = { t.shadowRecord with enabled := false, size := 65536 }) ∧
      (t.store.counters.effective = none → t.counters = { g := 0, marker := none, idleLimit := 300 }) ∧
      (t.store.binding.effective = none → t.bindingRecord = { enrolled := none, recheck := 10 }) ∧
      (t.store.triggers.effective = none → t.triggers = manufacturedTriggers) ∧
      (t.store.lockdown.effective = none → t.lockdownRecord = { device := .normal, causes := [] }) ∧
      (t.store.plan.effective = none → t.plan = { items := [], overwrite := false, full := false, cursor := none }) ∧
      (t.store.token.effective = none → t.token = none)

/-! ### Start-up, power and sleep -/

/-- R48, R65, R73, R105, R109, R137, R149, R174, R23: at entry into STARTING, after power-on or the restart of RESET-PART, no transfer,
key, lane, authority, derivation, exchange or event is left but STORE_ROLLBACK and STORE_FAULT that the scan itself raises; the
window is OFF; the table is rebuilt from the records with every enabled direction closed and the staging copy equal to it; and the
Wipe Engine holds the effective plan with no position and no key. Some values are the model's own: the open-at times and the overwrite's
count stand at 0 until RESTORE and the overwrite set them (logs 6, 38; R65 gives the open-at times at RESTORE only), and a part that the
scan sends to FAILSAFE has the same table (log 33). R152, R62: the CHARGE stage submits nothing without a marker; a marker found is
settled by a group of the counters without it, and of the slot LOCKED_OUT at its limit, with f and G as they were charged. When that group
closes, the stage ends: attempt-charged is set, ATTEMPT_CHARGED and SLOT_LOCKED_OUT are raised, and a GUESS_LIMIT firing is held. -/
def Obligations.StartUpResetsVolatileState : Prop :=
  (∀ (s : State) (scan : ScanFindings) (c : Instr) (cause : StartCause),
    ((c = .powerOn scan ∧ cause = .powerOn ∧ s.power.powered = false) ∨
      (c = .partRestart scan ∧ cause = .partReset ∧ s.power.powered = true ∧ s.restartDue = true)) →
    ∃ t, exec c s = .next t ∧ t.power.powered = true ∧ (t.power.part = .starting ∨ t.power.part = .failsafe) ∧
      t.power.cause = cause ∧ t.power.hold = false ∧ t.power.drained = false ∧ t.power.relocked = false ∧ t.authority = none ∧
      t.authTimer = none ∧ (∀ tag : Tag, t.inflight[tag] = none) ∧ (∀ o, t.key o = emptyKey) ∧ (∀ l : LaneId, t.lanes[l] = idleLane) ∧
      t.lastGranted = .transfer ∧ t.shadow = .off ∧ t.executor = freeExecutor ∧ t.derivations = [] ∧
      (∀ k ∈ t.events.pending, k = .storeRollback ∨ k = .storeFault) ∧ t.events.enabled = [] ∧ t.events.detail = [] ∧
      t.events.alert = false ∧ t.binding.exchange = .none ∧ t.binding.rounds = 0 ∧ t.binding.gated = [] ∧ t.binding.recheck = none ∧
      t.trigger.idle = .stopped ∧ t.trigger.bayLevel = s.trigger.bayLine ∧ t.trigger.stability = none ∧ t.trigger.held = [] ∧
      (∀ i : SlotId, t.openAt[i] = 0) ∧ t.wipe.intended = t.plan ∧ t.wipe.position = none ∧ t.wipe.key = none ∧ t.wipe.count = 0 ∧
      (∀ r : RangeId, t.table[r].readLocked = (t.range r).fields.readLock ∧ t.table[r].writeLocked = (t.range r).fields.writeLock ∧
        t.table[r].service = (if r ≠ 0 ∧ (t.range r).fields.length = 0 then .undefined else .active) ∧
        t.staging[r] = { fields := (t.range r).fields, newKey := false }) ∧
      (t.power.part = .starting → t.counters.marker = none → t.power.stage = .restoreDue ∧ t.store.writing = none) ∧
      ∀ m, t.power.part = .starting → t.counters.marker = some m → t.power.stage = .charge ∧ t.store.writing = some
        { group := chargeGroup m.slot (t.cred m.slot).atLimit
            (.counters { t.counters with marker := none } ::
              (if (t.cred m.slot).policy.limit ≠ 0 ∧ (t.cred m.slot).failures = (t.cred m.slot).policy.limit
               then [.cred m.slot { t.cred m.slot with state := .lockedOut }] else []))
          number := t.store.lastClosed + 1, stage := .copies 0 0 }) ∧
  (∀ (s : State) (scan : ScanFindings) (i : SlotId) (lockedOut : Bool) (counters : Counters) (cred : CredRecord),
    s.power.part = .starting → s.power.stage = .charge →
    s.readyToClose (chargeGroup i lockedOut (.counters counters :: (if lockedOut then [.cred i cred] else []))) →
    ∃ x, exec (.groupClose scan) s = .next (settle x) ∧
      x.power = { s.power with attemptCharged := true, stage := .restoreDue } ∧ x.counters = counters ∧
      (lockedOut = true → x.cred i = cred ∧ EventKind.slotLockedOut ∈ x.events.pending) ∧
      EventKind.attemptCharged ∈ x.events.pending ∧
      x.trigger = (if s.triggers.gmax ≤ counters.g then { s.trigger with held := s.trigger.held ++ [.guessLimit] } else s.trigger) ∧
      x.table = s.table ∧ x.openAt = s.openAt ∧ x.authority = s.authority ∧ x.sent = s.sent)

/-- R153, R155: RESTORE of a part that finds NORMAL, no wipe, a closed bay and no held firing closes every enabled direction, loads the keys
of ACTIVE ranges without a lock from their root wraps, restarts every non-EMPTY slot's backoff, presents the window where its conditions
hold, and makes the part READY; with SLP asserted and the executor FREE the part goes straight on to sleep. R154: an ENROLLED drive starts
its check with reference BOUND (the challenge is a free value, log 8), and RESTORE does not wait for it; an UNENROLLED one sends nothing.
R109, R113: a bay found open of which no change was taken is a taken change to OPEN, and BAY_OPEN joins the held firings; all held firings
are carried out and the list is emptied: with NOTE and RELOCK the device stays NORMAL, and with LOCKDOWN, where a cause is active or does
not resume by itself, it enters LOCKDOWN with those causes, every ACTIVE range under its response and the record submitted. R121: a lockdown
record that it finds, and that the exit decision of its last step does not end, takes every defined range into LOCKDOWN under its response,
without LOCKDOWN_ENTERED and without a group. R137: the ranges that a wipe plan it finds still has to work, and all of them under the
full-wipe flag, are ERASING instead. No key of a range in LOCKDOWN or ERASING is loaded, and the shadow's only where no wipe holds the
window (which plans count: log 34, DispositionTables); it has no key generation (log 47). -/
def Obligations.RestoreMakesPartReady : Prop :=
  (∀ s : State, s.power.powered = true → s.restoreIsDue = true → s.lockdownRecord = manufacturedLockdown →
    s.trigger.working = manufacturedLockdown → s.plan = emptyPlan → s.trigger.bayLevel = .closed → s.trigger.held = [] →
    ∃ x, exec .restore s = .next (settle x) ∧
      x.power = { s.power with part := .ready, stage := .ended, hold := s.power.hold || s.power.slp } ∧
      (s.power.slp = true → s.executor.status = .free →
        (settle x).power.part = .sleepEntering ∨ (settle x).power.part = .asleep) ∧
      (s.enrolled = false → x.binding = s.binding ∧ x.sent = s.sent) ∧
      (s.enrolled = true → s.binding.exchange = .none → x.sent = s.sent ++ [firstChallenge (Config.freshChallenge s.entropy)] ∧
        x.binding = Binding.inRound { s.binding with
            rounds := 0, reference := some .bound, recheck := none
            state := if s.binding.state = .mismatch ∨ s.binding.state = .fault then s.binding.state else .checking }
          (Config.freshChallenge s.entropy) s.clock) ∧
      (∀ r : RangeId, x.table[r] = { s.table[r] with
        readLocked := (s.range r).fields.readLock, writeLocked := (s.range r).fields.writeLock }) ∧
      (∀ r : RangeId, x.key (.range r) =
        match (s.range r).rootWrap with
        | some key => if s.table[r].service = .active ∧ s.anyLock r = false then
            (s.key (.range r)).load key (some (s.range r).generation) else s.key (.range r)
        | none => s.key (.range r)) ∧
      (∀ i : SlotId, x.openAt[i] = if (s.cred i).state = .empty then s.openAt[i]
        else s.clock + closedPeriod (s.cred i).policy (s.cred i).failures) ∧
      (s.shadowRecord.enabled = true → (∃ r, s.table[r].service ≠ .undefined ∧ s.anyLock r = true) →
        x.shadow = .on ∧ EventKind.mediaViewChanged ∈ x.events.pending) ∧
      (s.shadowRecord.enabled = false → x.shadow = s.shadow ∧ x.events = s.events) ∧ x.store = s.store) ∧
  (∀ s : State, s.power.powered = true → s.restoreIsDue = true → s.lockdownRecord = manufacturedLockdown →
    s.trigger.working = manufacturedLockdown → s.plan = emptyPlan → s.executor = freeExecutor →
    let found := s.trigger.bayLevel = .open ∧ s.trigger.bayTaken = false
    let fired := s.trigger.held ++ (if found then [.bayOpen] else [])
    ∃ x, exec .restore s = .next (settle x) ∧ x.power.part = .ready ∧ x.trigger.held = [] ∧
      (found → EventKind.bayChanged ∈ x.events.pending ∧ x.events.latchedOpen = true) ∧
      (∀ t ∈ fired, t ∈ x.events.detail ∧ EventKind.triggerFired ∈ x.events.pending) ∧
      ((∀ t ∈ fired, (s.triggers.entry t).action = .note ∨ (s.triggers.entry t).action = .relock) →
        x.trigger.working = manufacturedLockdown ∧ x.store = s.store ∧ ∀ r : RangeId, x.table[r] = { s.table[r] with
          readLocked := (s.range r).fields.readLock, writeLocked := (s.range r).fields.writeLock }) ∧
      ((∀ t ∈ fired, (s.triggers.entry t).action ≠ .wipe) →
        (∃ t ∈ fired, t ≠ .idle ∧ (s.triggers.entry t).action = .lockdown ∧
          (s.causeActive t = true ∨ (s.triggers.entry t).autoResume = false)) →
        x.trigger.working.device = .lockdown ∧
        (∀ t, t ∈ x.trigger.working.causes ↔ t ≠ .idle ∧ t ∈ fired ∧ (s.triggers.entry t).action = .lockdown) ∧
        EventKind.lockdownEntered ∈ x.events.pending ∧
        (∃ g ∈ x.store.waitingGroups, g.submitter = .triggerUnit ∧ Record.lockdown x.trigger.working ∈ g.records) ∧
        ∀ r : RangeId, s.table[r].service = .active → x.table[r] =
            { readLocked := (s.range r).fields.readLock, writeLocked := (s.range r).fields.writeLock
              service := .lockdown, inForce := (s.range r).fields.response } ∧
          (x.key (.range r)).state ≠ .live)) ∧
  (∀ s : State, s.power.powered = true → s.restoreIsDue = true → s.power.slp = false → s.trigger.working = manufacturedLockdown →
    s.trigger.bayLevel = .closed → s.trigger.held = [] → s.enrolled = false → s.executor = freeExecutor →
    (∀ tag : Tag, s.inflight[tag] = none) → (∀ o, s.key o = emptyKey) →
    (∀ r : RangeId, s.table[r].service = if s.defined r then .active else .undefined) →
    s.lockdownRecord.device = .normal ∨ (∃ c ∈ s.lockdownRecord.causes, s.causeActive c = true) ∨
      (∃ c ∈ s.lockdownRecord.causes, (s.triggers.entry c).autoResume = false) →
    ∃ x, exec .restore s = .next (settle x) ∧ x.power = { s.power with part := .ready, stage := .ended } ∧
      x.trigger = { s.trigger with
        working := if s.lockdownRecord.device = .lockdown then s.lockdownRecord else manufacturedLockdown } ∧
      (∀ r : RangeId, x.table[r] =
        { readLocked := (s.range r).fields.readLock, writeLocked := (s.range r).fields.writeLock
          service := if s.defined r = false then .undefined else if s.restoreErases (.range r) then .erasing
            else if s.lockdownRecord.device = .lockdown then .lockdown else .active
          inForce := if s.lockdownRecord.device = .lockdown ∧ s.defined r then (s.range r).fields.response else s.table[r].inForce }) ∧
      (∀ r : RangeId, x.key (.range r) =
        if s.defined r ∧ s.restoreErases (.range r) = false ∧ s.lockdownRecord.device = .normal ∧ s.anyLock r = false then
          match (s.range r).rootWrap with
          | some key => { state := .live, material := some key, generation := some (s.range r).generation, refs := 0 }
          | none => emptyKey
        else emptyKey) ∧
      x.shadow = (if s.presentsShadow then .on else s.shadow) ∧
      x.shadowEntry = (if s.presentsShadow ∧ s.shadowErasing = false then
        { state := .live, material := some s.shadowRecord.rootWrap, generation := none, refs := 0 } else emptyKey) ∧
      x.events = (if s.presentsShadow then { s.events with pending := withEvent .mediaViewChanged s.events.pending } else s.events) ∧
      (∀ i : SlotId, x.openAt[i] = if (s.cred i).state = .empty then s.openAt[i]
        else s.clock + closedPeriod (s.cred i).policy (s.cred i).failures) ∧
      x.wipe = s.wipe ∧ x.store = s.store ∧ x.sent = s.sent)

/-- R139, R140: an assertion of SLP in READY with the executor FREE, and a sleep entry that is due, take the part into SLEEP_ENTERING
(and on to ASLEEP in the same event when nothing is left to wait for): authority ends without an event, and LOADING becomes ON. R139:
an assertion of SLP while a request executes sets the sleep hold, and the part stays READY. -/
def Obligations.SleepEntryWaitsForExecutor : Prop :=
  (∀ (s : State) (c : Instr), s.power.powered = true →
    ((c = .slpAsserted ∧ s.power.slp = false ∧ s.power.part = .ready ∧ s.executor.status = .free) ∨
      (c = .sleepEntry ∧ s.sleepEntryDue = true)) →
    ∃ t, exec c s = .next t ∧ (t.power.part = .sleepEntering ∨ t.power.part = .asleep) ∧ t.power.hold = false ∧
      t.authority = none ∧ t.authTimer = none ∧ t.trigger.idle = .stopped ∧ t.binding.recheck = none ∧
      t.shadow = (if s.shadow = .loading then .on else s.shadow) ∧
      (EventKind.authorityEnded ∈ t.events.pending → EventKind.authorityEnded ∈ s.events.pending)) ∧
  (∀ s : State, s.power.powered = true → s.power.slp = false → s.power.part = .ready → s.executor.status ≠ .free →
    exec .slpAsserted s = .next (settle { s with power := { s.power with slp := true, hold := true } }))

/-- R142, R12: the sleep DROP closes every enabled direction of each range with policy DROP and a lock, drains the entry of such a
range that is ACTIVE, leaves every other range and key as they were, sets the drain mark, and sets the relock flag when an ACTIVE range
lost an open enabled direction. R143, R104: when the store has run out after the drain, SLEEP_READY is raised, the part is ASLEEP, and
a check in progress is abandoned with the binding state back at its reference. -/
def Obligations.SleepDropThenAsleep : Prop :=
  (∀ s : State, s.power.powered = true → s.sleepDropDue = true →
    ∃ x, exec .sleepDrop s = .next (settle x) ∧
      x = { s with power := x.power, table := x.table, cache := x.cache } ∧
      x.power = { s.power with
        drained := true, relocked := s.power.relocked || allRanges.any (fun r => s.openEnabled r && !x.openEnabled r) } ∧
      ∀ r : RangeId,
        ((s.range r).fields.sleep = .drop → s.anyLock r = true →
          x.table[r] = { s.table[r] with
            readLocked := (s.range r).fields.readLock, writeLocked := (s.range r).fields.writeLock } ∧
          x.key (.range r) = if s.table[r].service = .active then (s.key (.range r)).drain else s.key (.range r)) ∧
        ((s.range r).fields.sleep = .hold ∨ s.anyLock r = false → x.table[r] = s.table[r] ∧ x.key (.range r) = s.key (.range r))) ∧
  (∀ s : State, s.power.powered = true → s.sleepReadyDue = true →
    ∃ x, exec .sleepReady s = .next (settle x) ∧
      x = { s with power := { s.power with part := .asleep }, binding := x.binding, events := x.events } ∧
      (∀ k, k ∈ x.events.pending ↔ k = .sleepReady ∨ k ∈ s.events.pending) ∧ x.binding.recheck = none ∧
      x.binding.gated = s.binding.gated ∧
      (∀ p, s.binding.exchange = .check p → x.binding.exchange = .none ∧
        x.binding.state = if s.binding.state = .checking then s.binding.reference.getD .checking else s.binding.state))

/-- R145, R147: a release of SLP clears a hold in READY, takes SLEEP_ENTERING back to READY with both flags cleared, and wakes an
ASLEEP part: backoff restarts, the gated set is formed anew, and the window is presented when a range was relocked; authority stays
absent. -/
def Obligations.SlpReleaseByPartState : Prop :=
  ∀ s : State, s.power.powered = true → s.power.slp = true →
    (s.power.part = .ready →
      exec .slpReleased s = .next (settle { s with power := { s.power with slp := false, hold := false } })) ∧
    (s.power.part = .sleepEntering → ∃ x, exec .slpReleased s = .next (settle x) ∧
      x.power = { s.power with slp := false, part := .ready, drained := false, relocked := false } ∧ x.table = s.table ∧
      x.cache = s.cache ∧ x.shadow = s.shadow ∧ x.openAt = s.openAt ∧ x.binding = s.binding ∧ x.authority = s.authority) ∧
    (s.power.part = .asleep → ∃ x, exec .slpReleased s = .next (settle x) ∧
      x.power = { s.power with slp := false, part := .ready, drained := false, relocked := false } ∧
      x.table = s.table ∧ x.cache = s.cache ∧ x.authority = s.authority ∧
      (∀ i : SlotId, x.openAt[i] = if (s.cred i).state = .empty then s.openAt[i]
        else s.clock + closedPeriod (s.cred i).policy (s.cred i).failures) ∧
      (s.enrolled = false → x.binding.gated = []) ∧
      (s.enrolled = true → ∀ r, r ∈ x.binding.gated ↔ (s.range r).fields.sleep = .hold ∧ s.anyLock r = true) ∧
      (s.enrolled = true → s.binding.exchange = .none → x.binding.rounds = 0 ∧ x.binding.reference = some s.binding.state ∧
        x.binding.state = if s.binding.state = .mismatch ∨ s.binding.state = .fault then s.binding.state else .checking) ∧
      (x.shadow = if s.shadowRecord.enabled = true ∧ s.shadow = .off ∧ s.power.relocked = true then .on else s.shadow))

/-! ### Waits and timers -/

/-- R19: when every affected range's count is 0 the drain wait ends and the group waits only for its submission. R20: the expiry of
the 2 s drain limit answers DRAIN_TIMEOUT; each affected range in UPDATING returns to its previous state, and the staging copy, the
committed table and the locks stay as they were. R12, R35: the entry of a range that is ACTIVE again with no open direction, because a
relock reached it in the wait, drains; every other entry stays. The clock's new value is the model's choice (log 1). -/
def Obligations.DrainWaitEndsOrTimesOut : Prop :=
  (∀ (s : State) (c : Commit), s.power.powered = true → s.executor.job = .commit c → s.executor.stage = .working →
    (∀ p ∈ c.affected, (s.key (.range p.1)).refs = 0) →
    exec .drainWaitEnd s = .next (settle { s with executor := { s.executor with stage := .wanted } })) ∧
  (∀ (s : State) (c : Commit), s.power.powered = true → s.executor.status = .executing → s.executor.job = .commit c →
    s.executor.stage = .working → (c.affected.map (·.1)).Nodup →
    ∃ x, exec .drainLimitExpiry s = .next (settle x) ∧
      x = { s with
        clock := max s.clock (c.drainSince + 2000), table := x.table, cache := x.cache, executor := freeExecutor, authTimer := none
        sent := s.sent ++ [replyTo s.executor.kind s.executor.tag .drainTimeout .none] } ∧
      (∀ p ∈ c.affected, s.table[p.1].service = .updating → x.table[p.1] = { s.table[p.1] with service := p.2 } ∧
        x.key (.range p.1) = if p.2 = .active ∧ s.readClosed p.1 = true ∧ s.writeClosed p.1 = true
          then (s.key (.range p.1)).drain else s.key (.range p.1)) ∧
      (∀ r : RangeId, r ∉ c.affected.map (·.1) ∨ s.table[r].service ≠ .updating →
        x.table[r] = s.table[r] ∧ x.key (.range r) = s.key (.range r)))

/-- R59, R58: when the charge of an attempt closes, the raised counts are in effect and its derivation begins; R62: where a FRONT_RESET has
abandoned the attempt no derivation begins, and the settlement group, the marker cleared and the slot LOCKED_OUT at its limit, is submitted
at once where no group of R129 is in its way. R59, R61: at the end of an attempt's derivation the verdict is reached at this moment; a
failed one ends the authority held first, a successful one leaves it for the verdict's close; the verdict group is ready to be submitted.
The derivation is symbolic (log 9). -/
def Obligations.DerivationReachesVerdict : Prop :=
  (∀ (s : State) (scan : ScanFindings) (a : Attempt) (record : CredRecord) (counters : Counters), s.executor.job = .attempt a →
    a.phase = .charging → s.readyToClose (requestGroup [.cred a.slot record, .counters counters]) →
    (s.executor.status = .executing → ∃ x, exec (.groupClose scan) s = .next (settle x) ∧ x.cred a.slot = record ∧
      x.counters = counters ∧ x.executor = { s.executor with job := .attempt { a with phase := .deriving }, stage := .working } ∧
      x.derivations = s.derivations ++ [.executor] ∧ x.openAt = s.openAt ∧ x.authority = s.authority ∧ x.table = s.table ∧
      x.sent = s.sent) ∧
    (s.executor.status = .abandoned →
      (∃ x, exec (.groupClose scan) s = .next (settle x) ∧ x.cred a.slot = record ∧ x.counters = counters ∧
        x.executor = { s.executor with job := .attempt { a with phase := .settling }, stage := .wanted } ∧
        x.derivations = s.derivations ∧ x.openAt = s.openAt ∧ x.authority = s.authority ∧ x.table = s.table ∧ x.sent = s.sent) ∧
      (s.power.part = .ready → (∀ g ∈ s.store.queue ++ s.store.held, g.submitter ≠ .executor ∧ g.rewrites = false) →
        ∃ t, exec (.groupClose scan) s = .next t ∧
          requestGroup (.counters { counters with marker := none } ::
            (if record.policy.limit ≠ 0 ∧ record.failures = record.policy.limit
             then [.cred a.slot { record with state := .lockedOut }] else [])) ∈ t.store.waitingGroups ∧
          t.executor = { s.executor with job := .attempt { a with phase := .settling }, stage := .submitted }))) ∧
  ∀ (s : State) (a : Attempt) (rest : List DerivationUser), s.power.powered = true → s.derivations = .executor :: rest →
    s.executor.job = .attempt a → a.phase = .deriving →
    ∃ success x, exec .derivationComplete s = .next (settle x) ∧
      (success = true ↔ (s.cred a.slot).verifier =
        some { madeFrom := { secret := a.secret, salt := (s.cred a.slot).salt.getD 0, e := (s.cred a.slot).policy.e } }) ∧
      x = { s with
        derivations := rest, authority := if success then s.authority else none
        authTimer := if success then s.authTimer else none
        executor := { s.executor with
          job := .attempt { a with settledAt := s.clock, phase := .verdict success }, stage := .wanted } }

/-- R108: an edge of the BAY line makes its level the candidate and restarts the 500 ms, or stops the timer when the level is the debounced
one. R108, R113, R114, R179: at a taken change of the bay in READY, BAY_CHANGED is raised and the debounced level follows; a change to
CLOSED on a NORMAL device fires nothing, and a change to OPEN latches the flag and fires BAY_OPEN. In READY, SLEEP_ENTERING and ASLEEP the
firing is carried out at once: with the action RELOCK every enabled direction is closed, the entry of each ACTIVE range left with no open
direction is drained (R12), and authority ends; R144, R146: in the two sleep states the sleep relock flag is set where a range that is
ACTIVE loses an open enabled direction by it. In STARTING before RESTORE has ended the firing only joins the held ones, and in FAILSAFE it
is recorded and raised and nothing is carried out. The clock's new value is the model's choice (log 1). -/
def Obligations.BayLineIsDebounced : Prop :=
  (∀ (s : State) (level : BayLevel), s.power.powered = true →
    exec (.bayEdge level) s = .next (settle { s with trigger := { s.trigger with
      bayLine := level, candidate := level
      stability := if level = s.trigger.bayLevel then none else some s.clock } })) ∧
  (∀ (s : State) (since : Nat), s.power.powered = true → s.power.part = .ready → s.trigger.stability = some since →
    ∃ x, exec .bayStabilityExpiry s = .next (settle x) ∧ x.trigger.bayLevel = s.trigger.candidate ∧ x.trigger.stability = none ∧
      EventKind.bayChanged ∈ x.events.pending ∧ x.clock = max s.clock (since + 500) ∧
      (s.trigger.candidate = .closed → s.trigger.working = manufacturedLockdown →
        x.events = { s.events with pending := withEvent .bayChanged s.events.pending } ∧ x.table = s.table ∧
        x.authority = s.authority ∧ x.trigger.working = s.trigger.working ∧ x.store = s.store) ∧
      (s.trigger.candidate = .open → x.events.latchedOpen = true ∧ Trigger.bayOpen ∈ x.events.detail ∧
        EventKind.triggerFired ∈ x.events.pending) ∧
      (s.trigger.candidate = .open → s.triggers.bayOpen.action = .relock → x.authority = none ∧
        (s.authority.isSome = true → EventKind.authorityEnded ∈ x.events.pending) ∧ x.trigger.working = s.trigger.working ∧
        ∀ r : RangeId, x.table[r] = { s.table[r] with
          readLocked := (s.range r).fields.readLock, writeLocked := (s.range r).fields.writeLock }) ∧
      (s.trigger.candidate = .open → s.triggers.bayOpen.action = .note → x.table = s.table ∧ x.authority = s.authority ∧
        x.store = s.store ∧ x.trigger.working = s.trigger.working)) ∧
  ∀ (s : State) (since : Nat), s.power.powered = true → s.trigger.stability = some since → s.trigger.candidate = .open →
    let taken : State := { s with
      clock := max s.clock (since + 500)
      trigger := { s.trigger with bayLevel := .open, stability := none, bayTaken := true }
      events := { s.events with pending := withEvent .bayChanged s.events.pending, latchedOpen := true } }
    (s.power.part = .starting → s.power.stage ≠ .ended → exec .bayStabilityExpiry s = .next (settle { taken with
      trigger := { taken.trigger with held := s.trigger.held ++ [.bayOpen] } })) ∧
    (s.power.part = .failsafe → exec .bayStabilityExpiry s = .next (settle { taken with
      events := { taken.events with
        pending := withEvent .triggerFired taken.events.pending, detail := withTrigger .bayOpen s.events.detail } })) ∧
    (s.power.part = .ready ∨ s.power.part = .sleepEntering ∨ s.power.part = .asleep → s.triggers.bayOpen.action = .relock →
      ∃ x, exec .bayStabilityExpiry s = .next (settle x) ∧
        x = { taken with
          table := x.table, cache := x.cache, authority := none, authTimer := none, events := x.events
          power := if s.power.part ≠ .ready ∧ (∃ r : RangeId, s.openEnabled r = true)
            then { s.power with relocked := true } else s.power } ∧
        EventKind.triggerFired ∈ x.events.pending ∧ Trigger.bayOpen ∈ x.events.detail ∧
        ∀ r : RangeId,
          x.table[r] = { s.table[r] with
            readLocked := (s.range r).fields.readLock, writeLocked := (s.range r).fields.writeLock } ∧
          x.key (.range r) =
            if s.table[r].service = .active ∧ (s.range r).fields.readLock = true ∧ (s.range r).fields.writeLock = true ∧
              (s.key (.range r)).state = .live
            then (if (s.key (.range r)).refs = 0 then emptyKey else { s.key (.range r) with state := .draining })
            else s.key (.range r))

/-- R115, R11, R10: BAY_OPEN with the action LOCKDOWN on a NORMAL device in READY, SLEEP_ENTERING or ASLEEP puts the device into LOCKDOWN
with that cause alone, takes every ACTIVE range into LOCKDOWN under its response, ends authority, raises LOCKDOWN_ENTERED, and submits the
lockdown record; in the two sleep states the sleep relock flag is set where an ACTIVE range loses an open enabled direction by it (R144,
R146). R37: the ranges with response CLOSE are aborted with reason LOCKDOWN and their entries are EMPTY: each live transfer with a segment
of one of them is ABORTING, or ABORTED at once where its lane has nothing unanswered; all references of such a transfer are released (R36),
and every other transfer goes on. The entry of a range with response HIDE drains. R116, R125: with the action WIPE the device state stays,
authority ends, and a wipe of scope ALL without overwriting is accepted: unless the plan holds it all already, every defined range that is
ACTIVE or in LOCKDOWN is ERASING with its entry EMPTY, the shadow entry is EMPTY unless its item is still at work, the marked owners are
aborted with reason ERASE in the same way, and the intended plan's group is submitted; no request is answered. R20: a RANGE-COMMIT in its
drain wait ends at either action: the reply is LOCKDOWN, or SLOT_STATE naming a marked range in UPDATING; every affected range is back in its
previous state, and then takes LOCKDOWN or ERASING if that was ACTIVE and stays UNDEFINED if it was UNDEFINED; the staging copy is kept. Once
its group has been submitted, the LOCKDOWN or the mark is held against each range in UPDATING instead, an ERASING outlasting a LOCKDOWN, and
the request goes on. That the reply LOCKDOWN comes before the completions (log 65), that SLOT_STATE comes among them and names the first
range in UPDATING in the order of the marks, also one that was UNDEFINED before (logs 72, 45), are the model's choices. -/
def Obligations.BayOpenEntersLockdown : Prop :=
  (∀ (s : State) (since : Nat), s.power.powered = true →
    s.power.part = .ready ∨ s.power.part = .sleepEntering ∨ s.power.part = .asleep → s.power.restarting = false →
    s.trigger.stability = some since → s.trigger.candidate = .open → s.triggers.bayOpen.action = .lockdown →
    s.trigger.working = manufacturedLockdown → s.commitDraining = false →
    let closes : Owner → Bool := fun o => match o with
      | .range r => decide (s.table[r].service = .active ∧ (s.range r).fields.response = .close)
      | .shadow => false
    let released := fun (o : Owner) (e : KeyEntry) => e.released (s.refsHit closes o)
    ∃ x, exec .bayStabilityExpiry s = .next (settle x) ∧ transfersAborted s x closes .lockdown ∧
      x.power = (if s.power.part ≠ .ready ∧ (∃ r : RangeId, s.openEnabled r = true)
        then { s.power with relocked := true } else s.power) ∧
      x.shadowEntry = released .shadow s.shadowEntry ∧
      (∀ r : RangeId, x.key (.range r) =
        if closes (.range r) then emptyKey
        else if s.table[r].service = .active ∧ (s.key (.range r)).state = .live then released (.range r)
          (if (s.key (.range r)).refs = 0 then emptyKey else { s.key (.range r) with state := .draining })
        else released (.range r) (s.key (.range r))) ∧
      x.trigger.working = { device := .lockdown, causes := [.bayOpen] } ∧ x.authority = none ∧
      EventKind.lockdownEntered ∈ x.events.pending ∧
      (∃ g ∈ x.store.waitingGroups, g.submitter = .triggerUnit ∧
        Record.lockdown { device := .lockdown, causes := [.bayOpen] } ∈ g.records) ∧
      ∀ r : RangeId,
        (s.table[r].service = .active → x.table[r] =
          { s.table[r] with service := .lockdown, inForce := (s.range r).fields.response }) ∧
        (s.table[r].service ≠ .active → x.table[r] = s.table[r])) ∧
  (∀ (s : State) (since : Nat), s.power.powered = true → s.power.part = .ready → s.power.restarting = false →
    s.trigger.stability = some since → s.trigger.candidate = .open → s.triggers.bayOpen.action = .wipe → s.commitDraining = false →
    ∃ x, exec .bayStabilityExpiry s = .next (settle x) ∧ x.authority = none ∧
      (s.authority.isSome = true → EventKind.authorityEnded ∈ x.events.pending) ∧ x.trigger.working = s.trigger.working ∧
      EventKind.triggerFired ∈ x.events.pending ∧ Trigger.bayOpen ∈ x.events.detail ∧
      x.executor.status = s.executor.status ∧ x.wipe.intended = s.wipe.intended.accept allTargets false true ∧
      (x.wipe.intended = s.wipe.intended → x.table = s.table ∧ x.inflight = s.inflight ∧ x.store = s.store ∧ x.sent = s.sent) ∧
      (x.wipe.intended ≠ s.wipe.intended →
        (∃ g ∈ x.store.waitingGroups, g.submitter = .wipeEngine ∧ Record.plan x.wipe.intended ∈ g.records) ∧
        transfersAborted s x (s.marksAtOnce allTargets true) .erase ∧
        (∀ o, x.key o = if s.marksAtOnce allTargets true o then emptyKey
          else (s.key o).released (s.refsHit (s.marksAtOnce allTargets true) o)) ∧
        ((s.wipe.intended.item .shadow).all (fun i => i.step = .done) = true → x.shadowEntry = emptyKey) ∧
        ∀ r : RangeId,
          (s.defined r = true → s.table[r].service = .active ∨ s.table[r].service = .lockdown →
            x.table[r] = { s.table[r] with service := .erasing } ∧ x.key (.range r) = emptyKey) ∧
          (s.table[r].service ≠ .active → s.table[r].service ≠ .lockdown → x.table[r] = s.table[r]))) ∧
  (∀ (s : State) (since : Nat) (c : Commit) (before : RangeId → Service), s.power.powered = true → s.power.part = .ready →
    s.power.restarting = false → s.trigger.stability = some since → s.trigger.candidate = .open →
    s.trigger.working = manufacturedLockdown → s.commitWaits c → s.statesBefore c before →
    let reply := replyTo s.executor.kind s.executor.tag
    (s.triggers.bayOpen.action = .lockdown →
      let closes : Owner → Bool := fun o => match o with
        | .range r => decide (before r = .active ∧ (s.range r).fields.response = .close)
        | .shadow => false
      ∃ (x : State) (after : List Sent), exec .bayStabilityExpiry s = .next (settle x) ∧ x.executor = freeExecutor ∧
        x.sent = s.sent ++ reply .lockdown .none :: after ∧ (∀ r, Sent.reply r ∉ after) ∧ x.staging = s.staging ∧
        transfersAborted s x closes .lockdown ∧ x.authority = none ∧
        x.trigger.working = { device := .lockdown, causes := [.bayOpen] } ∧ ∀ r : RangeId,
          x.key (.range r) = (if closes (.range r) then emptyKey
            else if before r = .active ∧ (s.key (.range r)).state = .live then
              KeyEntry.released (if (s.key (.range r)).refs = 0 then emptyKey else { s.key (.range r) with state := .draining })
                (s.refsHit closes (.range r))
            else (s.key (.range r)).released (s.refsHit closes (.range r))) ∧
          (before r = .active → x.table[r] = { s.table[r] with service := .lockdown, inForce := (s.range r).fields.response }) ∧
          (before r ≠ .active → x.table[r] = { s.table[r] with service := before r })) ∧
    (s.triggers.bayOpen.action = .wipe → s.wipe.intended = emptyPlan →
      ∀ first : RangeId, lowestRange (fun r => s.table[r].service = .updating) first →
      let marked : Owner → Bool := fun o => match o with
        | .range r => decide (before r = .active ∨ before r = .lockdown)
        | .shadow => true
      ∃ (x : State) (ahead after : List Sent), exec .bayStabilityExpiry s = .next (settle x) ∧ x.executor = freeExecutor ∧
        x.sent = s.sent ++ ahead ++ reply .slotState (.range (some first)) :: after ∧
        (∀ r, Sent.reply r ∉ ahead ∧ Sent.reply r ∉ after) ∧ x.staging = s.staging ∧
        transfersAborted s x marked .erase ∧ x.authority = none ∧
        x.wipe.intended = { items := allTargets.map (fun o => { target := o, step := .pending }), overwrite := false, full := true,
                            cursor := none } ∧ x.shadowEntry = emptyKey ∧ ∀ r : RangeId,
          (marked (.range r) = true → x.table[r] = { s.table[r] with service := .erasing } ∧ x.key (.range r) = emptyKey) ∧
          (marked (.range r) = false → x.table[r] = { s.table[r] with service := before r } ∧
            x.key (.range r) = (s.key (.range r)).released (s.refsHit marked (.range r))))) ∧
  ∀ (s : State) (since : Nat) (c : Commit), s.power.powered = true → s.power.part = .ready → s.power.restarting = false →
    s.trigger.stability = some since → s.trigger.candidate = .open → s.trigger.working = manufacturedLockdown →
    s.executor.status = .executing → s.executor.job = .commit c → s.executor.stage ≠ .working → s.wipe.intended = emptyPlan →
    ∃ (x : State) (held : Commit), exec .bayStabilityExpiry s = .next (settle x) ∧
      x.executor = { s.executor with job := .commit held } ∧ held = { c with held := held.held } ∧
      (∀ r h, s.table[r].service ≠ .updating → ((r, h) ∈ held.held ↔ (r, h) ∈ c.held)) ∧
      (s.triggers.bayOpen.action = .lockdown → ∀ r : RangeId, s.table[r].service = .updating → x.table[r] = s.table[r] ∧
        ((r, Held.erasing) ∉ c.held → (r, Held.lockdown) ∈ held.held) ∧ ((r, Held.erasing) ∈ c.held → (r, Held.erasing) ∈ held.held)) ∧
      (s.triggers.bayOpen.action = .wipe → ∀ r : RangeId, s.table[r].service = .updating → x.table[r] = s.table[r] ∧
        (r, Held.erasing) ∈ held.held ∧ r ∉ x.binding.gated)

/-- R110, R113: the expiry of the trigger idle timer in READY stops the timer at its limit and fires IDLE; with the action NOTE no lock,
authority or record changes. R114, R12: with the action RELOCK every enabled direction is closed, the entry of each ACTIVE range left with
no open direction is drained, every other entry stays, and authority ends. (The timer runs in READY alone; what a firing does in the other
part states is in BayLineIsDebounced.) The clock's new value is the model's choice (log 1). -/
def Obligations.IdleExpiryFiresIdle : Prop :=
  ∀ (s : State) (since : Nat), s.power.powered = true → s.power.part = .ready → s.trigger.idle = .running since →
    ∃ x, exec .idleTimerExpiry s = .next (settle x) ∧ x.trigger.idle = .expired ∧ Trigger.idle ∈ x.events.detail ∧
      EventKind.triggerFired ∈ x.events.pending ∧ x.clock = max s.clock (since + s.triggers.idleLimit * 60000) ∧
      (s.triggers.idle.action = .note → x.table = s.table ∧ x.authority = s.authority ∧ x.store = s.store ∧ x.cache = s.cache) ∧
      (s.triggers.idle.action = .relock → x.authority = none ∧
        (s.authority.isSome = true → EventKind.authorityEnded ∈ x.events.pending) ∧ x.shadowEntry = s.shadowEntry ∧
        x.inflight = s.inflight ∧ x.store = s.store ∧ ∀ r : RangeId,
          x.table[r] = { s.table[r] with
            readLocked := (s.range r).fields.readLock, writeLocked := (s.range r).fields.writeLock } ∧
          x.key (.range r) =
            if s.table[r].service = .active ∧ (s.range r).fields.readLock = true ∧ (s.range r).fields.writeLock = true ∧
              (s.key (.range r)).state = .live
            then (if (s.key (.range r)).refs = 0 then emptyKey else { s.key (.range r) with state := .draining })
            else s.key (.range r))

/-! ### Platform binding -/

/-- R97, R94: the expiry of the recheck timer and BIND-CHECK start a check when none runs: the round count is cleared, the reference
state recorded, the state CHECKING unless it is MISMATCH or FAULT, and CHALLENGE 0 of a fresh challenge is sent; BIND-CHECK is then
answered OK. R101: BIND-ENROLL with no check in progress begins its exchange at once: a fresh binding secret, the toggle at 0, ENROL 0
sent with bytes 0 to 15 of the secret; the request goes on. The clock's new value is the model's choice (log 1). Fresh values are the
model's free values (log 8). -/
def Obligations.ExchangesStart : Prop :=
  (∀ s : State, s.enrolled = true → s.binding.exchange = .none →
    (∀ since, s.power.powered = true → s.binding.recheck = some since →
      exec .recheckTimerExpiry s = .next (settle { s with
        clock := max s.clock (since + s.bindingRecord.recheck * 60000), entropy := s.entropy + 1
        binding := (Binding.inRound { s.binding with
            rounds := 0, reference := some s.binding.state, recheck := none
            state := if s.binding.state = .mismatch ∨ s.binding.state = .fault then s.binding.state else .checking }
          (Config.freshChallenge s.entropy) (max s.clock (since + s.bindingRecord.recheck * 60000)))
        sent := s.sent ++ [firstChallenge (Config.freshChallenge s.entropy)] })) ∧
    (∀ tag, s.takesRequest → s.admin = true →
      exec (.bindCheck tag (.fits ())) s = .next (settle (({ s with
        entropy := s.entropy + 1
        binding := (Binding.inRound { s.binding with
            rounds := 0, reference := some s.binding.state, recheck := none
            state := if s.binding.state = .mismatch ∨ s.binding.state = .fault then s.binding.state else .checking }
          (Config.freshChallenge s.entropy) s.clock)
        sent := s.sent ++ [firstChallenge (Config.freshChallenge s.entropy)] } : State).answered 19 tag .ok .none)))) ∧
  (∀ (s : State) (tag : Byte) (recheck : Option Nat), s.takesRequest → s.admin = true → s.binding.exchange = .none →
    ∃ t more, exec (.bindEnroll tag (.fits recheck)) s = .next t ∧ t.executor.status = .executing ∧
      t.executor.job = .enrol (recheck.map (fun n => max 1 (min 60 n))) none ∧ t.binding.exchange = .enrol (.sending 0) ∧
      t.binding.freshSecret = some (Config.freshBindingSecret s.entropy) ∧ t.binding.toggle = true ∧ t.binding.failures = 0 ∧
      t.binding.recheck = none ∧ t.binding.state = s.binding.state ∧
      t.sent = s.sent ++ .page
        { kind := .enrol, toggle := true, more := true, acknowledge := false, index := 0
          payload := firstHalfOf (Config.freshBindingSecret s.entropy) } :: more)

/-- R96, R98: a tether fault, or a page timeout after 50 ms, fails the round in progress: the round count rises by one and the next round is
waited for; at 7 the check ends FAULT, and in READY UNBOUND fires. R96, R101: 200 ms after a failed round the next round starts with a fresh
challenge and the same round count; 200 ms after a failed enrolment exchange the exchange runs again with the same secret. R92, R101: a
tether fault and a page timeout fail an enrolment exchange in the same way: the next is waited for, and the seventh failed one ends the
enrolment: the fresh secret is erased, the reply is FAILED with both values absent, and the binding record and the binding state are as they
were. The clock's new value is the model's choice (log 1). Fresh values are the model's free values (log 8). -/
def Obligations.FailedRoundsAreRetried : Prop :=
  (∀ (s : State) (p : ExchangePhase) (c : Instr) (now : Nat), s.power.powered = true → s.binding.exchange = .check p → p ≠ .pausing →
    ((c = .tetherFault ∧ now = s.clock) ∨ (c = .pageTimeout ∧ now = max s.clock (s.binding.waitSince + 50))) →
    (s.binding.rounds + 1 < 7 → exec c s = .next (settle { s with
      clock := now
      binding := { s.binding with
        rounds := s.binding.rounds + 1, exchange := .check .pausing, challenge := none, firstHalf := none, waitSince := now } })) ∧
    (7 ≤ s.binding.rounds + 1 → s.power.part = .ready → ∃ x, exec c s = .next (settle x) ∧ x.binding.state = .fault ∧
      x.binding.exchange = .none ∧ x.binding.rounds = s.binding.rounds + 1 ∧ Trigger.unbound ∈ x.events.detail ∧
      EventKind.triggerFired ∈ x.events.pending ∧
      (s.binding.reference ≠ some .fault → EventKind.bindingChanged ∈ x.events.pending))) ∧
  (∀ (s : State) (p : ExchangePhase) (c : Instr) (now : Nat), s.power.powered = true → s.binding.exchange = .enrol p → p ≠ .pausing →
    ((c = .tetherFault ∧ now = s.clock) ∨ (c = .pageTimeout ∧ now = max s.clock (s.binding.waitSince + 50))) →
    (s.binding.failures + 1 < 7 → exec c s = .next (settle { s with
      clock := now
      binding := { s.binding with failures := s.binding.failures + 1, exchange := .enrol .pausing, waitSince := now } })) ∧
    (7 ≤ s.binding.failures + 1 → s.executor.status = .executing → exec c s = .next (settle { s with
      clock := now
      binding := { s.binding with failures := s.binding.failures + 1, exchange := .none, freshSecret := none }
      executor := freeExecutor, authTimer := none
      sent := s.sent ++ [replyTo s.executor.kind s.executor.tag .failed (.failed none none)] }))) ∧
  (∀ s : State, s.power.powered = true →
    (s.binding.exchange = .check .pausing → exec .roundWaitExpiry s = .next (settle { s with
      clock := max s.clock (s.binding.waitSince + 200), entropy := s.entropy + 1
      binding := s.binding.inRound (Config.freshChallenge s.entropy) (max s.clock (s.binding.waitSince + 200))
      sent := s.sent ++ [firstChallenge (Config.freshChallenge s.entropy)] })) ∧
    (∀ secret, s.binding.exchange = .enrol .pausing → s.binding.freshSecret = some secret →
      exec .enrolRetryExpiry s = .next (settle { s with
        clock := max s.clock (s.binding.waitSince + 200)
        binding := { s.binding with
          toggle := true, exchange := .enrol (.sending 0), waitSince := max s.clock (s.binding.waitSince + 200) }
        sent := s.sent ++ [.page
          { kind := .enrol, toggle := true, more := true, acknowledge := false, index := 0, payload := firstHalfOf secret }] })))

/-- R93: a page whose check byte does not agree is discarded; a page the part does not wait for, or one of no listed form, is a sequence
error, which fails a round (R96) or an enrolment exchange (R101): the count rises by one and the next is waited for, short of the seventh,
and the seventh failed enrolment exchange erases the secret and is answered FAILED; a repeat of the page taken last is acknowledged again
and not taken. R94: the acknowledgements move the round on to CHALLENGE 1 and to RESPONSE 0, and the pages of the module from one to the
next with the toggle turned and each acknowledged. R95, R98: RESPONSE 0 with another digest than the enrolled one, and RESPONSE 2 with a
response that is not the expected one, end the check MISMATCH, with UNBOUND fired, and the right response ends it BOUND and empties the
gated set; the end raises BINDING_CHANGED where it differs from the reference state. R101: ENROL 1 follows the acknowledgement of ENROL 0,
ENROL 2 is waited for, and its digest goes to the request, whose group is then due. (An acknowledgement's payload is a free value, log 28.)
-/
def Obligations.TetherPageMovesRound : Prop :=
  ∀ (s : State) (page : Vector Byte 20), s.power.powered = true →
    let roundFailed : State := { s with binding := { s.binding with
      rounds := s.binding.rounds + 1, exchange := .check .pausing, challenge := none, firstHalf := none, waitSince := s.clock } }
    let exchangeFailed : State := { s with binding := { s.binding with
      failures := s.binding.failures + 1, exchange := .enrol .pausing, waitSince := s.clock } }
    let enrolmentFailed : State := { s with
      binding := { s.binding with failures := s.binding.failures + 1, exchange := .none, freshSecret := none }
      executor := freeExecutor, authTimer := none
      sent := s.sent ++ [replyTo s.executor.kind s.executor.tag .failed (.failed none none)] }
    (readPage page.toList = .badCheck → exec (.tetherPageReceived page) s = .next (settle s)) ∧
    (readPage page.toList = .unlisted →
      (s.binding.exchange = .none → exec (.tetherPageReceived page) s = .next (settle s)) ∧
      (∀ i, s.binding.exchange = .check (.sending i) ∨ s.binding.exchange = .check (.awaiting i) → s.binding.rounds < 6 →
        exec (.tetherPageReceived page) s = .next (settle roundFailed)) ∧
      (∀ i, s.binding.exchange = .enrol (.sending i) ∨ s.binding.exchange = .enrol (.awaiting i) →
        (s.binding.failures < 6 → exec (.tetherPageReceived page) s = .next (settle exchangeFailed)) ∧
        (6 ≤ s.binding.failures → s.executor.status = .executing →
          exec (.tetherPageReceived page) s = .next (settle enrolmentFailed)))) ∧
    ∀ p : TetherPage, readPage page.toList = .page p →
      let acknowledges := fun (i : Nat) => p.kind = .ack ∧ p.acknowledge = true ∧ p.index = i ∧ p.toggle = s.binding.toggle
      let answers := fun (kind : PageKind) (i : Nat) =>
        p.kind = kind ∧ p.index = i ∧ p.acknowledge = false ∧ p.toggle ≠ s.binding.toggle ∧
          p.more = decide (kind = .response ∧ i ≠ 2)
      let taken := { s.binding with toggle := p.toggle, lastPage := some { kind := p.kind, index := p.index, toggle := p.toggle } }
      let acknowledged := fun (payload : Word16) => Sent.page
        { kind := .ack, toggle := p.toggle, more := false, acknowledge := true, index := p.index, payload := payload }
      (∀ challenge, s.binding.exchange = .check (.sending 0) → s.binding.challenge = some challenge → acknowledges 0 →
        exec (.tetherPageReceived page) s = .next (settle { s with
          binding := { s.binding with toggle := !s.binding.toggle, exchange := .check (.sending 1), waitSince := s.clock }
          sent := s.sent ++ [.page
            { kind := .challenge, toggle := !s.binding.toggle, more := false, acknowledge := false, index := 1
              payload := secondHalfOf challenge }] })) ∧
      (s.binding.exchange = .check (.sending 1) → acknowledges 1 →
        exec (.tetherPageReceived page) s = .next (settle { s with
          binding := { s.binding with exchange := .check (.awaiting 0), waitSince := s.clock } })) ∧
      (∀ secret, s.binding.exchange = .enrol (.sending 0) → s.binding.freshSecret = some secret → acknowledges 0 →
        exec (.tetherPageReceived page) s = .next (settle { s with
          binding := { s.binding with toggle := !s.binding.toggle, exchange := .enrol (.sending 1), waitSince := s.clock }
          sent := s.sent ++ [.page
            { kind := .enrol, toggle := !s.binding.toggle, more := false, acknowledge := false, index := 1
              payload := secondHalfOf secret }] })) ∧
      (s.binding.exchange = .enrol (.sending 1) → acknowledges 1 →
        exec (.tetherPageReceived page) s = .next (settle { s with
          binding := { s.binding with exchange := .enrol (.awaiting 2), waitSince := s.clock } })) ∧
      (s.binding.exchange = .check (.awaiting 0) → answers .response 0 → s.bindingRecord.enrolled.map (·.digest) = some p.payload →
        ∃ payload, exec (.tetherPageReceived page) s = .next (settle { s with
          binding := { taken with exchange := .check (.awaiting 1), waitSince := s.clock }, entropy := s.entropy + 1
          sent := s.sent ++ [acknowledged payload] })) ∧
      (s.binding.exchange = .check (.awaiting 1) → answers .response 1 →
        ∃ payload, exec (.tetherPageReceived page) s = .next (settle { s with
          binding := { taken with exchange := .check (.awaiting 2), firstHalf := some p.payload, waitSince := s.clock }
          entropy := s.entropy + 1, sent := s.sent ++ [acknowledged payload] })) ∧
      (∀ challenge half digest secret, s.binding.exchange = .check (.awaiting 2) → s.binding.challenge = some challenge →
        s.binding.firstHalf = some half → s.bindingRecord.enrolled = some { digest := digest, secret := secret } →
        answers .response 2 → half ++ p.payload = Config.response challenge secret →
        ∃ (x : State) (payload : Word16), exec (.tetherPageReceived page) s = .next (settle x) ∧ x.binding.state = .bound ∧
          x.binding.exchange = .none ∧ x.binding.gated = [] ∧ x.binding.rounds = s.binding.rounds ∧
          (s.binding.reference ≠ some .bound → EventKind.bindingChanged ∈ x.events.pending) ∧
          x.sent = s.sent ++ [acknowledged payload]) ∧
      ((∃ digest secret, s.bindingRecord.enrolled = some { digest := digest, secret := secret } ∧
          ((s.binding.exchange = .check (.awaiting 0) ∧ answers .response 0 ∧ p.payload ≠ digest) ∨
            ∃ challenge half, s.binding.exchange = .check (.awaiting 2) ∧ answers .response 2 ∧ s.binding.challenge = some challenge ∧
              s.binding.firstHalf = some half ∧ half ++ p.payload ≠ Config.response challenge secret)) →
        ∃ (x : State) (payload : Word16) (after : List Sent), exec (.tetherPageReceived page) s = .next (settle x) ∧
          x.binding.state = .mismatch ∧ x.binding.exchange = .none ∧ x.binding.rounds = s.binding.rounds ∧
          (s.binding.reference ≠ some .mismatch → EventKind.bindingChanged ∈ x.events.pending) ∧
          (s.power.part = .ready → EventKind.triggerFired ∈ x.events.pending ∧ Trigger.unbound ∈ x.events.detail) ∧
          (s.power.part = .ready → s.triggers.unbound.action = .note → x.table = s.table ∧ x.binding.gated = s.binding.gated ∧ after = []) ∧
          x.sent = s.sent ++ acknowledged payload :: after) ∧
      (∀ recheck, s.binding.exchange = .enrol (.awaiting 2) → answers .enrol 2 → s.executor.job = .enrol recheck none →
        ∃ payload, exec (.tetherPageReceived page) s = .next (settle { s with
          binding := { taken with exchange := .none }, entropy := s.entropy + 1, sent := s.sent ++ [acknowledged payload]
          executor := { s.executor with job := .enrol recheck (some p.payload), stage := .wanted } })) ∧
      (∀ i, (s.binding.exchange = .check (.awaiting i) ∨ s.binding.exchange = .enrol (.awaiting i) → p.kind ≠ .ack →
          p.toggle = s.binding.toggle →
          ∃ payload, exec (.tetherPageReceived page) s = .next (settle { s with
            entropy := s.entropy + 1, sent := s.sent ++ [acknowledged payload] })) ∧
        ((s.binding.exchange = .check (.sending i) ∧ ¬ acknowledges i) ∨
            (s.binding.exchange = .check (.awaiting i) ∧ ¬ answers .response i ∧ (p.kind = .ack ∨ p.toggle ≠ s.binding.toggle)) →
          s.binding.rounds < 6 → exec (.tetherPageReceived page) s = .next (settle roundFailed)) ∧
        ((s.binding.exchange = .enrol (.sending i) ∧ ¬ acknowledges i) ∨
            (s.binding.exchange = .enrol (.awaiting i) ∧ ¬ answers .enrol i ∧ (p.kind = .ack ∨ p.toggle ≠ s.binding.toggle)) →
          (s.binding.failures < 6 → exec (.tetherPageReceived page) s = .next (settle exchangeFailed)) ∧
          (6 ≤ s.binding.failures → s.executor.status = .executing →
            exec (.tetherPageReceived page) s = .next (settle enrolmentFailed)))) ∧
      (s.binding.exchange = .none →
        (s.binding.lastPage = some { kind := p.kind, index := p.index, toggle := p.toggle } →
          ∃ payload, exec (.tetherPageReceived page) s = .next (settle { s with
            entropy := s.entropy + 1, sent := s.sent ++ [acknowledged payload] })) ∧
        (s.binding.lastPage ≠ some { kind := p.kind, index := p.index, toggle := p.toggle } →
          exec (.tetherPageReceived page) s = .next (settle s)))

/-! ### The Wipe Engine -/

/-- R127, R128: the key step of the current PENDING item begins, on an idle store, a group with a fresh key: for the SHADOW item the shadow
record with the new root wrap and the plan; for an ERASING range with at most six slots on its list the range record with its locks and
access list cleared, its generation raised by 1 and its new tweak origin, the slots' records without their wraps of it, and the plan; in the
plan the item is KEYS_DESTROYED with the overwrite flag set and DONE without it. A range with seven or eight slots on its list is trimmed
first: the group holds the range record with its list cut to its six lowest slots, which keeps its key and key generation, and the records
of the other slots without their wraps of it; the plan stays. The item of an UNDEFINED range takes a group of the plan alone, in which it is
DONE. A defined range that is still ACTIVE or in LOCKDOWN is marked erasing at that moment: it is ERASING with its entry EMPTY and its
transfers aborted with reason ERASE (R37). R130, R137: an overwrite of the current item that may begin takes the item's key, its own or the
one under the root wrap, and asks the arbiter for a lane from the next block of the extent; nothing else changes. It waits while a transfer
of the item is ABORTING, and while a lane is still stopping in a write of the item for a transfer that FRONT_RESET cleared, by the model's
inference from what R130 ensures (log 27). R131, R38: an acknowledged block of an overwrite segment that is not its last moves the segment's
progress on, and only writes of zeros under the item's key, to blocks of the segment, follow. With its last block acknowledged, or with a
media error and every other write answered, the segment ends behind its last or its failing block: the lane is idle, the count rises by the
segment's blocks and the position moves to the next LBA of the extent; at 4,096 a cursor group with the item OVERWRITING is submitted and
the count is 0; a lane is asked for again, or, at the extent's end, the group that ends the item is submitted (R132). No event and no
message tells of the error. A stopping lane is idle when its last write is answered (R38). Fresh values are the model's free values (log 8),
and so is the number of writes a lane keeps issued (log 13). -/
def Obligations.WipeWorkBegins : Prop :=
  (∀ s : State, s.power.powered = true → s.power.part = .ready → s.power.restarting = false → s.store.idle = true →
    s.wipe.stepInFlight = false →
    (s.plan.current = some { target := .shadow, step := .pending } →
      s.wipe.intended.current = some { target := .shadow, step := .pending } →
      ∃ x g, exec .keyStep s = .next (settle x) ∧ x.wipe.stepInFlight = true ∧
        x.store.writing = some { group := g, number := s.store.lastClosed + 1, stage := .copies 0 0 } ∧
        g.submitter = .wipeEngine ∧
        g.records = [.shadow { s.shadowRecord with rootWrap := Config.freshKey s.entropy }, .plan x.wipe.intended] ∧
        (s.wipe.intended.overwrite = true → x.wipe.intended = s.wipe.intended.setStep .shadow .keysDestroyed) ∧
        (s.wipe.intended.overwrite = false → x.wipe.intended = s.wipe.intended.finish .shadow)) ∧
    (∀ r : RangeId, s.plan.current = some { target := .range r, step := .pending } →
      s.wipe.intended.current = some { target := .range r, step := .pending } → s.defined r = true →
      s.table[r].service = .erasing → (s.range r).fields.access.length ≤ 6 →
      ∃ x g, exec .keyStep s = .next (settle x) ∧ x.wipe.stepInFlight = true ∧
        x.store.writing = some { group := g, number := s.store.lastClosed + 1, stage := .copies 0 0 } ∧
        g.submitter = .wipeEngine ∧ x.table = s.table ∧
        g.records = .range r { s.range r with
            fields := { (s.range r).fields with readLock := false, writeLock := false, access := [] }
            generation := (s.range r).generation + 1
            tweakOrigin := if r = 0 then 0 else
              BitVec.ofNat 64 ((s.range r).fields.start * (s.profile.blockSize / (s.range r).fields.unitSize))
            rootWrap := some (Config.freshKey s.entropy) } ::
          ((s.range r).fields.access.map (fun i => Record.cred i { s.cred i with
            wraps := (s.cred i).wraps.filter (fun w => w.range ≠ r) }) ++ [.plan x.wipe.intended]) ∧
        (s.wipe.intended.overwrite = true → x.wipe.intended = s.wipe.intended.setStep (.range r) .keysDestroyed) ∧
        (s.wipe.intended.overwrite = false → x.wipe.intended = s.wipe.intended.finish (.range r))) ∧
    (∀ r : RangeId, s.plan.current = some { target := .range r, step := .pending } →
      s.wipe.intended.current = some { target := .range r, step := .pending } → s.defined r = true →
      s.table[r].service = .erasing → 7 ≤ (s.range r).fields.access.length →
      ∃ (x : State) (kept cut : List SlotId), exec .keyStep s = .next (settle x) ∧
        x = { s with wipe := { s.wipe with stepInFlight := true }, store := x.store } ∧
        kept ++ cut = (s.range r).fields.access ∧ kept.length = 6 ∧
        ((s.range r).fields.access.Pairwise (· < ·) → ∀ i ∈ kept, ∀ j ∈ cut, i < j) ∧
        x.store.writing = some
          { group := wipeGroup
              (.range r { s.range r with fields := { (s.range r).fields with access := kept } } ::
                cut.map (fun i => Record.cred i { s.cred i with wraps := (s.cred i).wraps.filter (fun w => w.range ≠ r) }))
              [.trimmed r] true
            number := s.store.lastClosed + 1, stage := .copies 0 0 }) ∧
    (∀ r : RangeId, s.plan.current = some { target := .range r, step := .pending } →
      s.wipe.intended.current = some { target := .range r, step := .pending } → s.defined r = false →
      s.table[r].service = .undefined →
      ∃ (x : State) (g : Group), exec .keyStep s = .next (settle x) ∧
        x = { s with wipe := { s.wipe with stepInFlight := true, intended := s.wipe.intended.finish (.range r) }, store := x.store } ∧
        x.store.writing = some { group := g, number := s.store.lastClosed + 1, stage := .copies 0 0 } ∧
        g.submitter = .wipeEngine ∧ g.records = [.plan x.wipe.intended]) ∧
    (∀ r : RangeId, s.plan.current = some { target := .range r, step := .pending } →
      s.wipe.intended.current = some { target := .range r, step := .pending } → s.defined r = true →
      s.table[r].service = .active ∨ s.table[r].service = .lockdown →
      ∃ (x : State) (w : Writing), exec .keyStep s = .next (settle x) ∧ x.wipe.stepInFlight = true ∧
        x.store.writing = some w ∧ w.group.submitter = .wipeEngine ∧
        transfersAborted s x (fun o => decide (o = .range r)) .erase ∧ x.key (.range r) = emptyKey ∧
        x.table[r] = { s.table[r] with service := .erasing } ∧ ∀ q : RangeId, q ≠ r → x.table[q] = s.table[q])) ∧
  (∀ (s : State) (t : Owner) (p : Nat), s.power.powered = true → s.power.part = .ready → s.overwriteTarget = some t →
    s.wipe.asked = false → s.overwriteLane = none → s.abortsOver t = true → s.extentNext t s.position = some p →
    exec .overwriteStart s = .next (settle { s with
      wipe := { s.wipe with key := some (s.wipe.key.getD (s.rootKeyOf t)), position := some p, asked := true } })) ∧
  (∀ (s : State) (t : Owner), s.power.powered = true → s.overwriteTarget = some t →
    (∃ (g : Tag) (y : Transfer), s.inflight[g] = some y ∧ y.state = .aborting ∧ ∃ z ∈ y.segments, z.owner = t) ∨
      (∃ l : LaneId, s.lanes[l].task = some (.cleared (some t))) →
    exec .overwriteStart s = .next (settle s)) ∧
  (∀ (s : State) (l : LaneId) (t : Owner) (key : Key) (first count progress n : Nat) (rest : List Nat) (data : List Byte),
    s.power.powered = true → s.lanes[l].task = some (.overwrite first count progress) → s.lanes[l].issued = n :: rest →
    s.lanes[l].stopping = false → s.lanes[l].failing = none → s.overwriteTarget = some t → s.wipe.key = some key →
    progress + 1 ≠ count →
    ∃ x more, exec (.mediaAcknowledge l (.answer data)) s = .next (settle x) ∧
      x = { s with lanes := x.lanes, sent := s.sent ++ more } ∧
      x.lanes[l].task = some (.overwrite first count (progress + 1)) ∧ (∀ k : LaneId, k ≠ l → x.lanes[k] = s.lanes[k]) ∧
      ∀ m ∈ more, ∃ b, first + progress < b ∧ b < first + count ∧ m = .mediaWrite l (s.mediaLba t b)
        (overUnits Config.encipher key (s.overwriteTweak t) s.profile.blockSize b (List.replicate s.profile.blockSize 0))) ∧
  (∀ (s : State) (l : LaneId) (t : Owner) (first count progress n last : Nat) (rest : List Nat) (c : Instr),
    s.power.powered = true → s.power.part = .ready → s.power.restarting = false →
    s.lanes[l].task = some (.overwrite first count progress) → s.lanes[l].issued = n :: rest → s.lanes[l].stopping = false →
    s.overwriteTarget = some t →
    (s.lanes[l].failing = none ∧ (∃ data, c = .mediaAcknowledge l (.answer data)) ∧ progress + 1 = count ∧ last = first + progress) ∨
      (rest = [] ∧ s.lanes[l].failing = none ∧ c = .mediaError l n ∧ first ≤ n ∧ last = n) ∨
      (rest = [] ∧ s.lanes[l].failing = some last ∧ first ≤ last ∧
        (c = .mediaError l n ∨ ∃ data, c = .mediaAcknowledge l (.answer data))) →
    ∃ x, exec c s = .next (settle x) ∧
      x = { s with lanes := s.lanes.set l idleLane, wipe := x.wipe, store := x.store } ∧
      (∀ p, s.extentNext t (last + 1) = some p → s.wipe.count + (last + 1 - first) < 4096 → x.store = s.store ∧
        x.wipe = { s.wipe with position := some p, count := s.wipe.count + (last + 1 - first), asked := true }) ∧
      (∀ p, s.extentNext t (last + 1) = some p → 4096 ≤ s.wipe.count + (last + 1 - first) →
        x.wipe = { s.wipe with
          position := some p, count := 0, asked := true
          intended := { s.wipe.intended.setStep t .overwriting with cursor := some p } } ∧
        ∃ g ∈ x.store.waitingGroups, g.submitter = .wipeEngine ∧ Record.plan x.wipe.intended ∈ g.records) ∧
      (s.extentNext t (last + 1) = none →
        x.wipe = { s.wipe with
          position := some (last + 1), count := s.wipe.count + (last + 1 - first), asked := false, overwriting := false
          intended := s.wipe.intended.finish t, stepInFlight := true } ∧
        ∃ g ∈ x.store.waitingGroups, g.submitter = .wipeEngine ∧ Record.plan x.wipe.intended ∈ g.records)) ∧
  (∀ (s : State) (l : LaneId) (first count progress n m : Nat) (rest : List Nat) (data : List Byte), s.power.powered = true →
    s.lanes[l].task = some (.overwrite first count progress) →
    (s.lanes[l].stopping = false → s.lanes[l].issued = n :: m :: rest →
      exec (.mediaError l n) s = .next (settle { s with
        lanes := s.lanes.set l { s.lanes[l] with issued := m :: rest, failing := some (s.lanes[l].failing.getD n) } }) ∧
      (s.lanes[l].failing.isSome = true → exec (.mediaAcknowledge l (.answer data)) s = .next (settle { s with
        lanes := s.lanes.set l { s.lanes[l] with issued := m :: rest } }))) ∧
    (s.lanes[l].stopping = true → ∀ c : Instr, c = .mediaError l n ∨ c = .mediaAcknowledge l (.answer data) →
      (s.lanes[l].issued = [n] → exec c s = .next (settle { s with lanes := s.lanes.set l idleLane })) ∧
      (s.lanes[l].issued = n :: m :: rest →
        exec c s = .next (settle { s with lanes := s.lanes.set l { s.lanes[l] with issued := m :: rest } }))))

/-- R124, R125: a WIPE of well-formed distinct targets, by an ADMIN holder or with the wipe token whatever authority is held, that adds to
the plan marks each new ACTIVE or LOCKDOWN range ERASING at once with its key gone, and hands the store a group of the grown plan; the
request waits for its close. R37: the marked owners, with scope ALL every defined range and the shadow among them, are aborted with reason
ERASE and their entries are EMPTY: each live transfer with a segment of one of them is ABORTING, or ABORTED at once where its lane has
nothing unanswered; all references of such a transfer are released (R36), and every other transfer and entry goes on. R136: in FAILSAFE the
same holds of a WIPE of scope ALL with the factory secret of the drive profile. The plan grows from the intended plan, in which an overwrite
flag has first reopened an item whose key step is on its way (the model's choice, log 26). R124: a scope that fails check 1, a token that is
not 32 bytes, or a factory secret in READY is answered BAD_BODY, and a WIPE without a credential by no ADMIN holder NO_AUTHORITY; with a
wrong wipe token the group of the counters record begins, with G raised by 1 to at most 255, and at its close the reply is FAILED with both
values absent, after GUESS_LIMIT has fired where G has come to Gmax. R136: in FAILSAFE a wrong factory secret is answered FAILED with
nothing counted, a right one STORE_FAULT where the drive profile has failed, and every other WIPE STORE_FAULT (R124 check 2). -/
def Obligations.WipeMarksAtOnce : Prop :=
  (∀ (s : State) (tag : Byte) (x : WipeArgs) (targets : List Owner),
    (s.takesRequest ∧ s.power.restarting = false ∧
        ((x.credential = .absent ∧ s.admin = true) ∨ ∃ t, x.credential = .token t ∧ t.length = 32 ∧ s.token = some t)) ∨
      (s.power.powered = true ∧ s.power.part = .failsafe ∧ s.executor.status = .free ∧ x.scope = .all ∧ s.profileLost = false ∧
        x.credential = .factorySecret s.profile.factorySecret ∧ s.profile.factorySecret.length = 32) →
    scopeOf x.scope = some targets →
    (s.planToAccept x.overwrite).accept targets x.overwrite (x.scope = .all) ≠ s.wipe.intended →
    ∃ y, exec (.wipe tag (.fits x)) s = .next (settle y) ∧
      (s.keyStepUnderWay = none ∨ x.overwrite = false →
        y.wipe.intended = s.wipe.intended.accept targets x.overwrite (x.scope = .all)) ∧
      y.wipe.intended = (s.planToAccept x.overwrite).accept targets x.overwrite (x.scope = .all) ∧
      (∃ g ∈ y.store.waitingGroups, g.submitter = .wipeEngine ∧ Record.plan y.wipe.intended ∈ g.records) ∧
      (∀ r : RangeId, Owner.range r ∈ targets → s.wipe.intended.item (.range r) = none →
        s.table[r].service = .active ∨ s.table[r].service = .lockdown →
        y.table[r] = { s.table[r] with service := .erasing } ∧ y.key (.range r) = emptyKey) ∧
      (Owner.shadow ∈ targets → s.wipe.intended.item .shadow = none → y.key .shadow = emptyKey) ∧
      transfersAborted s y (s.marksAtOnce targets (x.scope = .all)) .erase ∧
      (∀ o, y.key o = if s.marksAtOnce targets (x.scope = .all) o then emptyKey
        else (s.key o).released (s.refsHit (s.marksAtOnce targets (x.scope = .all)) o)) ∧
      y.executor.status = .executing ∧ y.executor.job = .wipe ∧ y.authority = s.authority) ∧
  (∀ (s : State) (tag : Byte) (x : WipeArgs) (targets : List Owner) (t : List Byte), s.takesRequest → s.store.idle = true →
    scopeOf x.scope = some targets → x.credential = .token t → t.length = 32 → s.token ≠ some t →
    ∃ y, exec (.wipe tag (.fits x)) s = .next y ∧ beginsGroup s y [.counters { s.counters with g := min (s.counters.g + 1) 255 }] ∧
      y.executor.job = .wrongToken ∧ y.table = s.table) ∧
  (∀ (s : State) (tag : Byte) (x : WipeArgs), s.takesRequest →
    (scopeOf x.scope = none ∨ (∃ t, x.credential = .token t ∧ t.length ≠ 32) ∨ (∃ f, x.credential = .factorySecret f) →
      exec (.wipe tag (.fits x)) s = .next (settle (s.answered 23 tag .badBody .none))) ∧
    ((scopeOf x.scope).isSome = true → x.credential = .absent → s.admin = false →
      exec (.wipe tag (.fits x)) s = .next (settle (s.answered 23 tag .noAuthority .none)))) ∧
  (∀ (s : State) (scan : ScanFindings) (k : Counters), s.readyToClose (requestGroup [.counters k]) →
    s.executor.status = .executing → s.executor.job = .wrongToken →
    ∃ (x : State) (between : List Sent), exec (.groupClose scan) s = .next (settle x) ∧ x.counters = k ∧ x.executor = freeExecutor ∧
      x.sent = s.sent ++ between ++ [replyTo s.executor.kind s.executor.tag .failed (.failed none none)] ∧
      (k.g < s.triggers.gmax → between = [] ∧ x.table = s.table) ∧
      (s.triggers.gmax ≤ k.g → s.power.part = .ready →
        EventKind.triggerFired ∈ x.events.pending ∧ Trigger.guessLimit ∈ x.events.detail)) ∧
  ∀ (s : State) (tag : Byte) (x : WipeArgs) (targets : List Owner), s.power.powered = true → s.power.part = .failsafe →
    s.executor.status = .free → scopeOf x.scope = some targets →
    (∀ f, x.scope = .all → x.credential = .factorySecret f → f.length = 32 →
      (s.profileLost = true → exec (.wipe tag (.fits x)) s = .next (settle (s.answered 23 tag .storeFault .none))) ∧
      (s.profileLost = false → f ≠ s.profile.factorySecret →
        exec (.wipe tag (.fits x)) s = .next (settle (s.answered 23 tag .failed (.failed none none))))) ∧
    (x.credential = .absent ∨ (∃ t, x.credential = .token t ∧ t.length = 32) ∨
        (x.scope ≠ .all ∧ ∃ f, x.credential = .factorySecret f ∧ f.length = 32) →
      exec (.wipe tag (.fits x)) s = .next (settle (s.answered 23 tag .storeFault .none)))

/-- R127, R14: when a trim group closes, the range and the slots cut off have the records it wrote, the range is staged as committed, and
the key step is due again; the range keeps its entry and its service state. R127, R128, R123: when a key step group closes that writes a
PENDING item KEYS_DESTROYED, the Wipe Engine keeps the new key for the overwrite, the target's entry is EMPTY, a range's locked flags are no
and its staged entry is its committed one, and WIPE_STEP_DONE is raised; a RANGE-COMMIT or CRED-SET in execution no longer holds the range's
old key. R132: when the group that writes an item DONE closes, with the full-wipe flag clear and the target not taken into the plan anew,
the Wipe Engine's copy of the key is erased and the target returns to use: a range in ERASING becomes ACTIVE and open with its entry loaded
from its root wrap, or on a device in LOCKDOWN enters LOCKDOWN with its entry as it stands, and the shadow entry is loaded if the window is
present; with the full-wipe flag set the target stays as it is. A key step group that writes its item DONE at once (the overwrite flag is
clear) does both at its close: the target takes its new record and an EMPTY entry, and returns to use with it. R133: the end of a plan
raises WIPE_COMPLETE. Two clauses are the model's choices: the shadow entry has no key generation (log 47), and the item that leaves the
plan at its end counts as advanced to DONE, so WIPE_STEP_DONE is raised there too (log 39). -/
def Obligations.WipeStepsClose : Prop :=
  (∀ (s : State) (scan : ScanFindings) (r : RangeId) (record : RangeRecord) (creds : List (SlotId × CredRecord)),
    s.readyToClose (wipeGroup (.range r record :: creds.map (fun p => Record.cred p.1 p.2)) [.trimmed r] true) →
    ∃ x, exec (.groupClose scan) s = .next (settle x) ∧ x.range r = record ∧ (∀ p ∈ creds, x.cred p.1 = p.2) ∧ x.plan = s.plan ∧
      x = { s with
        store := x.store, wipe := { s.wipe with stepInFlight := false }, events := x.events
        staging := s.staging.set r { fields := record.fields, newKey := false } } ∧
      ((s.plan.items.map (·.target)).Nodup → x.events = s.events)) ∧
  (∀ (s : State) (scan : ScanFindings) (t : Owner) (key : Key) (others : List Record) (p : WipePlan),
    s.readyToClose (wipeGroup (others ++ [.plan p]) [.keyStep t key] true) →
    s.plan.item t = some { target := t, step := .pending } → p.item t = some { target := t, step := .keysDestroyed } →
    ∃ x, exec (.groupClose scan) s = .next (settle x) ∧ x.plan = p ∧ x.wipe.key = some key ∧ x.wipe.position = none ∧
      x.wipe.count = 0 ∧ x.wipe.stepInFlight = false ∧ (x.key t).state = .empty ∧ (x.key t).material = none ∧
      EventKind.wipeStepDone ∈ x.events.pending ∧ (t = .shadow → x.table = s.table ∧ x.staging = s.staging) ∧
      (∀ r : RangeId, t = .range r → x.table[r] = { s.table[r] with readLocked := false, writeLocked := false } ∧
        x.staging[r] = { fields := (x.range r).fields, newKey := false } ∧
        (∀ c, x.executor.job = .commit c → ∀ k ∈ c.keys, k.1 ≠ r) ∧
        (∀ j, x.executor.job = .credSet j → ∀ k ∈ j.keys, k.1 ≠ r)) ∧
      (∀ r : RangeId, t ≠ .range r → x.table[r] = s.table[r] ∧ x.key (.range r) = s.key (.range r)) ∧ x.sent = s.sent) ∧
  (∀ (s : State) (scan : ScanFindings) (t : Owner) (p : WipePlan) (ended : List Effect),
    s.readyToClose (wipeGroup [.plan p] (.itemDone t :: ended) false) → ended = [] ∨ ended = [.planEnded t] →
    s.wipe.intended.unfinished t = false → s.wipe.intended.full = p.full →
    ∃ x, exec (.groupClose scan) s = .next (settle x) ∧ x.plan = p ∧ x.wipe.key = none ∧ x.wipe.position = none ∧ x.wipe.count = 0 ∧
      (ended = [.planEnded t] → EventKind.wipeComplete ∈ x.events.pending) ∧
      (p.full = true → x.table = s.table ∧ x.cache = s.cache ∧ x.shadowEntry = s.shadowEntry) ∧
      (p.full = false → (∀ r : RangeId, t = .range r → s.table[r].service = .erasing →
          (s.trigger.working.device = .normal →
            x.table[r] = { s.table[r] with service := .active, readLocked := false, writeLocked := false } ∧
            ∀ key, (s.range r).rootWrap = some key →
              x.key (.range r) = (s.key (.range r)).load key (some (s.range r).generation)) ∧
          (s.trigger.working.device = .lockdown → x.table[r] =
            { s.table[r] with service := .lockdown, inForce := (s.range r).fields.response } ∧
            x.key (.range r) = s.key (.range r))) ∧
        (t = .shadow → x.table = s.table ∧ x.shadowEntry =
          if s.shadow = .off then s.shadowEntry else s.shadowEntry.load s.shadowRecord.rootWrap none)) ∧ x.sent = s.sent) ∧
  (∀ (s : State) (scan : ScanFindings) (t : Owner) (key : Key) (others : List Record) (p : WipePlan) (ended : List Effect),
    s.readyToClose (wipeGroup (others ++ [.plan p]) (.keyStep t key :: .itemDone t :: ended) true) →
    ended = [] ∨ ended = [.planEnded t] → s.plan.item t = some { target := t, step := .pending } →
    p.item t = some { target := t, step := .done } ∨ p.item t = none →
    s.wipe.intended.unfinished t = false → s.wipe.intended.full = p.full →
    ∃ x, exec (.groupClose scan) s = .next (settle x) ∧ x.plan = p ∧ x.wipe.key = none ∧ x.wipe.position = none ∧ x.wipe.count = 0 ∧
      x.wipe.stepInFlight = false ∧ EventKind.wipeStepDone ∈ x.events.pending ∧
      (ended = [.planEnded t] → EventKind.wipeComplete ∈ x.events.pending) ∧
      (t = .shadow → x.table = s.table ∧ x.staging = s.staging ∧ x.shadowEntry =
        if p.full = true ∨ s.shadow = .off then s.shadowEntry.erase
        else { state := .live, material := some x.shadowRecord.rootWrap, generation := none, refs := s.shadowEntry.refs }) ∧
      (∀ r : RangeId, t = .range r → x.staging[r] = { fields := (x.range r).fields, newKey := false } ∧
        (p.full = true ∨ s.table[r].service ≠ .erasing →
          x.table[r] = { s.table[r] with readLocked := false, writeLocked := false } ∧ x.key (.range r) = (s.key (.range r)).erase) ∧
        (p.full = false → s.table[r].service = .erasing → s.trigger.working.device = .normal →
          x.table[r] = { s.table[r] with service := .active, readLocked := false, writeLocked := false } ∧
          ∀ k, (x.range r).rootWrap = some k → x.key (.range r) =
            { state := .live, material := some k, generation := some (x.range r).generation, refs := (s.key (.range r)).refs }) ∧
        (p.full = false → s.table[r].service = .erasing → s.trigger.working.device = .lockdown →
          x.table[r] = { s.table[r] with
            service := .lockdown, inForce := (x.range r).fields.response, readLocked := false, writeLocked := false } ∧
          x.key (.range r) = (s.key (.range r)).erase)) ∧
      (∀ r : RangeId, t ≠ .range r → x.table[r] = s.table[r] ∧ x.key (.range r) = s.key (.range r)) ∧
      (∀ q ∈ others, q.inEffect x) ∧ x.sent = s.sent)

/-- R133: at the end of its derivation, on an idle store with the executor FREE, the final group of a full wipe begins: 31 records, one for
every record cell but the drive profile, with the contents of the table of R133. R134, R59: when it closes, range 0 alone is defined, ACTIVE
and open, with its entry LIVE under the new key and every other entry EMPTY; the window is OFF; slot 0 is accepting; authority ends; the
binding is UNENROLLED with nothing gated; the device is NORMAL; WIPE_COMPLETE, MEDIA_VIEW_CHANGED and, where they apply, AUTHORITY_ENDED,
LOCKDOWN_LEFT and BINDING_CHANGED are raised; and an AUTHENTICATE whose verdict commit is not submitted is answered SLOT_STATE. Three
clauses rest on the model's choices: range 0 is ACTIVE and LIVE also where a newer WIPE has marked it while the group was on its way (log
60), and every attempt before its submission is settled so, also one whose charge still waits (log 36), and the entry of a range 1 to 15 is
EMPTY also where transfers still reference it, as they can on a range created meanwhile (log 75). Fresh values are the model's free values
(log 8). -/
def Obligations.FullWipeEndsInFinalGroup : Prop :=
  (∀ (s : State) (salt : Word32) (rest : List DerivationUser), s.power.powered = true → s.power.part = .ready →
    s.power.restarting = false → s.store.idle = true → s.executor = freeExecutor → s.derivations = .wipeEngine :: rest →
    s.wipe.final = .deriving salt →
    ∃ t g, exec .derivationComplete s = .next t ∧
      t.store.writing = some { group := g, number := s.store.lastClosed + 1, stage := .copies 0 0 } ∧ g.submitter = .wipeEngine ∧
      g.final = true ∧ g.records.length = 31 ∧ g.cells.Nodup ∧
      Record.cred 0 { state := .active, salt := some salt
                      verifier := some { madeFrom := { secret := s.profile.factorySecret, salt := salt, e := 16 } }
                      policy := { e := 16, free := 3, base := 10, limit := 0 }, failures := 0, wraps := [] } ∈ g.records ∧
      (∀ i : SlotId, i ≠ 0 → Record.cred i
        { state := .empty, salt := none, verifier := none, policy := { e := 16, free := 3, base := 10, limit := 0 }, failures := 0
          wraps := [] } ∈ g.records) ∧
      Record.range 0
        { fields := defaultFields, tweakOrigin := 0, generation := (s.range 0).generation + 1
          rootWrap := some (Config.freshKey s.entropy), tableGeneration := s.tableGeneration + 1 } ∈ g.records ∧
      (∀ r : RangeId, r ≠ 0 → ∃ e : RangeRecord, Record.range r e ∈ g.records ∧ e.fields = defaultFields ∧
        e.generation = (s.range r).generation ∧ e.rootWrap = none) ∧
      Record.shadow { enabled := false, size := s.shadowRecord.size, rootWrap := Config.freshKey (s.entropy + 1) } ∈ g.records ∧
      Record.counters { g := 0, marker := none, idleLimit := 300 } ∈ g.records ∧
      Record.binding { enrolled := none, recheck := 10 } ∈ g.records ∧ Record.triggers manufacturedTriggers ∈ g.records ∧
      Record.lockdown { device := .normal, causes := [] } ∈ g.records ∧
      Record.plan { items := [], overwrite := false, full := false, cursor := none } ∈ g.records ∧ Record.token none ∈ g.records) ∧
  (∀ (s : State) (scan : ScanFindings) (salt : Word32) (key shadowKey : Key), s.power.part = .ready →
    s.readyToClose { submitter := .wipeEngine, records := s.finalRecords salt key shadowKey, effects := [.finalCommit key]
                     rewrites := true, final := true } →
    ∃ x, exec (.groupClose scan) s = .next (settle x) ∧ (∀ r ∈ s.finalRecords salt key shadowKey, r.inEffect x) ∧
      x.table[0] = { readLocked := false, writeLocked := false, service := .active, inForce := .close } ∧
      (∀ r : RangeId, r ≠ 0 → x.table[r].service = .undefined ∧ (x.key (.range r)).state = .empty) ∧
      (∀ r : RangeId, x.staging[r] = { fields := defaultFields, newKey := false }) ∧
      x.key (.range 0) = { state := .live, material := some key, generation := some ((s.range 0).generation + 1)
                           refs := (s.key (.range 0)).refs } ∧
      x.shadow = .off ∧ x.shadowEntry.state = .empty ∧ x.openAt[0] = s.clock ∧ (∀ i : SlotId, i ≠ 0 → x.openAt[i] = 0) ∧
      x.authority = none ∧ x.binding.state = .unenrolled ∧ x.binding.gated = [] ∧ x.trigger.working.device = .normal ∧
      x.wipe.key = none ∧ EventKind.wipeComplete ∈ x.events.pending ∧ EventKind.mediaViewChanged ∈ x.events.pending ∧
      (s.authority.isSome = true → EventKind.authorityEnded ∈ x.events.pending) ∧
      (s.trigger.working.device = .lockdown → EventKind.lockdownLeft ∈ x.events.pending) ∧
      (s.binding.state ≠ .unenrolled → EventKind.bindingChanged ∈ x.events.pending) ∧
      (∀ a, s.executor.job = .attempt a → s.executor.stage ≠ .submitted → s.executor.status = .executing →
        x.executor = freeExecutor ∧ x.sent = s.sent ++ [replyTo s.executor.kind s.executor.tag .slotState (.range none)]) ∧
      ((∀ a, s.executor.job ≠ .attempt a) → x.executor = s.executor ∧ x.sent = s.sent))

/-! ### The Management Channel and the Event Unit -/

/-- R163: a record that is too short or too long, does not begin with A7h, gives a wrong length or a wrong CRC is answered BAD_FRAME
with kind FFh and byte 4 as its tag, or 0 when it has fewer than 5 bytes; a well-formed frame whose kind is not 1 to 24 is answered
UNKNOWN_KIND with its tag; nothing else changes. -/
def Obligations.BadFramesAreAnswered : Prop :=
  ∀ (s : State) (record : List Byte), s.power.powered = true →
    (record.length < 7 ∨ 519 < record.length ∨ record.head? ≠ some 0xA7#8 ∨
        bigEndian ((record.drop 1).take 2) ≠ record.length - 5 ∨
        (crc16 ((record.drop 3).take (record.length - 5))).toNat ≠ bigEndian (record.drop (record.length - 2)) →
      exec (.badFrame record) s = .next (s.say (.reply
        { kind := 0xFF, tag := if 5 ≤ record.length then record.getD 4 0 else 0, code := .badFrame, payload := .none }))) ∧
    (∀ kind tag body, body.length ≤ 512 → record = frameBytes kind tag body → kind.toNat = 0 ∨ 24 < kind.toNat →
      exec (.unknownKind record) s = .next (s.say (.reply
        { kind := 0xFF, tag := tag, code := .unknownKind, payload := .none })))

/-- R165, R178, R179: STATUS is answered OK in every part and executor state with the sixteen ranges, the start record, the plan summary,
the number of transfers in flight and every other field as they stand, re-arms the latched-open flag from the debounced level, and
changes nothing else; with a body it is answered BAD_BODY and changes nothing. -/
def Obligations.StatusIsAnsweredAtOnce : Prop :=
  ∀ (s : State) (tag : Byte), s.power.powered = true →
    (∃ report : StatusReport, exec (.status tag (.fits ())) s = .next { s with
        sent := s.sent ++ [replyTo 1 tag .ok (.status report)]
        events := { s.events with latchedOpen := decide (s.trigger.bayLevel = .open) } } ∧
      report.part = s.power.part ∧ report.cause = s.power.cause ∧ report.rollbackFound = s.power.rollbackFound ∧
      report.attemptCharged = s.power.attemptCharged ∧ report.lockdown = s.trigger.working ∧ report.binding = s.binding.state ∧
      report.bay = s.trigger.bayLevel ∧ report.latchedOpen = s.events.latchedOpen ∧ report.shadow = s.shadow ∧
      report.g = s.counters.g ∧ report.tableGeneration = s.tableGeneration ∧ report.pending = s.events.pending ∧
      report.enabled = s.events.enabled ∧ report.detail = s.events.detail ∧
      report.holder = s.authority.map (fun a => (a.slot, roleOf a.slot)) ∧
      report.plan.items = s.plan.items.length ∧ report.plan.cursor = s.plan.cursor ∧ report.plan.overwrite = s.plan.overwrite ∧
      report.plan.full = s.plan.full ∧
      (∀ i, report.plan.current = some i ↔
        ∃ before rest, s.plan.items = before ++ i :: rest ∧ i.step ≠ .done ∧ ∀ j ∈ before, j.step = .done) ∧
      report.inFlight = (Finset.univ.filter (fun t : Tag => s.inflight[t].isSome = true)).card ∧ report.ranges.length = 16 ∧
      (∀ r : RangeId, report.ranges[r.val]? = some { service := s.table[r].service
                                                     readLocked := (s.range r).fields.readLock && s.table[r].readLocked
                                                     writeLocked := (s.range r).fields.writeLock && s.table[r].writeLocked })) ∧
    exec (.status tag .misfit) s = .next (s.say (replyTo 1 tag .badBody .none))

/-- R165, R141, R150: in STARTING, SLEEP_ENTERING, ASLEEP and FAILSAFE every request but STATUS, and in FAILSAFE but WIPE, is refused with
the part state's code, and in READY with BUSY while the executor is occupied. That an AUTHENTICATE or a WIPE whose body does not fit is
refused so too, by R165's order, where R57 and R124 name the body first, is the model's reading (log 16). R70: a request that is taken
without ADMIN authority is answered NO_AUTHORITY if it is a RANGE-STAGE, RANGE-DISCARD, RANGE-COMMIT, RANGE-READ, CRED-POLICY,
SHADOW-CONFIG, SHADOW-LOAD, BIND-ENROLL, BIND-CHECK, TRIGGER-SET, LOCKDOWN-CLEAR, WIPE-TOKEN-SET, RESET-PART, EVENTS-ENABLE or EVENTS-ACK
whose body fits, or a WIPE without a credential; and so is a CRED-SET without authority, by a USER slot for another slot, or by a RECOVERY
slot for a slot other than its own and 2 to 6. None of these refusals changes anything but the reply sent (and, for a request taken, the
timers that R71 and R110 restart). -/
def Obligations.RequestsAreGated : Prop :=
  (∀ (c : Instr) (s : State) (kind : Nat) (tag : Byte), requestKind c = some kind → requestTag c = some tag → kind ≠ 1 →
    s.power.powered = true →
    (s.power.part = .starting → exec c s = .next (settle (s.say (replyTo kind tag .starting .none)))) ∧
    (s.power.part = .sleepEntering ∨ s.power.part = .asleep → exec c s = .next (settle (s.say (replyTo kind tag .asleep .none)))) ∧
    (s.power.part = .failsafe → kind ≠ 23 → exec c s = .next (settle (s.say (replyTo kind tag .storeFault .none)))) ∧
    (s.power.part = .ready → s.executor.status ≠ .free → exec c s = .next (settle (s.say (replyTo kind tag .busy .none))))) ∧
  ∀ (s : State) (tag : Byte), s.takesRequest → s.admin = false →
    (∀ a : StageArgs, (a.access.getD []).length ≤ 8 →
      exec (.rangeStage tag (.fits a)) s = .next (settle (s.answered 8 tag .noAuthority .none))) ∧
    exec (.rangeDiscard tag (.fits ())) s = .next (settle (s.answered 9 tag .noAuthority .none)) ∧
    exec (.rangeCommit tag (.fits ())) s = .next (settle (s.answered 10 tag .noAuthority .none)) ∧
    (∀ n, exec (.rangeRead tag (.fits n)) s = .next (settle (s.answered 11 tag .noAuthority .none))) ∧
    (∀ a, exec (.credPolicy tag (.fits a)) s = .next (settle (s.answered 13 tag .noAuthority .none))) ∧
    (∀ a, exec (.shadowConfig tag (.fits a)) s = .next (settle (s.answered 15 tag .noAuthority .none))) ∧
    (∀ a, exec (.shadowLoadOpen tag (.fits a)) s = .next (settle (s.answered 16 tag .noAuthority .none))) ∧
    (∀ a, exec (.shadowLoadClose tag (.fits a)) s = .next (settle (s.answered 16 tag .noAuthority .none))) ∧
    (∀ a, exec (.bindEnroll tag (.fits a)) s = .next (settle (s.answered 18 tag .noAuthority .none))) ∧
    exec (.bindCheck tag (.fits ())) s = .next (settle (s.answered 19 tag .noAuthority .none)) ∧
    (∀ a, exec (.triggerSet tag (.fits a)) s = .next (settle (s.answered 20 tag .noAuthority .none))) ∧
    exec (.lockdownClear tag (.fits ())) s = .next (settle (s.answered 21 tag .noAuthority .none)) ∧
    (∀ a : List Byte, a.length = 32 → exec (.wipeTokenSet tag (.fits a)) s = .next (settle (s.answered 22 tag .noAuthority .none))) ∧
    exec (.wipeTokenClear tag (.fits ())) s = .next (settle (s.answered 22 tag .noAuthority .none)) ∧
    exec (.resetPart tag (.fits ())) s = .next (settle (s.answered 24 tag .noAuthority .none)) ∧
    (∀ x : WipeArgs, (scopeOf x.scope).isSome = true → x.credential = .absent →
      exec (.wipe tag (.fits x)) s = .next (settle (s.answered 23 tag .noAuthority .none))) ∧
    (∀ x : CredSetArgs, x.slot ≤ 7 → 8 ≤ x.secret.length → x.secret.length ≤ 64 →
      (s.authority = none ∨ ∃ a, s.authority = some a ∧ a.slot.val ≠ x.slot ∧
        (roleOf a.slot = .user ∨ (roleOf a.slot = .recovery ∧ (x.slot < 2 ∨ 6 < x.slot)))) →
      exec (.credSet tag (.fits x)) s = .next (settle (s.answered 12 tag .noAuthority .none))) ∧
    (∀ codes : List Nat, codes.length ≤ 14 →
      exec (.eventsEnable tag (.fits codes)) s = .next (settle (s.answered 2 tag .noAuthority .none)) ∧
      exec (.eventsAck tag (.fits codes)) s = .next (settle (s.answered 3 tag .noAuthority .none)))

/-- R175: EVENTS-ENABLE replaces the enabled set, clears the pending kinds it newly enables, empties the detail when TRIGGER_FIRED is
among them and was pending, and is answered OK with both sets. R176: EVENTS-ACK removes the given kinds from the pending set, empties
the detail when TRIGGER_FIRED was given and pending, leaves the enabled set, and is answered OK with the pending set. Either sets
ALERT's level, and is answered NO_AUTHORITY without ADMIN authority, BAD_BODY with a code outside 1 to 14 or a repeat, and by the part
state's code in STARTING, ASLEEP and FAILSAFE. -/
def Obligations.EventRequestsChangeSets : Prop :=
  (∀ (s : State) (tag : Byte) (body : Body (List Nat)), s.power.powered = true →
    (s.power.part = .starting →
      exec (.eventsEnable tag body) s = .next (settle (s.say (replyTo 2 tag .starting .none))) ∧
      exec (.eventsAck tag body) s = .next (settle (s.say (replyTo 3 tag .starting .none)))) ∧
    (s.power.part = .asleep →
      exec (.eventsEnable tag body) s = .next (settle (s.say (replyTo 2 tag .asleep .none))) ∧
      exec (.eventsAck tag body) s = .next (settle (s.say (replyTo 3 tag .asleep .none)))) ∧
    (s.power.part = .failsafe →
      exec (.eventsEnable tag body) s = .next (settle (s.say (replyTo 2 tag .storeFault .none))) ∧
      exec (.eventsAck tag body) s = .next (settle (s.say (replyTo 3 tag .storeFault .none))))) ∧
  (∀ (s : State) (tag : Byte) (codes : List Nat), s.takesRequest → s.admin = false → codes.length ≤ 14 →
    exec (.eventsEnable tag (.fits codes)) s = .next (settle (s.answered 2 tag .noAuthority .none)) ∧
    exec (.eventsAck tag (.fits codes)) s = .next (settle (s.answered 3 tag .noAuthority .none))) ∧
  ∀ (s : State) (tag : Byte) (codes : List Nat), s.takesRequest → s.admin = true → codes.length ≤ 14 →
    (¬ codes.Nodup ∨ (∃ n ∈ codes, n < 1 ∨ 14 < n) →
      exec (.eventsEnable tag (.fits codes)) s = .next (settle (s.answered 2 tag .badBody .none)) ∧
      exec (.eventsAck tag (.fits codes)) s = .next (settle (s.answered 3 tag .badBody .none))) ∧
    (codes.Nodup → (∀ n ∈ codes, 1 ≤ n ∧ n ≤ 14) →
      (∃ (e : Events) (t : State), exec (.eventsEnable tag (.fits codes)) s = .next t ∧
        t = settle (({ s with events := e } : State).answered 2 tag .ok (.events e.enabled e.pending)) ∧
        (∀ k, k ∈ e.enabled ↔ k.code ∈ codes) ∧
        (∀ k, k ∈ e.pending ↔ k ∈ s.events.pending ∧ ¬ (k.code ∈ codes ∧ k ∉ s.events.enabled)) ∧
        e.detail = (if EventKind.triggerFired.code ∈ codes ∧ .triggerFired ∉ s.events.enabled ∧ .triggerFired ∈ s.events.pending
          then [] else s.events.detail) ∧
        e.latchedOpen = s.events.latchedOpen ∧ t.events.alert = t.events.alertDue) ∧
      (∃ (e : Events) (t : State), exec (.eventsAck tag (.fits codes)) s = .next t ∧
        t = settle (({ s with events := e } : State).answered 3 tag .ok (.pendingEvents e.pending)) ∧
        (∀ k, k ∈ e.pending ↔ k ∈ s.events.pending ∧ k.code ∉ codes) ∧ e.enabled = s.events.enabled ∧
        e.detail = (if EventKind.triggerFired.code ∈ codes ∧ .triggerFired ∈ s.events.pending then [] else s.events.detail) ∧
        e.latchedOpen = s.events.latchedOpen ∧ t.events.alert = t.events.alertDue))

/-! ### Credentials and authority -/

/-- R58, R57: an AUTHENTICATE that passes its checks begins, on an idle store, the charge group: the slot's record with f raised by 1 to
at most L, or 31 when L is 0, and the counters record with G raised by 1 to at most 255 and the marker naming the slot and the G before;
no derivation for the request begins yet. R64: on an ACTIVE slot before its open-at time it is answered LOCKED_OUT with the time left in
100 ms units, rounded up, and changes nothing; a slot that is not ACTIVE is answered SLOT_STATE before backoff is looked at. -/
def Obligations.AuthenticateChargesOrIsRefused : Prop :=
  ∀ (s : State) (tag : Byte) (x : AuthArgs) (i : SlotId) (unlock : List Unlock), s.takesRequest → x.slot = i.val →
    unlockSetOf x.unlock = some unlock → x.unlock.length ≤ 16 → 8 ≤ x.secret.length → x.secret.length ≤ 64 →
    ((s.cred i).state = .active → s.openAt[i] ≤ s.clock → s.binding.state ≠ .checking → s.store.idle = true →
      ∃ t, exec (.authenticate tag (.fits x)) s = .next t ∧ t.authority = s.authority ∧ t.table = s.table ∧
        t.derivations.count .executor = s.derivations.count .executor ∧
        beginsGroup s t
          [.cred i { s.cred i with
              failures := min ((s.cred i).failures + 1) (if (s.cred i).policy.limit = 0 then 31 else (s.cred i).policy.limit) },
           .counters { s.counters with
              g := min (s.counters.g + 1) 255, marker := some { slot := i, before := s.counters.g } }]) ∧
    ((s.cred i).state ≠ .active →
      exec (.authenticate tag (.fits x)) s = .next (settle (s.answered 4 tag .slotState (.range none)))) ∧
    ((s.cred i).state = .active → s.clock < s.openAt[i] → ∃ units,
      exec (.authenticate tag (.fits x)) s = .next (settle (s.answered 4 tag .lockedOut (.retryAfter units))) ∧
      s.openAt[i] - s.clock ≤ units * 100 ∧ units * 100 < s.openAt[i] - s.clock + 100)

/-- R63: the closed period is 0 while f is at most F, doubles with each further failure from b × 100 ms on, stops doubling after the
eleventh failure beyond F, and is at most one hour. -/
def Obligations.ClosedPeriodDoublesToCap : Prop :=
  ∀ (p : Policy) (f : Nat),
    (f ≤ p.free → closedPeriod p f = 0) ∧ closedPeriod p (p.free + 1) = min (p.base * 100) 3600000 ∧
    (p.free < f → f < p.free + 11 → closedPeriod p (f + 1) = min (2 * closedPeriod p f) 3600000) ∧
    (p.free + 11 ≤ f → closedPeriod p (f + 1) = closedPeriod p f) ∧ closedPeriod p f ≤ 3600000

/-- R72, R70: AUTHORITY-END ends authority, is answered OK and raises nothing; with none held it is answered NO_AUTHORITY. R71, R72:
the expiry of the authority idle timer ends authority and raises AUTHORITY_ENDED; nothing else changes. The clock's new value is the
model's choice (log 1). -/
def Obligations.AuthorityEndsOnRequestOrIdle : Prop :=
  (∀ (s : State) (tag : Byte), s.takesRequest →
    (s.authority.isSome = true → exec (.authorityEnd tag (.fits ())) s =
      .next (settle (({ s with authority := none } : State).answered 5 tag .ok .none))) ∧
    (s.authority = none → exec (.authorityEnd tag (.fits ())) s = .next (settle (s.answered 5 tag .noAuthority .none)))) ∧
  (∀ (s : State) (since : Nat), s.power.powered = true → s.authority.isSome = true → s.authTimer = some since →
    exec .authorityIdleExpiry s = .next (settle { s with
      clock := max s.clock (since + s.counters.idleLimit * 1000), authority := none, authTimer := none
      events := { s.events with pending := withEvent .authorityEnded s.events.pending } }))

/-- R70: CRED-SET is permitted to ADMIN for any slot, to RECOVERY for its own slot and 2 to 6, and to USER for its own slot. R67: the key of
a range on whose access list the slot stands is that of its LIVE or DRAINING entry, or else, for the holder's own slot, that of its wrap at
the range's key generation that the holder's unwrap value opens; with neither the range is unavailable. R66: the first failing check
replies: BAD_BODY for a slot above 7 or a secret of another length than 8 to 64 bytes; NO_AUTHORITY; without DROP_UNAVAILABLE,
KEY_UNAVAILABLE naming the lowest unavailable range; with it, OUT_OF_RANGE where more than 7 are to be dropped. Else it goes on to its
derivation with a fresh salt and the clamped policy, the keys in hand and the unavailable ranges to be dropped; nothing is written yet.
Fresh values are the model's free values (log 8); that the keys and the policy are those found at the checks is its inference and its choice
(logs 25, 53). -/
def Obligations.CredSetStartsDerivation : Prop :=
  (∀ (s : State) (i : SlotId), s.maySetCred i = true ↔ ∃ a, s.authority = some a ∧
    (roleOf a.slot = .admin ∨ a.slot = i ∨ (roleOf a.slot = .recovery ∧ 2 ≤ i.val ∧ i.val ≤ 6))) ∧
  (∀ (s : State) (i : SlotId) (r : RangeId) (key : Key),
    ((s.key (.range r)).state ≠ .empty → (s.key (.range r)).material = some key → s.credSetKey i r = some key) ∧
    ((s.key (.range r)).state = .empty → (s.credSetKey i r = some key ↔ ∃ a w, s.authority = some a ∧ a.slot = i ∧
      (s.cred i).wraps.find? (fun w => w.range = r ∧ w.generation = (s.range r).generation) = some w ∧
      w.verifier = { madeFrom := a.unwrap } ∧ w.key = key))) ∧
  (∀ (s : State) (tag : Byte) (x : CredSetArgs), s.takesRequest → 7 < x.slot ∨ x.secret.length < 8 ∨ 64 < x.secret.length →
    exec (.credSet tag (.fits x)) s = .next (settle (s.answered 12 tag .badBody .none))) ∧
  ∀ (s : State) (tag : Byte) (x : CredSetArgs) (i : SlotId), s.takesRequest → x.slot = i.val → 8 ≤ x.secret.length →
    x.secret.length ≤ 64 →
    (s.maySetCred i = false → exec (.credSet tag (.fits x)) s = .next (settle (s.answered 12 tag .noAuthority .none))) ∧
    (s.maySetCred i = true →
      (∀ r, lowestRange (s.keyMissing i) r → x.dropUnavailable = false →
        exec (.credSet tag (.fits x)) s = .next (settle (s.answered 12 tag .keyUnavailable (.range (some r))))) ∧
      (x.dropUnavailable = true → (∃ l : List RangeId, l.Nodup ∧ l.length = 8 ∧ ∀ r ∈ l, s.keyMissing i r) →
        exec (.credSet tag (.fits x)) s = .next (settle (s.answered 12 tag .outOfRange .none))) ∧
      ((∀ r, ¬ s.keyMissing i r) ∨
          (x.dropUnavailable = true ∧ ∃ l : List RangeId, l.length ≤ 7 ∧ ∀ r, s.keyMissing i r → r ∈ l) →
        ∃ (y : State) (job : CredSetJob), exec (.credSet tag (.fits x)) s = .next (settle y) ∧ y.executor.status = .executing ∧
          y.executor.stage = .working ∧ y.executor.job = .credSet job ∧ job.slot = i ∧ job.secret = x.secret ∧
          job.salt = Config.freshSalt s.entropy ∧ job.dropped.Pairwise (· < ·) ∧ (∀ r, r ∈ job.dropped ↔ s.keyMissing i r) ∧
          (∀ r key, (r, key) ∈ job.keys ↔ i ∈ (s.range r).fields.access ∧ s.credSetKey i r = some key) ∧
          job.policy = (match x.policy with
            | some p => { e := max 10 (min 20 p.e), free := min 7 p.free, base := max 1 (min 255 p.base), limit := min 31 p.limit }
            | none => (s.cred i).policy) ∧
          y.derivations = s.derivations ++ [.executor] ∧ y.store = s.store ∧ y.authority = s.authority ∧ y.table = s.table))

/-- R68, R51: CRED-POLICY begins, on an idle store, a group of the slot's record with the clamped values, where e changes only while
the slot is EMPTY and a new limit below f pulls f down to it and locks an ACTIVE slot out, and of the counters record where an idle
limit is given, clamped to 30 to 3,600 s. R69: CRED-STATE by an ADMIN holder begins, on an idle store, the group of the slot's record:
ENABLE makes a DISABLED slot ACTIVE unless it stands at its limit, DISABLE makes it DISABLED, REOPEN clears f and makes it ACTIVE; an
EMPTY slot is answered SLOT_STATE. R70, R166: the authority is checked first: without authority, by a USER, or by RECOVERY naming a slot
other than 2 to 6, CRED-STATE is answered NO_AUTHORITY, whatever else it names; then a slot above 7 or an unknown action BAD_BODY. -/
def Obligations.CredPolicyAndStateBeginGroup : Prop :=
  (∀ (s : State) (tag : Byte) (x : CredPolicyArgs) (i : SlotId), s.takesRequest → s.admin = true → s.store.idle = true →
    x.slot = i.val →
    ∃ (t : State) (record : CredRecord), exec (.credPolicy tag (.fits x)) s = .next t ∧
      beginsGroup s t (.cred i record ::
        (match x.idleLimit with
         | some n => [.counters { s.counters with idleLimit := max 30 (min 3600 n) }]
         | none => [])) ∧
      record.policy = { e := if (s.cred i).state = .empty then max 10 (min 20 x.policy.e) else (s.cred i).policy.e
                        free := min 7 x.policy.free, base := max 1 (min 255 x.policy.base), limit := min 31 x.policy.limit } ∧
      record.failures = (if record.policy.limit = 0 then (s.cred i).failures
        else min (s.cred i).failures record.policy.limit) ∧
      record.state = (if (s.cred i).state = .active ∧ record.policy.limit ≠ 0 ∧ record.policy.limit ≤ (s.cred i).failures
        then .lockedOut else (s.cred i).state) ∧
      record.salt = (s.cred i).salt ∧ record.verifier = (s.cred i).verifier ∧ record.wraps = (s.cred i).wraps) ∧
  (∀ (s : State) (tag : Byte) (i : SlotId), s.takesRequest → s.admin = true →
    ((s.cred i).state = .empty →
      exec (.credStateEnable tag (.fits { slot := i.val, actionKnown := true })) s =
        .next (settle (s.answered 14 tag .slotState (.range none))) ∧
      exec (.credStateDisable tag (.fits { slot := i.val, actionKnown := true })) s =
        .next (settle (s.answered 14 tag .slotState (.range none))) ∧
      exec (.credStateReopen tag (.fits { slot := i.val, actionKnown := true })) s =
        .next (settle (s.answered 14 tag .slotState (.range none)))) ∧
    (s.store.idle = true →
      ((s.cred i).state = .disabled → (s.cred i).policy.limit = 0 ∨ (s.cred i).failures ≠ (s.cred i).policy.limit →
        ∃ t, exec (.credStateEnable tag (.fits { slot := i.val, actionKnown := true })) s = .next t ∧
          beginsGroup s t [.cred i { s.cred i with state := .active }]) ∧
      ((s.cred i).state = .active ∨ (s.cred i).state = .lockedOut →
        ∃ t, exec (.credStateDisable tag (.fits { slot := i.val, actionKnown := true })) s = .next t ∧
          beginsGroup s t [.cred i { s.cred i with state := .disabled }]) ∧
      ((s.cred i).state = .disabled ∨ (s.cred i).state = .lockedOut →
        ∃ t, exec (.credStateReopen tag (.fits { slot := i.val, actionKnown := true })) s = .next t ∧
          beginsGroup s t [.cred i { s.cred i with failures := 0, state := .active }]))) ∧
  (∀ (s : State) (tag : Byte) (x : CredStateArgs) (c : Instr), s.takesRequest →
    c = .credStateEnable tag (.fits x) ∨ c = .credStateDisable tag (.fits x) ∨ c = .credStateReopen tag (.fits x) →
    (s.authority = none ∨ (∃ a, s.authority = some a ∧ (roleOf a.slot = .user ∨
        (roleOf a.slot = .recovery ∧ (x.slot < 2 ∨ 6 < x.slot)))) →
      exec c s = .next (settle (s.answered 14 tag .noAuthority .none))) ∧
    (∀ a, s.authority = some a → roleOf a.slot = .admin ∨ (roleOf a.slot = .recovery ∧ 2 ≤ x.slot ∧ x.slot ≤ 6) →
      7 < x.slot ∨ x.actionKnown = false →
      exec c s = .next (settle (s.answered 14 tag .badBody .none))))

/-- R60, R12, R54, R71: when the verdict group of a successful attempt closes in READY, the unlock set is applied entry by entry: an entry
whose range the slot may not unlock is skipped NO_AUTHORITY, on a device in LOCKDOWN LOCKDOWN, on a range that is not ACTIVE SLOT_STATE,
with an EMPTY entry that no wrap of the slot opens KEY_UNAVAILABLE; any other opens its named enabled directions, makes the entry LIVE and
takes the range out of the wake gate. Then the slot holds authority with the attempt's unwrap value, the open-at time is the verdict time,
and the reply OK carries the role, the entries applied and those skipped. That the set meets the state at the close (R60) and not at verdict
time (R12) is the model's choice (log 74). Stated for a cause set without GUESS_LIMIT, whose exit the lower G may otherwise bring about in
the same event (log 21). R62: at the close of the verdict group of a successful attempt that FRONT_RESET has abandoned the records take
effect and the open-at time follows the verdict, but no lock opens, no authority is granted, no reply is sent and ATTEMPT_CHARGED is not
raised; the executor is FREE. -/
def Obligations.SuccessOpensAndGrants : Prop :=
  (∀ (s : State) (scan : ScanFindings) (a : Attempt) (counters : Counters) (u : Unwrap), s.power.part = .ready →
    s.executor.status = .executing → s.executor.job = .attempt a → a.phase = .verdict true →
    s.readyToClose (requestGroup [.cred a.slot { s.cred a.slot with failures := 0 }, .counters counters]) →
    Trigger.guessLimit ∉ s.trigger.working.causes → (a.unlock.map (·.range)).Nodup →
    u = { secret := a.secret, salt := (s.cred a.slot).salt.getD 0, e := (s.cred a.slot).policy.e } →
    ∃ (x : State) (applied : List Unlock) (skipped : List (RangeId × Code)), exec (.groupClose scan) s = .next (settle x) ∧
      x.openAt[a.slot] = a.settledAt ∧ (∀ i : SlotId, i ≠ a.slot → x.openAt[i] = s.openAt[i]) ∧
      x.authority = some { slot := a.slot, unwrap := u } ∧ x.executor = freeExecutor ∧
      x.sent = s.sent ++
        [replyTo s.executor.kind s.executor.tag .ok (.authenticated (roleOf a.slot) applied skipped)] ∧
      (∀ e ∈ applied, e ∈ a.unlock) ∧
      (∀ e ∈ a.unlock, roleOf a.slot ≠ .admin → a.slot ∉ (s.range e.range).fields.access → (e.range, Code.noAuthority) ∈ skipped) ∧
      (∀ e ∈ a.unlock, roleOf a.slot = .admin ∨ a.slot ∈ (s.range e.range).fields.access →
        (s.trigger.working.device = .lockdown → (e.range, Code.lockdown) ∈ skipped) ∧
        (s.trigger.working.device = .normal → s.table[e.range].service ≠ .active → (e.range, Code.slotState) ∈ skipped) ∧
        (s.trigger.working.device = .normal → s.table[e.range].service = .active → (s.key (.range e.range)).state = .empty →
          s.wrapKey a.slot u e.range = none → (e.range, Code.keyUnavailable) ∈ skipped) ∧
        (s.trigger.working.device = .normal → s.table[e.range].service = .active →
          (s.key (.range e.range)).state ≠ .empty ∨ (s.wrapKey a.slot u e.range).isSome = true →
          e ∈ applied ∧ (x.key (.range e.range)).state = .live ∧ e.range ∉ x.binding.gated ∧
          x.table[e.range] = { s.table[e.range] with
            readLocked := if e.dirs.read = true ∧ (s.range e.range).fields.readLock = true then false
              else s.table[e.range].readLocked
            writeLocked := if e.dirs.write = true ∧ (s.range e.range).fields.writeLock = true then false
              else s.table[e.range].writeLocked })) ∧
      (∀ r : RangeId, r ∉ applied.map (·.range) → x.table[r] = s.table[r] ∧ x.key (.range r) = s.key (.range r))) ∧
  ∀ (s : State) (scan : ScanFindings) (a : Attempt) (counters : Counters), s.executor.status = .abandoned →
    s.executor.job = .attempt a → a.phase = .verdict true →
    s.readyToClose (requestGroup [.cred a.slot { s.cred a.slot with failures := 0 }, .counters counters]) →
    Trigger.guessLimit ∉ s.trigger.working.causes →
    ∃ x, exec (.groupClose scan) s = .next (settle x) ∧ x.cred a.slot = { s.cred a.slot with failures := 0 } ∧ x.counters = counters ∧
      x.openAt = s.openAt.set a.slot a.settledAt ∧ x.authority = s.authority ∧ x.table = s.table ∧ x.cache = s.cache ∧
      x.binding = s.binding ∧ x.executor = freeExecutor ∧ x.sent = s.sent ∧
      (EventKind.attemptCharged ∈ x.events.pending ↔ EventKind.attemptCharged ∈ s.events.pending)

/-- R61, R63, R55, R111: when the verdict group of a failed attempt closes in READY, the slot's open-at time is the verdict time plus the
closed period of its charged count; G is handed to the Trigger Unit, which at Gmax or more fires GUESS_LIMIT and below it does nothing; a
slot that is LOCKED_OUT raises SLOT_LOCKED_OUT; and the reply FAILED carries the remaining attempts, absent without a limit, and the time
left in 100 ms units rounded up, 0 for a slot without a closed period or locked out. R62: the close that settles an abandoned attempt does
the same without a reply, counts from the FRONT_RESET, raises ATTEMPT_CHARGED and frees the executor; and so does the close of a failed
verdict that FRONT_RESET has abandoned, but it counts from the verdict time and does not raise ATTEMPT_CHARGED. -/
def Obligations.FailureBacksOff : Prop :=
  ∀ (s : State) (scan : ScanFindings) (a : Attempt) (counters : Counters) (lockOut : List Record), s.power.part = .ready →
    s.executor.job = .attempt a → s.readyToClose (requestGroup (.counters counters :: lockOut)) →
    lockOut = [] ∨ lockOut = [.cred a.slot { s.cred a.slot with state := .lockedOut }] →
    (a.phase = .verdict false ∧ s.executor.status ≠ .free) ∨ (a.phase = .settling ∧ s.executor.status = .abandoned) →
    ∃ (x : State) (more : List Sent), exec (.groupClose scan) s = .next (settle x) ∧
      x.openAt[a.slot] = a.settledAt + closedPeriod (s.cred a.slot).policy (s.cred a.slot).failures ∧
      (∀ i : SlotId, i ≠ a.slot → x.openAt[i] = s.openAt[i]) ∧ x.executor = freeExecutor ∧
      (s.authority = none → x.authority = none) ∧
      (s.triggers.gmax ≤ counters.g → EventKind.triggerFired ∈ x.events.pending ∧ Trigger.guessLimit ∈ x.events.detail) ∧
      (counters.g < s.triggers.gmax → x.table = s.table ∧ x.cache = s.cache ∧ x.trigger.working = s.trigger.working ∧
        x.authority = s.authority) ∧
      ((x.cred a.slot).state = .lockedOut → EventKind.slotLockedOut ∈ x.events.pending) ∧ (∀ r, Sent.reply r ∉ more) ∧
      (a.phase = .settling → EventKind.attemptCharged ∈ x.events.pending) ∧
      (a.phase = .verdict false → (EventKind.attemptCharged ∈ x.events.pending ↔ EventKind.attemptCharged ∈ s.events.pending)) ∧
      (s.executor.status = .abandoned → x.sent = s.sent ++ more) ∧
      (s.executor.status = .executing → ∃ units,
        x.sent = s.sent ++ more ++ [replyTo s.executor.kind s.executor.tag .failed (.failed
          (if (s.cred a.slot).policy.limit = 0 then none else some ((s.cred a.slot).policy.limit - (s.cred a.slot).failures))
          (some units))] ∧
        ((x.cred a.slot).state = .lockedOut ∨ closedPeriod (s.cred a.slot).policy (s.cred a.slot).failures = 0 → units = 0) ∧
        ((x.cred a.slot).state ≠ .lockedOut → closedPeriod (s.cred a.slot).policy (s.cred a.slot).failures ≠ 0 →
          x.openAt[a.slot] - s.clock ≤ units * 100 ∧ units * 100 < x.openAt[a.slot] - s.clock + 100))

/-- R102: when the group of a BIND-ENROLL closes, the binding state is BOUND, the round count 0, the gated set empty and the fresh secret
gone; BINDING_CHANGED is raised if the state before was another; and the reply OK carries the digest and the recheck interval that now
stand. R66, R67: at the end of the derivation of a CRED-SET its group begins on an idle store: the slot's record with the new salt,
verifier, policy and remade wraps, f at 0, ACTIVE unless the slot is DISABLED, and the dropped ranges' records without the slot; when it
closes, the slot is accepting, a holder of that slot takes the new unwrap value, the dropped ranges are staged as committed, and the
reply OK carries the policy and the dropped ranges. The derivation is symbolic (log 9). Three clauses are the model's choices: the wraps
are made with the keys, and the record with the policy, that the checks found (logs 25, 53), and the reply names the ranges the checks
found unavailable, whatever range records the group wrote (log 54). -/
def Obligations.EnrolmentAndCredSetClose : Prop :=
  (∀ (s : State) (scan : ScanFindings) (recheck : Option Nat) (digest : Word16) (record : BindingRecord),
    s.executor.status = .executing → s.executor.job = .enrol recheck (some digest) →
    s.readyToClose (requestGroup [.binding record]) →
    ∃ x, exec (.groupClose scan) s = .next (settle x) ∧ x.bindingRecord = record ∧ x.binding.state = .bound ∧
      x.binding.rounds = 0 ∧ x.binding.gated = [] ∧ x.binding.freshSecret = none ∧
      (s.binding.state ≠ .bound → EventKind.bindingChanged ∈ x.events.pending) ∧ x.executor = freeExecutor ∧
      x.authority = s.authority ∧
      x.sent = s.sent ++ [replyTo s.executor.kind s.executor.tag .ok (.enrolment digest record.recheck)]) ∧
  (∀ (s : State) (j : CredSetJob) (rest : List DerivationUser), s.power.powered = true → s.power.part = .ready →
    s.store.idle = true → s.derivations = .executor :: rest → s.executor.status = .executing → s.executor.stage = .working →
    s.executor.job = .credSet j →
    ∃ t, exec .derivationComplete s = .next t ∧ t.authority = s.authority ∧ t.table = s.table ∧
      beginsGroup s t
        (.cred j.slot
          { state := if (s.cred j.slot).state = .disabled then .disabled else .active
            salt := some j.salt, verifier := some { madeFrom := { secret := j.secret, salt := j.salt, e := j.policy.e } }
            policy := j.policy, failures := 0
            wraps := (j.keys.filter (fun p => j.slot ∈ (s.range p.1).fields.access)).map (fun p =>
              { range := p.1, generation := (s.range p.1).generation, key := p.2
                verifier := { madeFrom := { secret := j.secret, salt := j.salt, e := j.policy.e } } }) } ::
          (j.dropped.filter (fun r => j.slot ∈ (s.range r).fields.access)).map (fun r => .range r { s.range r with
            fields := { (s.range r).fields with access := (s.range r).fields.access.filter (· ≠ j.slot) } }))) ∧
  (∀ (s : State) (scan : ScanFindings) (j : CredSetJob) (record : CredRecord) (ranges : List (RangeId × RangeRecord)),
    s.executor.status = .executing → s.executor.job = .credSet j →
    s.readyToClose (requestGroup (.cred j.slot record :: ranges.map (fun p => .range p.1 p.2))) →
    ∃ x, exec (.groupClose scan) s = .next (settle x) ∧ x.cred j.slot = record ∧ x.openAt[j.slot] = s.clock ∧
      (∀ i : SlotId, i ≠ j.slot → x.openAt[i] = s.openAt[i]) ∧
      x.authority = s.authority.map (fun a => if a.slot = j.slot
        then { a with unwrap := { secret := j.secret, salt := j.salt, e := j.policy.e } } else a) ∧
      (∀ r ∈ j.dropped, x.staging[r] = { fields := (x.range r).fields, newKey := false }) ∧
      (∀ r, r ∉ j.dropped → x.staging[r] = s.staging[r]) ∧ x.table = s.table ∧ x.cache = s.cache ∧ x.executor = freeExecutor ∧
      x.sent = s.sent ++ [replyTo s.executor.kind s.executor.tag .ok (.credSet j.policy j.dropped)])

/-! ### Ranges -/

/-- R6, R7: a RANGE-UNLOCK or RANGE-LOCK whose body does not fit, that names a range above 15, or whose direction set is empty, holds another
member than the two directions or one of them twice (R169), is answered BAD_BODY; then, without authority, or with that of a USER or RECOVERY
slot that is not on the range's list, NO_AUTHORITY. R6: of a RANGE-UNLOCK the authority permits, the first failing check replies: LOCKDOWN on
a device in LOCKDOWN; SLOT_STATE naming a range that is not ACTIVE; KEY_UNAVAILABLE naming a range with an EMPTY entry whose list does not
hold the holder's slot, or of which the slot holds no wrap at the range's key generation that its unwrap value opens (R54). A refusal changes
nothing. R6: a RANGE-UNLOCK that the authority permits on a NORMAL device opens the named directions whose lock is enabled, makes the entry
LIVE from DRAINING with its material kept, or from EMPTY with the holder's wrap at the range's key generation, takes the range out of
the wake gate, and is answered with the resulting flags. R7: a RANGE-LOCK that the authority permits closes the named directions whose
lock is enabled, drains the entry of an ACTIVE range left with no open direction, and is answered with the resulting flags; an UNDEFINED
or ERASING range is answered SLOT_STATE naming it. -/
def Obligations.LocksOpenAndClose : Prop :=
  (∀ (s : State) (tag : Byte) (x : RangeDirs), s.takesRequest →
    (exec (.rangeUnlock tag .misfit) s = .next (settle (s.answered 6 tag .badBody .none)) ∧
      exec (.rangeLock tag .misfit) s = .next (settle (s.answered 7 tag .badBody .none))) ∧
    (15 < x.range ∨ x.dirs = [] ∨ Field.unknown ∈ x.dirs ∨ ¬ x.dirs.Nodup →
      exec (.rangeUnlock tag (.fits x)) s = .next (settle (s.answered 6 tag .badBody .none)) ∧
      exec (.rangeLock tag (.fits x)) s = .next (settle (s.answered 7 tag .badBody .none))) ∧
    ∀ u, unlockOf x = some u →
      (s.authority = none ∨ (∃ a, s.authority = some a ∧ roleOf a.slot ≠ .admin ∧ a.slot ∉ (s.range u.range).fields.access) →
        exec (.rangeUnlock tag (.fits x)) s = .next (settle (s.answered 6 tag .noAuthority .none)) ∧
        exec (.rangeLock tag (.fits x)) s = .next (settle (s.answered 7 tag .noAuthority .none))) ∧
      ∀ a, s.authority = some a → roleOf a.slot = .admin ∨ a.slot ∈ (s.range u.range).fields.access →
        (s.trigger.working.device = .lockdown →
          exec (.rangeUnlock tag (.fits x)) s = .next (settle (s.answered 6 tag .lockdown .none))) ∧
        (s.trigger.working.device = .normal →
          (s.table[u.range].service ≠ .active →
            exec (.rangeUnlock tag (.fits x)) s = .next (settle (s.answered 6 tag .slotState (.range (some u.range))))) ∧
          (s.table[u.range].service = .active → (s.key (.range u.range)).state = .empty →
            a.slot ∉ (s.range u.range).fields.access ∨
              (∀ w, (s.cred a.slot).wraps.find? (fun w => w.range = u.range ∧ w.generation = (s.range u.range).generation) = some w →
                w.verifier ≠ { madeFrom := a.unwrap }) →
            exec (.rangeUnlock tag (.fits x)) s = .next (settle (s.answered 6 tag .keyUnavailable (.range (some u.range))))))) ∧
  (∀ (s : State) (tag : Byte) (x : RangeDirs) (u : Unlock) (a : Authority), s.takesRequest → unlockOf x = some u →
    s.authority = some a → roleOf a.slot = .admin ∨ a.slot ∈ (s.range u.range).fields.access →
    s.trigger.working.device = .normal → s.table[u.range].service = .active →
    ((s.key (.range u.range)).state ≠ .empty ∨ (s.wrapKey a.slot a.unwrap u.range).isSome = true) →
    ∃ (y : State) (live : RangeLive), exec (.rangeUnlock tag (.fits x)) s =
        .next (settle (y.answered 6 tag .ok (.locks live.readLocked live.writeLocked))) ∧
      y = { s with
        table := s.table.set u.range live, cache := y.cache
        binding := { s.binding with gated := s.binding.gated.filter (fun r => r ≠ u.range) } } ∧
      live = { s.table[u.range] with
        readLocked := if u.dirs.read = true ∧ (s.range u.range).fields.readLock = true then false else s.table[u.range].readLocked
        writeLocked := if u.dirs.write = true ∧ (s.range u.range).fields.writeLock = true then false
          else s.table[u.range].writeLocked } ∧
      y.key (.range u.range) = (if (s.key (.range u.range)).state = .empty then
          { state := .live, material := s.wrapKey a.slot a.unwrap u.range, generation := some (s.range u.range).generation
            refs := (s.key (.range u.range)).refs }
        else { s.key (.range u.range) with state := .live }) ∧
      (∀ r : RangeId, r ≠ u.range → y.key (.range r) = s.key (.range r))) ∧
  (∀ (s : State) (tag : Byte) (x : RangeDirs) (u : Unlock) (a : Authority), s.takesRequest → unlockOf x = some u →
    s.authority = some a → roleOf a.slot = .admin ∨ a.slot ∈ (s.range u.range).fields.access →
    (s.table[u.range].service = .undefined ∨ s.table[u.range].service = .erasing →
      exec (.rangeLock tag (.fits x)) s = .next (settle (s.answered 7 tag .slotState (.range (some u.range))))) ∧
    (s.table[u.range].service ≠ .undefined → s.table[u.range].service ≠ .erasing →
      ∃ (y : State) (live : RangeLive), exec (.rangeLock tag (.fits x)) s =
          .next (settle (y.answered 7 tag .ok (.locks live.readLocked live.writeLocked))) ∧
        y = { s with table := s.table.set u.range live, cache := y.cache } ∧
        live = { s.table[u.range] with
          readLocked := if u.dirs.read = true ∧ (s.range u.range).fields.readLock = true then true else s.table[u.range].readLocked
          writeLocked := if u.dirs.write = true ∧ (s.range u.range).fields.writeLock = true then true
            else s.table[u.range].writeLocked } ∧
        (y.key (.range u.range) =
          if s.table[u.range].service = .active ∧ (s.range u.range).fields.readLock = true ∧ live.readLocked = true ∧
              (s.range u.range).fields.writeLock = true ∧ live.writeLocked = true
          then (s.key (.range u.range)).drain else s.key (.range u.range)) ∧
        (∀ r : RangeId, r ≠ u.range → y.key (.range r) = s.key (.range r))))

/-- R15: a RANGE-STAGE with a field outside its named values is answered BAD_BODY, and one with a U greater than B OUT_OF_RANGE; any other
writes the given fields into the one staged entry, keeps the fields not given, and sets the mark where the option is given (an access list
is kept ascending, without repeats). R16: RANGE-DISCARD makes every staged entry equal to its committed entry with its mark cleared. R17:
RANGE-READ returns the committed entry with its number, flags, service state, tweak origin and key generation, the staged entry with its
mark, and the table generation, and changes no state; a range above 15 is answered BAD_BODY. Nothing else changes. Without ADMIN authority
each is answered NO_AUTHORITY and changes nothing. That a RANGE-STAGE which fails both checks is answered BAD_BODY is the model's reading of
their order (log 16). -/
def Obligations.StagingIsWrittenDiscardedAndRead : Prop :=
  (∀ (s : State) (tag : Byte), s.takesRequest → s.admin = false →
    (∀ x : StageArgs, (x.access.getD []).length ≤ 8 →
      exec (.rangeStage tag (.fits x)) s = .next (settle (s.answered 8 tag .noAuthority .none))) ∧
    exec (.rangeDiscard tag (.fits ())) s = .next (settle (s.answered 9 tag .noAuthority .none)) ∧
    ∀ n, exec (.rangeRead tag (.fits n)) s = .next (settle (s.answered 11 tag .noAuthority .none))) ∧
  (∀ (s : State) (tag : Byte) (x : StageArgs), s.takesRequest → s.admin = true →
    (stageMisnamed x → exec (.rangeStage tag (.fits x)) s = .next (settle (s.answered 8 tag .badBody .none))) ∧
    (¬ stageMisnamed x → (∃ u, x.unitSize = some u ∧ s.profile.blockSize < u) →
      exec (.rangeStage tag (.fits x)) s = .next (settle (s.answered 8 tag .outOfRange .none))) ∧
    (¬ stageMisnamed x → (∀ u, x.unitSize = some u → u ≤ s.profile.blockSize) → ∀ r : RangeId, x.range = r.val →
      ∃ e : Staged, exec (.rangeStage tag (.fits x)) s =
          .next (settle (({ s with staging := s.staging.set r e } : State).answered 8 tag .ok .none)) ∧
        e.fields.start = x.start.getD s.staging[r].fields.start ∧ e.fields.length = x.length.getD s.staging[r].fields.length ∧
        e.fields.readLock = x.readLock.getD s.staging[r].fields.readLock ∧
        e.fields.writeLock = x.writeLock.getD s.staging[r].fields.writeLock ∧
        e.fields.unitSize = x.unitSize.getD s.staging[r].fields.unitSize ∧
        (∀ v, x.lockedRead = some (.value v) → e.fields.lockedRead = v) ∧
        (x.lockedRead = none → e.fields.lockedRead = s.staging[r].fields.lockedRead) ∧
        (∀ v, x.sleep = some (.value v) → e.fields.sleep = v) ∧ (x.sleep = none → e.fields.sleep = s.staging[r].fields.sleep) ∧
        (∀ v, x.response = some (.value v) → e.fields.response = v) ∧
        (x.response = none → e.fields.response = s.staging[r].fields.response) ∧
        (∀ l, x.access = some l → e.fields.access.Pairwise (· < ·) ∧ ∀ i : SlotId, i ∈ e.fields.access ↔ i.val ∈ l) ∧
        (x.access = none → e.fields.access = s.staging[r].fields.access) ∧ e.newKey = (s.staging[r].newKey || x.newKey))) ∧
  (∀ (s : State) (tag : Byte), s.takesRequest → s.admin = true →
    ∃ y : State, exec (.rangeDiscard tag (.fits ())) s = .next (settle (y.answered 9 tag .ok .none)) ∧
      y = { s with staging := y.staging } ∧ ∀ r : RangeId, y.staging[r] = { fields := (s.range r).fields, newKey := false }) ∧
  (∀ (s : State) (tag : Byte) (n : Nat), s.takesRequest → s.admin = true →
    (15 < n → exec (.rangeRead tag (.fits n)) s = .next (settle (s.answered 11 tag .badBody .none))) ∧
    (∀ r : RangeId, n = r.val → ∃ e : RangeReadReport,
      exec (.rangeRead tag (.fits n)) s = .next (settle (s.answered 11 tag .ok (.rangeRead e))) ∧ e.number = r ∧
      e.start = (if r = 0 then none else some (s.range r).fields.start) ∧
      e.length = (if r = 0 then none else some (s.range r).fields.length) ∧ e.committed = (s.range r).fields ∧
      e.readLocked = s.table[r].readLocked ∧ e.writeLocked = s.table[r].writeLocked ∧ e.service = s.table[r].service ∧
      e.tweakOrigin = (s.range r).tweakOrigin ∧ e.generation = (s.range r).generation ∧ e.staged = s.staging[r] ∧
      e.tableGeneration = (s.range 0).tableGeneration))

/-- R18: a RANGE-COMMIT is refused by its first failing check from 2 on: LOCKDOWN; OVERLAP with the lowest staged range that shares an LBA;
OUT_OF_RANGE for a staged range past the capacity; SLOT_STATE with the lowest changed range that is ERASING, or to whose access list an
EMPTY slot is added; KEY_UNAVAILABLE with the lowest range of whose missing key a wrap must be made, by the model's reading also one that
stays UNDEFINED with a mark (log 30); OUT_OF_RANGE for a group of more than 8 records, which are those the group will hold. A refusal
leaves everything as it was. R18, R19: one whose checks pass takes each affected range that is ACTIVE or UNDEFINED to UPDATING, remembers
the previous states and the range keys in hand, and starts the drain limit; no key, record or lock changes. One that changes nothing is
answered OK at once; that this reply carries the current table generation is the model's inference (log 31), and so is that the request
keeps exactly the range keys the Key Cache holds at its checks (log 46). -/
def Obligations.CommitStartsDrainWait : Prop :=
  ∀ (s : State) (tag : Byte), s.takesRequest → s.admin = true →
    (let refused := fun (code : Code) (payload : Payload) =>
        exec (.rangeCommit tag (.fits ())) s = .next (settle (s.answered 10 tag code payload));
      (s.trigger.working.device = .lockdown → refused .lockdown .none) ∧
      (s.trigger.working.device = .normal →
        (∀ r, lowestRange s.stagesOverlap r → refused .overlap (.range (some r))) ∧
        ((∀ r, ¬ s.stagesOverlap r) →
          ((∃ r, s.stagesBeyond r) → refused .outOfRange .none) ∧
          ((∀ r, ¬ s.stagesBeyond r) →
            (∀ r, lowestRange s.stagesErasing r → refused .slotState (.range (some r))) ∧
            ((∀ r, ¬ s.stagesErasing r) →
              (∀ r, lowestRange s.stagesEmptySlot r → refused .slotState (.range (some r))) ∧
              ((∀ r, ¬ s.stagesEmptySlot r) →
                (∀ r, lowestRange s.stagesWithoutKey r → refused .keyUnavailable (.range (some r))) ∧
                ((∀ r, ¬ s.stagesWithoutKey r) →
                  (8 < s.commitSize → refused .outOfRange .none) ∧ (s.commitSize ≤ 8 → s.commitRefusal = none)))))))) ∧
    (∀ c, (s.commitRecords c).length = s.commitSize) ∧
    (s.commitRefusal = none →
      ((∀ r, s.staging[r].fields = (s.range r).fields ∧ s.staging[r].newKey = false) →
        exec (.rangeCommit tag (.fits ())) s = .next (settle (s.answered 10 tag .ok (.generation s.tableGeneration)))) ∧
      ((∃ r, s.staging[r].fields ≠ (s.range r).fields ∨ s.staging[r].newKey = true) →
        ∃ (y : State) (c : Commit), exec (.rangeCommit tag (.fits ())) s = .next (settle y) ∧
          y = { s with
            table := y.table, executor := y.executor, authTimer := none, trigger := s.restartIdle.trigger } ∧
          y.executor = { status := .executing, kind := 10, tag := tag, job := .commit c, stage := .working } ∧
          c.drainSince = s.clock ∧ c.held = [] ∧ c.newKeys = [] ∧
          (∀ (r : RangeId) (key : Key), (r, key) ∈ c.keys ↔ (s.key (.range r)).material = some key) ∧
          (∀ r : RangeId, s.affects r = true → (r, s.table[r].service) ∈ c.affected ∧
            y.table[r] = if s.table[r].service = .active ∨ s.table[r].service = .undefined then
              { s.table[r] with service := .updating } else s.table[r]) ∧
          (∀ r : RangeId, s.affects r = false → r ∉ c.affected.map (·.1) ∧ y.table[r] = s.table[r])))

/-- R22, R20, R14: at the close of a RANGE-COMMIT's group against which nothing is held the table switches: each entry has its staged
fields, or the defaults of R1 if it was removed; the table generation rises by 1; a range that receives a key has its key generation raised
by 1 and its tweak origin set, and its entry holds the new key LIVE if a direction is open and is EMPTY otherwise; any other keeps key
generation and tweak origin; a locked flag stands only where its lock was and stays enabled; an affected range in UPDATING becomes ACTIVE,
or UNDEFINED with an EMPTY entry if it was removed; a defined range that is kept and lost its last lock is LIVE while ACTIVE; the staging
copy is the committed table with its marks cleared; MEDIA_VIEW_CHANGED is raised; and the reply is OK with the new generation. That a range
which stays UNDEFINED with a NEW_KEY mark receives no key and keeps its key generation is the model's inference (log 30). R21, R53: a slot
added to an access list, and each slot on the list of a range that receives a key, has a wrap of the range's key at the generation the
switch gives, made against its verifier; a slot taken from a list, or of a removed range, has none; every other wrap stays. A range with a
lock enabled, and a removed one, has no root wrap; one without has that of its new key, or of the key found in hand when it loses its last
lock. That these keys are the ones found in hand at the request's checks and kept since, also where an entry has gone EMPTY in the drain
wait, is the model's inference (log 46). R20: a LOCKDOWN held against a range takes it into LOCKDOWN under its response in place of ACTIVE
with its key not LIVE, an ERASING held into ERASING with its entry EMPTY, and a range that is UNDEFINED after the switch takes nothing; the
reply is OK after the completions this causes. That a held LOCKDOWN is carried out whatever the device state at the close, also when the
device has left lockdown meanwhile, is the model's inference (log 24). R20, R167: a request that FRONT_RESET has abandoned switches in the
same way, without a reply. -/
def Obligations.CommitSwitchesAtClose : Prop :=
  (∀ (s : State) (scan : ScanFindings) (c : Commit), s.executor.status ≠ .free → s.executor.job = .commit c → c.held = [] →
    s.readyToClose (requestGroup (s.commitRecords c)) →
    ∃ x, exec (.groupClose scan) s = .next (settle x) ∧ x.tableGeneration = s.tableGeneration + 1 ∧
      (∀ r : RangeId, (x.range r).fields = (if s.removes r = true then defaultFields else s.staging[r].fields) ∧
        x.staging[r] = { fields := (x.range r).fields, newKey := false } ∧
        (s.receivesKey r = true → (x.range r).generation = (s.range r).generation + 1 ∧
          (x.range r).tweakOrigin = (if r = 0 then 0 else
            BitVec.ofNat 64 (s.staging[r].fields.start * (s.profile.blockSize / s.staging[r].fields.unitSize))) ∧
          (x.table[r].service = .active → x.anyOpen r = true →
            x.key (.range r) = { state := .live, material := some (c.newKey r), generation := some (x.range r).generation
                                 refs := (s.key (.range r)).refs }) ∧
          (x.table[r].service = .active → x.anyOpen r = false → (x.key (.range r)).state = .empty)) ∧
        (s.receivesKey r = false → (x.range r).generation = (s.range r).generation ∧
          (s.removes r = false → (x.range r).tweakOrigin = (s.range r).tweakOrigin) ∧
          (s.defined r = true → s.removes r = false → x.table[r].service = .active →
            (x.range r).fields.readLock = false → (x.range r).fields.writeLock = false →
            (s.range r).fields.readLock = true ∨ (s.range r).fields.writeLock = true → (x.key (.range r)).state = .live)) ∧
        x.table[r].readLocked = (s.table[r].readLocked && s.defined r && (s.range r).fields.readLock && (x.range r).fields.readLock) ∧
        x.table[r].writeLocked =
          (s.table[r].writeLocked && s.defined r && (s.range r).fields.writeLock && (x.range r).fields.writeLock) ∧
        (r ∈ c.affected.map (·.1) → x.defined r = true → s.table[r].service = .updating → x.table[r].service = .active) ∧
        (r ∈ c.affected.map (·.1) → x.defined r = false →
          x.table[r].service = .undefined ∧ (x.key (.range r)).state = .empty ∧ r ∉ x.binding.gated) ∧
        (r ∉ c.affected.map (·.1) → x.table[r].service = s.table[r].service) ∧
        (r = 0 ∨ s.rangeChanges r = true → (x.range r).rootWrap =
          if s.removes r then none else if (x.range r).fields.anyLock then none
          else if s.receivesKey r then some (c.newKey r) else if s.losesLocks r then some (c.rangeKey r) else (s.range r).rootWrap)) ∧
      (∀ i : SlotId, x.cred i = { s.cred i with wraps := (x.cred i).wraps } ∧ ∀ r : RangeId,
        (i ∈ (s.range r).fields.access → i ∉ (x.range r).fields.access → ∀ w ∈ (x.cred i).wraps, w.range ≠ r) ∧
        (i ∈ (s.range r).fields.access → i ∈ (x.range r).fields.access → s.receivesKey r = false →
          (x.cred i).wraps.find? (fun w => w.range = r) = (s.cred i).wraps.find? (fun w => w.range = r)) ∧
        (i ∈ (x.range r).fields.access → i ∉ (s.range r).fields.access ∨ s.receivesKey r = true →
          ∀ v, (s.cred i).verifier = some v → (x.cred i).wraps.find? (fun w => w.range = r) = some
            { range := r, generation := (x.range r).generation
              key := if s.receivesKey r then c.newKey r else c.rangeKey r, verifier := v })) ∧
      EventKind.mediaViewChanged ∈ x.events.pending ∧ x.executor = freeExecutor ∧ x.authority = s.authority ∧
      x.sent = s.sent ++ (if s.executor.status = .abandoned then []
        else [replyTo s.executor.kind s.executor.tag .ok (.generation (s.tableGeneration + 1))])) ∧
  ∀ (s : State) (scan : ScanFindings) (c : Commit), s.executor.status ≠ .free → s.executor.job = .commit c →
    (c.held.map (·.1)).Nodup → s.readyToClose (requestGroup (s.commitRecords c)) →
    ∃ (x : State) (between : List Sent), exec (.groupClose scan) s = .next (settle x) ∧ (∀ r, Sent.reply r ∉ between) ∧
      x.tableGeneration = s.tableGeneration + 1 ∧ EventKind.mediaViewChanged ∈ x.events.pending ∧ x.executor = freeExecutor ∧
      x.sent = s.sent ++ between ++ (if s.executor.status = .abandoned then []
        else [replyTo s.executor.kind s.executor.tag .ok (.generation (s.tableGeneration + 1))]) ∧
      ∀ r : RangeId, r ∈ c.affected.map (·.1) →
        (x.defined r = false → x.table[r].service = .undefined ∧ (x.key (.range r)).state = .empty) ∧
        (x.defined r = true → s.table[r].service = .updating →
          (r ∉ c.held.map (·.1) → x.table[r].service = .active) ∧
          ((r, Held.lockdown) ∈ c.held → x.table[r].service = .lockdown ∧ x.table[r].inForce = (x.range r).fields.response ∧
            (x.key (.range r)).state ≠ .live ∧ ((x.range r).fields.response = .close → x.key (.range r) = emptyKey) ∧
            (s.receivesKey r = true → (s.key (.range r)).refs = 0 → (x.key (.range r)).state = .empty)) ∧
          ((r, Held.erasing) ∈ c.held → x.table[r].service = .erasing ∧ x.key (.range r) = emptyKey ∧ r ∉ x.binding.gated))

/-! ### Shadow, binding, triggers, restart -/

/-- R159: SHADOW-CONFIG with a field begins, on an idle store, the group of the shadow record with the given fields, S clamped to 1 to
65,536, and its root wrap kept; with neither field it is answered BAD_BODY. R126: WIPE-TOKEN-SET with a token of 32 bytes, and with CLEAR,
begins on an idle store the group of the token cell; a token of any other length is no form of its body and is answered BAD_BODY whatever
authority is held (R166, R170). R107: a TRIGGER-SET of an allowed entry, a Gmax and an idle limit begins, on an idle store, the group of the
trigger table with that entry replaced and the values clamped; an entry that gives IDLE another action than NOTE or RELOCK, or auto-resume,
is answered BAD_BODY. -/
def Obligations.ConfigurationRequestsBeginGroup : Prop :=
  (∀ (s : State) (tag : Byte) (enabled : Option Bool) (size : Option Nat), s.takesRequest → s.admin = true →
    (enabled = none → size = none →
      exec (.shadowConfig tag (.fits { enabled := enabled, size := size })) s =
        .next (settle (s.answered 15 tag .badBody .none))) ∧
    (enabled.isSome = true ∨ size.isSome = true → s.store.idle = true →
      ∃ t, exec (.shadowConfig tag (.fits { enabled := enabled, size := size })) s = .next t ∧
        beginsGroup s t [.shadow
          { enabled := enabled.getD s.shadowRecord.enabled
            size := match size with
              | some n => max 1 (min 65536 n)
              | none => s.shadowRecord.size
            rootWrap := s.shadowRecord.rootWrap }])) ∧
  (∀ (s : State) (tag : Byte), s.takesRequest → s.admin = true →
    (∀ t, t.length = 32 → s.store.idle = true →
      ∃ u, exec (.wipeTokenSet tag (.fits t)) s = .next u ∧ beginsGroup s u [.token (some t)]) ∧
    (s.store.idle = true → ∃ u, exec (.wipeTokenClear tag (.fits ())) s = .next u ∧ beginsGroup s u [.token none])) ∧
  (∀ (s : State) (tag : Byte) (t : List Byte), s.takesRequest → t.length ≠ 32 →
    exec (.wipeTokenSet tag (.fits t)) s = .next (settle (s.answered 22 tag .badBody .none))) ∧
  (∀ (s : State) (tag : Byte) (trigger : Trigger) (action : Action) (autoResume : Bool) (gmax idleLimit : Option Nat),
    s.takesRequest → s.admin = true →
    (trigger = .idle → (action = .lockdown ∨ action = .wipe ∨ autoResume = true) →
      exec (.triggerSet tag (.fits
          { entry := some { trigger := .value trigger, action := .value action, autoResume := autoResume }, gmax := gmax,
            idleLimit := idleLimit })) s = .next (settle (s.answered 20 tag .badBody .none))) ∧
    ((trigger = .idle → (action = .note ∨ action = .relock) ∧ autoResume = false) → s.store.idle = true →
      ∃ (t : State) (table : TriggerTable), exec (.triggerSet tag (.fits
          { entry := some { trigger := .value trigger, action := .value action, autoResume := autoResume }, gmax := gmax,
            idleLimit := idleLimit })) s = .next t ∧
        beginsGroup s t [.triggers table] ∧ table.entry trigger = { action := action, autoResume := autoResume } ∧
        (∀ other, other ≠ trigger → table.entry other = s.triggers.entry other) ∧
        table.gmax = (match gmax with
          | some n => max 8 (min 255 n)
          | none => s.triggers.gmax) ∧
        table.idleLimit = (match idleLimit with
          | some n => min 240 n
          | none => s.triggers.idleLimit)))

/-- R160: SHADOW-LOAD OPEN takes the window to LOADING, loading the entry and raising MEDIA_VIEW_CHANGED only from OFF; it is answered
SLOT_STATE when the shadow is not enabled or its wipe stands; CLOSE takes LOADING to ON and changes nothing else. R161: SHADOW-DONE with
any authority takes ON or LOADING to OFF, drains the shadow entry and raises MEDIA_VIEW_CHANGED; from OFF nothing changes; without
authority it is answered NO_AUTHORITY. That the entry is loaded without a key generation is the model's choice (log 47), and that the
shadow's wipe stands from its acceptance on, in either plan, its inference (log 34, DispositionTables). -/
def Obligations.ShadowWindowOpensAndCloses : Prop :=
  ∀ (s : State) (tag : Byte), s.takesRequest →
    (s.admin = true →
      (s.shadowRecord.enabled = false ∨ s.shadowErasing = true →
        exec (.shadowLoadOpen tag (.fits { actionKnown := true })) s =
          .next (settle (s.answered 16 tag .slotState (.range none)))) ∧
      (s.shadowRecord.enabled = true → s.shadowErasing = false →
        ∃ y : State, exec (.shadowLoadOpen tag (.fits { actionKnown := true })) s =
            .next (settle (y.answered 16 tag .ok (.shadowState .loading))) ∧
          y = { s with
            shadow := .loading
            shadowEntry := if s.shadow = .off then s.shadowEntry.load s.shadowRecord.rootWrap none else s.shadowEntry
            events := if s.shadow = .off then { s.events with pending := withEvent .mediaViewChanged s.events.pending }
              else s.events }) ∧
      exec (.shadowLoadClose tag (.fits { actionKnown := true })) s =
        .next (settle (({ s with shadow := if s.shadow = .loading then .on else s.shadow } : State).answered 16 tag .ok
          (.shadowState (if s.shadow = .loading then .on else s.shadow))))) ∧
    (s.authority = none → exec (.shadowDone tag (.fits ())) s = .next (settle (s.answered 17 tag .noAuthority .none))) ∧
    (s.authority.isSome = true → s.shadow ≠ .off →
      exec (.shadowDone tag (.fits ())) s = .next (settle (({ s with
        shadow := .off, shadowEntry := s.shadowEntry.drain
        events := { s.events with pending := withEvent .mediaViewChanged s.events.pending } } : State).answered 17 tag .ok .none))) ∧
    (s.authority.isSome = true → s.shadow = .off →
      exec (.shadowDone tag (.fits ())) s = .next (settle (s.answered 17 tag .ok .none)))

/-- R119, R120, R11: LOCKDOWN-CLEAR on a NORMAL device is answered OK; with an active cause CONDITION_ACTIVE; with none active the
device leaves lockdown at once: every range in LOCKDOWN is ACTIVE with its enabled directions closed, LOCKDOWN_LEFT is raised, and on
an idle store the group of the NORMAL record begins. R118, R108: a taken change of the bay to CLOSED in LOCKDOWN makes the exit decision:
with another cause active, or an auto-resume flag of the cause set off, the device stays; with all inactive and every flag on it leaves in
the same way, the Trigger Unit submits the record, and a range without a lock has its key loaded from its root wrap. -/
def Obligations.LockdownClearLeaves : Prop :=
  (∀ (s : State) (tag : Byte), s.takesRequest → s.admin = true →
    (s.trigger.working.device = .normal →
      exec (.lockdownClear tag (.fits ())) s = .next (settle (s.answered 21 tag .ok .none))) ∧
    (s.trigger.working.device = .lockdown → (∃ c ∈ s.trigger.working.causes, s.causeActive c = true) →
      exec (.lockdownClear tag (.fits ())) s = .next (settle (s.answered 21 tag .conditionActive .none))) ∧
    (s.trigger.working.device = .lockdown → (∀ c ∈ s.trigger.working.causes, s.causeActive c = false) → s.store.idle = true →
      ∃ t, exec (.lockdownClear tag (.fits ())) s = .next t ∧
        beginsGroup s t [.lockdown { device := .normal, causes := [] }] ∧
        t.trigger.working = { device := .normal, causes := [] } ∧ EventKind.lockdownLeft ∈ t.events.pending ∧
        t.authority = s.authority ∧
        ∀ r : RangeId,
          (s.table[r].service = .lockdown → t.table[r] = { s.table[r] with
            service := .active, readLocked := (s.range r).fields.readLock, writeLocked := (s.range r).fields.writeLock }) ∧
          (s.table[r].service ≠ .lockdown → t.table[r] = s.table[r]))) ∧
  (∀ (s : State) (since : Nat), s.power.powered = true → s.power.part = .ready → s.power.restarting = false →
    s.trigger.stability = some since → s.trigger.candidate = .closed → s.trigger.working.device = .lockdown →
    ((∃ c ∈ s.trigger.working.causes, c ≠ .bayOpen ∧ s.causeActive c = true) ∨
        (∃ c ∈ s.trigger.working.causes, (s.triggers.entry c).autoResume = false) →
      ∃ x, exec .bayStabilityExpiry s = .next (settle x) ∧ x.trigger.working = s.trigger.working ∧ x.table = s.table ∧
        x.cache = s.cache ∧ x.store = s.store ∧ x.authority = s.authority ∧
        x.events = { s.events with pending := withEvent .bayChanged s.events.pending }) ∧
    ((∀ c ∈ s.trigger.working.causes, c ≠ .bayOpen → s.causeActive c = false) →
      (∀ c ∈ s.trigger.working.causes, (s.triggers.entry c).autoResume = true) →
      ∃ x, exec .bayStabilityExpiry s = .next (settle x) ∧ x.trigger.working = { device := .normal, causes := [] } ∧
        EventKind.lockdownLeft ∈ x.events.pending ∧
        (∃ g ∈ x.store.waitingGroups, g.submitter = .triggerUnit ∧
          Record.lockdown { device := .normal, causes := [] } ∈ g.records) ∧
        x.authority = s.authority ∧ x.sent = s.sent ∧
        ∀ r : RangeId,
          (s.table[r].service = .lockdown → x.table[r] = { s.table[r] with
              service := .active, readLocked := (s.range r).fields.readLock, writeLocked := (s.range r).fields.writeLock } ∧
            (s.anyLock r = false → ∀ key, (s.range r).rootWrap = some key →
              x.key (.range r) = (s.key (.range r)).load key (some (s.range r).generation)) ∧
            ((s.range r).fields.readLock = true → (s.range r).fields.writeLock = true → x.key (.range r) = s.key (.range r))) ∧
          (s.table[r].service ≠ .lockdown → x.table[r] = s.table[r] ∧ x.key (.range r) = s.key (.range r))))

/-- R156: RESET-PART by an ADMIN holder is answered OK first; then authority is absent, the part is STARTING and waits to restart, a
check is dropped without a result, and every transfer ends or goes on to end ABORTED with reason RESET: at once where no lane works it.
That a transfer already ABORTING for another reason takes the reason RESET too is the model's choice (log 22). -/
def Obligations.ResetPartBeginsRestart : Prop :=
  ∀ (s : State) (tag : Byte), s.takesRequest → s.admin = true →
    ∃ x more, exec (.resetPart tag (.fits ())) s = .next (settle x) ∧ x.power.part = .starting ∧ x.power.restarting = true ∧
      x.authority = none ∧ x.executor = freeExecutor ∧ x.binding.exchange = .none ∧ x.binding.state = s.binding.state ∧
      x.sent = s.sent ++ replyTo 24 tag .ok .none :: more ∧ x.events = s.events ∧ x.table = s.table ∧ x.store = s.store ∧
      (∀ (t : Tag) (y : Transfer), s.inflight[t] = some y → s.laneOf t = none →
        x.inflight[t] = none ∧ Sent.completion t .aborted (some .reset) none ∈ more) ∧
      (∀ (t : Tag) (y : Transfer), x.inflight[t] = some y → y.state = .aborting ∧ y.abortReason = some .reset)
end

