-- ==== Sys2Proof/Laws/State.lean ====
section
/-! SUPPORT. Laws/State.lean: what each update of the state does to each field, one lemma per field per update, true by unfolding. -/

namespace Sys2Proof.Machine

variable (s : State)

/-! ### modRange -/

@[simp] theorem State.modRange_power (r : RangeId) (f : RangeLive → RangeLive) : (s.modRange r f).power = s.power := rfl
@[simp] theorem State.modRange_store (r : RangeId) (f : RangeLive → RangeLive) : (s.modRange r f).store = s.store := rfl
@[simp] theorem State.modRange_table (r : RangeId) (f : RangeLive → RangeLive) : (s.modRange r f).table = s.table.set r (f s.table[r]) := rfl
@[simp] theorem State.modRange_shadow (r : RangeId) (f : RangeLive → RangeLive) : (s.modRange r f).shadow = s.shadow := rfl
@[simp] theorem State.modRange_staging (r : RangeId) (f : RangeLive → RangeLive) : (s.modRange r f).staging = s.staging := rfl
@[simp] theorem State.modRange_cache (r : RangeId) (f : RangeLive → RangeLive) : (s.modRange r f).cache = s.cache := rfl
@[simp] theorem State.modRange_shadowEntry (r : RangeId) (f : RangeLive → RangeLive) : (s.modRange r f).shadowEntry = s.shadowEntry := rfl
@[simp] theorem State.modRange_inflight (r : RangeId) (f : RangeLive → RangeLive) : (s.modRange r f).inflight = s.inflight := rfl
@[simp] theorem State.modRange_nextSequence (r : RangeId) (f : RangeLive → RangeLive) : (s.modRange r f).nextSequence = s.nextSequence := rfl
@[simp] theorem State.modRange_lanes (r : RangeId) (f : RangeLive → RangeLive) : (s.modRange r f).lanes = s.lanes := rfl
@[simp] theorem State.modRange_laneWindow (r : RangeId) (f : RangeLive → RangeLive) : (s.modRange r f).laneWindow = s.laneWindow := rfl
@[simp] theorem State.modRange_lastGranted (r : RangeId) (f : RangeLive → RangeLive) : (s.modRange r f).lastGranted = s.lastGranted := rfl
@[simp] theorem State.modRange_openAt (r : RangeId) (f : RangeLive → RangeLive) : (s.modRange r f).openAt = s.openAt := rfl
@[simp] theorem State.modRange_authority (r : RangeId) (f : RangeLive → RangeLive) : (s.modRange r f).authority = s.authority := rfl
@[simp] theorem State.modRange_authTimer (r : RangeId) (f : RangeLive → RangeLive) : (s.modRange r f).authTimer = s.authTimer := rfl
@[simp] theorem State.modRange_derivations (r : RangeId) (f : RangeLive → RangeLive) : (s.modRange r f).derivations = s.derivations := rfl
@[simp] theorem State.modRange_binding (r : RangeId) (f : RangeLive → RangeLive) : (s.modRange r f).binding = s.binding := rfl
@[simp] theorem State.modRange_trigger (r : RangeId) (f : RangeLive → RangeLive) : (s.modRange r f).trigger = s.trigger := rfl
@[simp] theorem State.modRange_wipe (r : RangeId) (f : RangeLive → RangeLive) : (s.modRange r f).wipe = s.wipe := rfl
@[simp] theorem State.modRange_events (r : RangeId) (f : RangeLive → RangeLive) : (s.modRange r f).events = s.events := rfl
@[simp] theorem State.modRange_executor (r : RangeId) (f : RangeLive → RangeLive) : (s.modRange r f).executor = s.executor := rfl
@[simp] theorem State.modRange_clock (r : RangeId) (f : RangeLive → RangeLive) : (s.modRange r f).clock = s.clock := rfl
@[simp] theorem State.modRange_entropy (r : RangeId) (f : RangeLive → RangeLive) : (s.modRange r f).entropy = s.entropy := rfl
@[simp] theorem State.modRange_sent (r : RangeId) (f : RangeLive → RangeLive) : (s.modRange r f).sent = s.sent := rfl
@[simp] theorem State.modRange_pending (r : RangeId) (f : RangeLive → RangeLive) : (s.modRange r f).pending = s.pending := rfl

/-! ### setTransfer -/

@[simp] theorem State.setTransfer_power (t : Tag) (x : Option Transfer) : (s.setTransfer t x).power = s.power := rfl
@[simp] theorem State.setTransfer_store (t : Tag) (x : Option Transfer) : (s.setTransfer t x).store = s.store := rfl
@[simp] theorem State.setTransfer_table (t : Tag) (x : Option Transfer) : (s.setTransfer t x).table = s.table := rfl
@[simp] theorem State.setTransfer_shadow (t : Tag) (x : Option Transfer) : (s.setTransfer t x).shadow = s.shadow := rfl
@[simp] theorem State.setTransfer_staging (t : Tag) (x : Option Transfer) : (s.setTransfer t x).staging = s.staging := rfl
@[simp] theorem State.setTransfer_cache (t : Tag) (x : Option Transfer) : (s.setTransfer t x).cache = s.cache := rfl
@[simp] theorem State.setTransfer_shadowEntry (t : Tag) (x : Option Transfer) : (s.setTransfer t x).shadowEntry = s.shadowEntry := rfl
@[simp] theorem State.setTransfer_inflight (t : Tag) (x : Option Transfer) : (s.setTransfer t x).inflight = s.inflight.set t x := rfl
@[simp] theorem State.setTransfer_nextSequence (t : Tag) (x : Option Transfer) : (s.setTransfer t x).nextSequence = s.nextSequence := rfl
@[simp] theorem State.setTransfer_lanes (t : Tag) (x : Option Transfer) : (s.setTransfer t x).lanes = s.lanes := rfl
@[simp] theorem State.setTransfer_laneWindow (t : Tag) (x : Option Transfer) : (s.setTransfer t x).laneWindow = s.laneWindow := rfl
@[simp] theorem State.setTransfer_lastGranted (t : Tag) (x : Option Transfer) : (s.setTransfer t x).lastGranted = s.lastGranted := rfl
@[simp] theorem State.setTransfer_openAt (t : Tag) (x : Option Transfer) : (s.setTransfer t x).openAt = s.openAt := rfl
@[simp] theorem State.setTransfer_authority (t : Tag) (x : Option Transfer) : (s.setTransfer t x).authority = s.authority := rfl
@[simp] theorem State.setTransfer_authTimer (t : Tag) (x : Option Transfer) : (s.setTransfer t x).authTimer = s.authTimer := rfl
@[simp] theorem State.setTransfer_derivations (t : Tag) (x : Option Transfer) : (s.setTransfer t x).derivations = s.derivations := rfl
@[simp] theorem State.setTransfer_binding (t : Tag) (x : Option Transfer) : (s.setTransfer t x).binding = s.binding := rfl
@[simp] theorem State.setTransfer_trigger (t : Tag) (x : Option Transfer) : (s.setTransfer t x).trigger = s.trigger := rfl
@[simp] theorem State.setTransfer_wipe (t : Tag) (x : Option Transfer) : (s.setTransfer t x).wipe = s.wipe := rfl
@[simp] theorem State.setTransfer_events (t : Tag) (x : Option Transfer) : (s.setTransfer t x).events = s.events := rfl
@[simp] theorem State.setTransfer_executor (t : Tag) (x : Option Transfer) : (s.setTransfer t x).executor = s.executor := rfl
@[simp] theorem State.setTransfer_clock (t : Tag) (x : Option Transfer) : (s.setTransfer t x).clock = s.clock := rfl
@[simp] theorem State.setTransfer_entropy (t : Tag) (x : Option Transfer) : (s.setTransfer t x).entropy = s.entropy := rfl
@[simp] theorem State.setTransfer_sent (t : Tag) (x : Option Transfer) : (s.setTransfer t x).sent = s.sent := rfl
@[simp] theorem State.setTransfer_pending (t : Tag) (x : Option Transfer) : (s.setTransfer t x).pending = s.pending := rfl

/-! ### setLane -/

@[simp] theorem State.setLane_power (l : LaneId) (x : Lane) : (s.setLane l x).power = s.power := rfl
@[simp] theorem State.setLane_store (l : LaneId) (x : Lane) : (s.setLane l x).store = s.store := rfl
@[simp] theorem State.setLane_table (l : LaneId) (x : Lane) : (s.setLane l x).table = s.table := rfl
@[simp] theorem State.setLane_shadow (l : LaneId) (x : Lane) : (s.setLane l x).shadow = s.shadow := rfl
@[simp] theorem State.setLane_staging (l : LaneId) (x : Lane) : (s.setLane l x).staging = s.staging := rfl
@[simp] theorem State.setLane_cache (l : LaneId) (x : Lane) : (s.setLane l x).cache = s.cache := rfl
@[simp] theorem State.setLane_shadowEntry (l : LaneId) (x : Lane) : (s.setLane l x).shadowEntry = s.shadowEntry := rfl
@[simp] theorem State.setLane_inflight (l : LaneId) (x : Lane) : (s.setLane l x).inflight = s.inflight := rfl
@[simp] theorem State.setLane_nextSequence (l : LaneId) (x : Lane) : (s.setLane l x).nextSequence = s.nextSequence := rfl
@[simp] theorem State.setLane_lanes (l : LaneId) (x : Lane) : (s.setLane l x).lanes = s.lanes.set l x := rfl
@[simp] theorem State.setLane_laneWindow (l : LaneId) (x : Lane) : (s.setLane l x).laneWindow = s.laneWindow := rfl
@[simp] theorem State.setLane_lastGranted (l : LaneId) (x : Lane) : (s.setLane l x).lastGranted = s.lastGranted := rfl
@[simp] theorem State.setLane_openAt (l : LaneId) (x : Lane) : (s.setLane l x).openAt = s.openAt := rfl
@[simp] theorem State.setLane_authority (l : LaneId) (x : Lane) : (s.setLane l x).authority = s.authority := rfl
@[simp] theorem State.setLane_authTimer (l : LaneId) (x : Lane) : (s.setLane l x).authTimer = s.authTimer := rfl
@[simp] theorem State.setLane_derivations (l : LaneId) (x : Lane) : (s.setLane l x).derivations = s.derivations := rfl
@[simp] theorem State.setLane_binding (l : LaneId) (x : Lane) : (s.setLane l x).binding = s.binding := rfl
@[simp] theorem State.setLane_trigger (l : LaneId) (x : Lane) : (s.setLane l x).trigger = s.trigger := rfl
@[simp] theorem State.setLane_wipe (l : LaneId) (x : Lane) : (s.setLane l x).wipe = s.wipe := rfl
@[simp] theorem State.setLane_events (l : LaneId) (x : Lane) : (s.setLane l x).events = s.events := rfl
@[simp] theorem State.setLane_executor (l : LaneId) (x : Lane) : (s.setLane l x).executor = s.executor := rfl
@[simp] theorem State.setLane_clock (l : LaneId) (x : Lane) : (s.setLane l x).clock = s.clock := rfl
@[simp] theorem State.setLane_entropy (l : LaneId) (x : Lane) : (s.setLane l x).entropy = s.entropy := rfl
@[simp] theorem State.setLane_sent (l : LaneId) (x : Lane) : (s.setLane l x).sent = s.sent := rfl
@[simp] theorem State.setLane_pending (l : LaneId) (x : Lane) : (s.setLane l x).pending = s.pending := rfl

/-! ### say -/

@[simp] theorem State.say_power (m : Sent) : (s.say m).power = s.power := rfl
@[simp] theorem State.say_store (m : Sent) : (s.say m).store = s.store := rfl
@[simp] theorem State.say_table (m : Sent) : (s.say m).table = s.table := rfl
@[simp] theorem State.say_shadow (m : Sent) : (s.say m).shadow = s.shadow := rfl
@[simp] theorem State.say_staging (m : Sent) : (s.say m).staging = s.staging := rfl
@[simp] theorem State.say_cache (m : Sent) : (s.say m).cache = s.cache := rfl
@[simp] theorem State.say_shadowEntry (m : Sent) : (s.say m).shadowEntry = s.shadowEntry := rfl
@[simp] theorem State.say_inflight (m : Sent) : (s.say m).inflight = s.inflight := rfl
@[simp] theorem State.say_nextSequence (m : Sent) : (s.say m).nextSequence = s.nextSequence := rfl
@[simp] theorem State.say_lanes (m : Sent) : (s.say m).lanes = s.lanes := rfl
@[simp] theorem State.say_laneWindow (m : Sent) : (s.say m).laneWindow = s.laneWindow := rfl
@[simp] theorem State.say_lastGranted (m : Sent) : (s.say m).lastGranted = s.lastGranted := rfl
@[simp] theorem State.say_openAt (m : Sent) : (s.say m).openAt = s.openAt := rfl
@[simp] theorem State.say_authority (m : Sent) : (s.say m).authority = s.authority := rfl
@[simp] theorem State.say_authTimer (m : Sent) : (s.say m).authTimer = s.authTimer := rfl
@[simp] theorem State.say_derivations (m : Sent) : (s.say m).derivations = s.derivations := rfl
@[simp] theorem State.say_binding (m : Sent) : (s.say m).binding = s.binding := rfl
@[simp] theorem State.say_trigger (m : Sent) : (s.say m).trigger = s.trigger := rfl
@[simp] theorem State.say_wipe (m : Sent) : (s.say m).wipe = s.wipe := rfl
@[simp] theorem State.say_events (m : Sent) : (s.say m).events = s.events := rfl
@[simp] theorem State.say_executor (m : Sent) : (s.say m).executor = s.executor := rfl
@[simp] theorem State.say_clock (m : Sent) : (s.say m).clock = s.clock := rfl
@[simp] theorem State.say_entropy (m : Sent) : (s.say m).entropy = s.entropy := rfl
@[simp] theorem State.say_sent (m : Sent) : (s.say m).sent = s.sent ++ [m] := rfl
@[simp] theorem State.say_pending (m : Sent) : (s.say m).pending = s.pending := rfl

/-! ### draw -/

@[simp] theorem State.draw_power : (s.draw.2).power = s.power := rfl
@[simp] theorem State.draw_store : (s.draw.2).store = s.store := rfl
@[simp] theorem State.draw_table : (s.draw.2).table = s.table := rfl
@[simp] theorem State.draw_shadow : (s.draw.2).shadow = s.shadow := rfl
@[simp] theorem State.draw_staging : (s.draw.2).staging = s.staging := rfl
@[simp] theorem State.draw_cache : (s.draw.2).cache = s.cache := rfl
@[simp] theorem State.draw_shadowEntry : (s.draw.2).shadowEntry = s.shadowEntry := rfl
@[simp] theorem State.draw_inflight : (s.draw.2).inflight = s.inflight := rfl
@[simp] theorem State.draw_nextSequence : (s.draw.2).nextSequence = s.nextSequence := rfl
@[simp] theorem State.draw_lanes : (s.draw.2).lanes = s.lanes := rfl
@[simp] theorem State.draw_laneWindow : (s.draw.2).laneWindow = s.laneWindow := rfl
@[simp] theorem State.draw_lastGranted : (s.draw.2).lastGranted = s.lastGranted := rfl
@[simp] theorem State.draw_openAt : (s.draw.2).openAt = s.openAt := rfl
@[simp] theorem State.draw_authority : (s.draw.2).authority = s.authority := rfl
@[simp] theorem State.draw_authTimer : (s.draw.2).authTimer = s.authTimer := rfl
@[simp] theorem State.draw_derivations : (s.draw.2).derivations = s.derivations := rfl
@[simp] theorem State.draw_binding : (s.draw.2).binding = s.binding := rfl
@[simp] theorem State.draw_trigger : (s.draw.2).trigger = s.trigger := rfl
@[simp] theorem State.draw_wipe : (s.draw.2).wipe = s.wipe := rfl
@[simp] theorem State.draw_events : (s.draw.2).events = s.events := rfl
@[simp] theorem State.draw_executor : (s.draw.2).executor = s.executor := rfl
@[simp] theorem State.draw_clock : (s.draw.2).clock = s.clock := rfl
@[simp] theorem State.draw_entropy : (s.draw.2).entropy = s.entropy + 1 := rfl
@[simp] theorem State.draw_sent : (s.draw.2).sent = s.sent := rfl
@[simp] theorem State.draw_pending : (s.draw.2).pending = s.pending := rfl

/-! ### reachTime -/

@[simp] theorem State.reachTime_power (t : Nat) : (s.reachTime t).power = s.power := rfl
@[simp] theorem State.reachTime_store (t : Nat) : (s.reachTime t).store = s.store := rfl
@[simp] theorem State.reachTime_table (t : Nat) : (s.reachTime t).table = s.table := rfl
@[simp] theorem State.reachTime_shadow (t : Nat) : (s.reachTime t).shadow = s.shadow := rfl
@[simp] theorem State.reachTime_staging (t : Nat) : (s.reachTime t).staging = s.staging := rfl
@[simp] theorem State.reachTime_cache (t : Nat) : (s.reachTime t).cache = s.cache := rfl
@[simp] theorem State.reachTime_shadowEntry (t : Nat) : (s.reachTime t).shadowEntry = s.shadowEntry := rfl
@[simp] theorem State.reachTime_inflight (t : Nat) : (s.reachTime t).inflight = s.inflight := rfl
@[simp] theorem State.reachTime_nextSequence (t : Nat) : (s.reachTime t).nextSequence = s.nextSequence := rfl
@[simp] theorem State.reachTime_lanes (t : Nat) : (s.reachTime t).lanes = s.lanes := rfl
@[simp] theorem State.reachTime_laneWindow (t : Nat) : (s.reachTime t).laneWindow = s.laneWindow := rfl
@[simp] theorem State.reachTime_lastGranted (t : Nat) : (s.reachTime t).lastGranted = s.lastGranted := rfl
@[simp] theorem State.reachTime_openAt (t : Nat) : (s.reachTime t).openAt = s.openAt := rfl
@[simp] theorem State.reachTime_authority (t : Nat) : (s.reachTime t).authority = s.authority := rfl
@[simp] theorem State.reachTime_authTimer (t : Nat) : (s.reachTime t).authTimer = s.authTimer := rfl
@[simp] theorem State.reachTime_derivations (t : Nat) : (s.reachTime t).derivations = s.derivations := rfl
@[simp] theorem State.reachTime_binding (t : Nat) : (s.reachTime t).binding = s.binding := rfl
@[simp] theorem State.reachTime_trigger (t : Nat) : (s.reachTime t).trigger = s.trigger := rfl
@[simp] theorem State.reachTime_wipe (t : Nat) : (s.reachTime t).wipe = s.wipe := rfl
@[simp] theorem State.reachTime_events (t : Nat) : (s.reachTime t).events = s.events := rfl
@[simp] theorem State.reachTime_executor (t : Nat) : (s.reachTime t).executor = s.executor := rfl
@[simp] theorem State.reachTime_clock (t : Nat) : (s.reachTime t).clock = max s.clock t := rfl
@[simp] theorem State.reachTime_entropy (t : Nat) : (s.reachTime t).entropy = s.entropy := rfl
@[simp] theorem State.reachTime_sent (t : Nat) : (s.reachTime t).sent = s.sent := rfl
@[simp] theorem State.reachTime_pending (t : Nat) : (s.reachTime t).pending = s.pending := rfl

/-! ### raise -/

@[simp] theorem State.raise_power (k : EventKind) : (s.raise k).power = s.power := rfl
@[simp] theorem State.raise_store (k : EventKind) : (s.raise k).store = s.store := rfl
@[simp] theorem State.raise_table (k : EventKind) : (s.raise k).table = s.table := rfl
@[simp] theorem State.raise_shadow (k : EventKind) : (s.raise k).shadow = s.shadow := rfl
@[simp] theorem State.raise_staging (k : EventKind) : (s.raise k).staging = s.staging := rfl
@[simp] theorem State.raise_cache (k : EventKind) : (s.raise k).cache = s.cache := rfl
@[simp] theorem State.raise_shadowEntry (k : EventKind) : (s.raise k).shadowEntry = s.shadowEntry := rfl
@[simp] theorem State.raise_inflight (k : EventKind) : (s.raise k).inflight = s.inflight := rfl
@[simp] theorem State.raise_nextSequence (k : EventKind) : (s.raise k).nextSequence = s.nextSequence := rfl
@[simp] theorem State.raise_lanes (k : EventKind) : (s.raise k).lanes = s.lanes := rfl
@[simp] theorem State.raise_laneWindow (k : EventKind) : (s.raise k).laneWindow = s.laneWindow := rfl
@[simp] theorem State.raise_lastGranted (k : EventKind) : (s.raise k).lastGranted = s.lastGranted := rfl
@[simp] theorem State.raise_openAt (k : EventKind) : (s.raise k).openAt = s.openAt := rfl
@[simp] theorem State.raise_authority (k : EventKind) : (s.raise k).authority = s.authority := rfl
@[simp] theorem State.raise_authTimer (k : EventKind) : (s.raise k).authTimer = s.authTimer := rfl
@[simp] theorem State.raise_derivations (k : EventKind) : (s.raise k).derivations = s.derivations := rfl
@[simp] theorem State.raise_binding (k : EventKind) : (s.raise k).binding = s.binding := rfl
@[simp] theorem State.raise_trigger (k : EventKind) : (s.raise k).trigger = s.trigger := rfl
@[simp] theorem State.raise_wipe (k : EventKind) : (s.raise k).wipe = s.wipe := rfl
@[simp] theorem State.raise_events (k : EventKind) : (s.raise k).events = { s.events with pending := withEvent k s.events.pending } := rfl
@[simp] theorem State.raise_executor (k : EventKind) : (s.raise k).executor = s.executor := rfl
@[simp] theorem State.raise_clock (k : EventKind) : (s.raise k).clock = s.clock := rfl
@[simp] theorem State.raise_entropy (k : EventKind) : (s.raise k).entropy = s.entropy := rfl
@[simp] theorem State.raise_sent (k : EventKind) : (s.raise k).sent = s.sent := rfl
@[simp] theorem State.raise_pending (k : EventKind) : (s.raise k).pending = s.pending := rfl

/-! ### addDetail -/

@[simp] theorem State.addDetail_power (t : Trigger) : (s.addDetail t).power = s.power := rfl
@[simp] theorem State.addDetail_store (t : Trigger) : (s.addDetail t).store = s.store := rfl
@[simp] theorem State.addDetail_table (t : Trigger) : (s.addDetail t).table = s.table := rfl
@[simp] theorem State.addDetail_shadow (t : Trigger) : (s.addDetail t).shadow = s.shadow := rfl
@[simp] theorem State.addDetail_staging (t : Trigger) : (s.addDetail t).staging = s.staging := rfl
@[simp] theorem State.addDetail_cache (t : Trigger) : (s.addDetail t).cache = s.cache := rfl
@[simp] theorem State.addDetail_shadowEntry (t : Trigger) : (s.addDetail t).shadowEntry = s.shadowEntry := rfl
@[simp] theorem State.addDetail_inflight (t : Trigger) : (s.addDetail t).inflight = s.inflight := rfl
@[simp] theorem State.addDetail_nextSequence (t : Trigger) : (s.addDetail t).nextSequence = s.nextSequence := rfl
@[simp] theorem State.addDetail_lanes (t : Trigger) : (s.addDetail t).lanes = s.lanes := rfl
@[simp] theorem State.addDetail_laneWindow (t : Trigger) : (s.addDetail t).laneWindow = s.laneWindow := rfl
@[simp] theorem State.addDetail_lastGranted (t : Trigger) : (s.addDetail t).lastGranted = s.lastGranted := rfl
@[simp] theorem State.addDetail_openAt (t : Trigger) : (s.addDetail t).openAt = s.openAt := rfl
@[simp] theorem State.addDetail_authority (t : Trigger) : (s.addDetail t).authority = s.authority := rfl
@[simp] theorem State.addDetail_authTimer (t : Trigger) : (s.addDetail t).authTimer = s.authTimer := rfl
@[simp] theorem State.addDetail_derivations (t : Trigger) : (s.addDetail t).derivations = s.derivations := rfl
@[simp] theorem State.addDetail_binding (t : Trigger) : (s.addDetail t).binding = s.binding := rfl
@[simp] theorem State.addDetail_trigger (t : Trigger) : (s.addDetail t).trigger = s.trigger := rfl
@[simp] theorem State.addDetail_wipe (t : Trigger) : (s.addDetail t).wipe = s.wipe := rfl
@[simp] theorem State.addDetail_events (t : Trigger) : (s.addDetail t).events = { s.events with detail := withTrigger t s.events.detail } := rfl
@[simp] theorem State.addDetail_executor (t : Trigger) : (s.addDetail t).executor = s.executor := rfl
@[simp] theorem State.addDetail_clock (t : Trigger) : (s.addDetail t).clock = s.clock := rfl
@[simp] theorem State.addDetail_entropy (t : Trigger) : (s.addDetail t).entropy = s.entropy := rfl
@[simp] theorem State.addDetail_sent (t : Trigger) : (s.addDetail t).sent = s.sent := rfl
@[simp] theorem State.addDetail_pending (t : Trigger) : (s.addDetail t).pending = s.pending := rfl

/-! ### latchOpen -/

@[simp] theorem State.latchOpen_power (b : BayLevel) : (s.latchOpen b).power = s.power := rfl
@[simp] theorem State.latchOpen_store (b : BayLevel) : (s.latchOpen b).store = s.store := rfl
@[simp] theorem State.latchOpen_table (b : BayLevel) : (s.latchOpen b).table = s.table := rfl
@[simp] theorem State.latchOpen_shadow (b : BayLevel) : (s.latchOpen b).shadow = s.shadow := rfl
@[simp] theorem State.latchOpen_staging (b : BayLevel) : (s.latchOpen b).staging = s.staging := rfl
@[simp] theorem State.latchOpen_cache (b : BayLevel) : (s.latchOpen b).cache = s.cache := rfl
@[simp] theorem State.latchOpen_shadowEntry (b : BayLevel) : (s.latchOpen b).shadowEntry = s.shadowEntry := rfl
@[simp] theorem State.latchOpen_inflight (b : BayLevel) : (s.latchOpen b).inflight = s.inflight := rfl
@[simp] theorem State.latchOpen_nextSequence (b : BayLevel) : (s.latchOpen b).nextSequence = s.nextSequence := rfl
@[simp] theorem State.latchOpen_lanes (b : BayLevel) : (s.latchOpen b).lanes = s.lanes := rfl
@[simp] theorem State.latchOpen_laneWindow (b : BayLevel) : (s.latchOpen b).laneWindow = s.laneWindow := rfl
@[simp] theorem State.latchOpen_lastGranted (b : BayLevel) : (s.latchOpen b).lastGranted = s.lastGranted := rfl
@[simp] theorem State.latchOpen_openAt (b : BayLevel) : (s.latchOpen b).openAt = s.openAt := rfl
@[simp] theorem State.latchOpen_authority (b : BayLevel) : (s.latchOpen b).authority = s.authority := rfl
@[simp] theorem State.latchOpen_authTimer (b : BayLevel) : (s.latchOpen b).authTimer = s.authTimer := rfl
@[simp] theorem State.latchOpen_derivations (b : BayLevel) : (s.latchOpen b).derivations = s.derivations := rfl
@[simp] theorem State.latchOpen_binding (b : BayLevel) : (s.latchOpen b).binding = s.binding := rfl
@[simp] theorem State.latchOpen_trigger (b : BayLevel) : (s.latchOpen b).trigger = s.trigger := rfl
@[simp] theorem State.latchOpen_wipe (b : BayLevel) : (s.latchOpen b).wipe = s.wipe := rfl
@[simp] theorem State.latchOpen_events (b : BayLevel) : (s.latchOpen b).events = { s.events with latchedOpen := s.events.latchedOpen || b = .open } := rfl
@[simp] theorem State.latchOpen_executor (b : BayLevel) : (s.latchOpen b).executor = s.executor := rfl
@[simp] theorem State.latchOpen_clock (b : BayLevel) : (s.latchOpen b).clock = s.clock := rfl
@[simp] theorem State.latchOpen_entropy (b : BayLevel) : (s.latchOpen b).entropy = s.entropy := rfl
@[simp] theorem State.latchOpen_sent (b : BayLevel) : (s.latchOpen b).sent = s.sent := rfl
@[simp] theorem State.latchOpen_pending (b : BayLevel) : (s.latchOpen b).pending = s.pending := rfl

/-! ### rearmLatch -/

@[simp] theorem State.rearmLatch_power : (s.rearmLatch).power = s.power := rfl
@[simp] theorem State.rearmLatch_store : (s.rearmLatch).store = s.store := rfl
@[simp] theorem State.rearmLatch_table : (s.rearmLatch).table = s.table := rfl
@[simp] theorem State.rearmLatch_shadow : (s.rearmLatch).shadow = s.shadow := rfl
@[simp] theorem State.rearmLatch_staging : (s.rearmLatch).staging = s.staging := rfl
@[simp] theorem State.rearmLatch_cache : (s.rearmLatch).cache = s.cache := rfl
@[simp] theorem State.rearmLatch_shadowEntry : (s.rearmLatch).shadowEntry = s.shadowEntry := rfl
@[simp] theorem State.rearmLatch_inflight : (s.rearmLatch).inflight = s.inflight := rfl
@[simp] theorem State.rearmLatch_nextSequence : (s.rearmLatch).nextSequence = s.nextSequence := rfl
@[simp] theorem State.rearmLatch_lanes : (s.rearmLatch).lanes = s.lanes := rfl
@[simp] theorem State.rearmLatch_laneWindow : (s.rearmLatch).laneWindow = s.laneWindow := rfl
@[simp] theorem State.rearmLatch_lastGranted : (s.rearmLatch).lastGranted = s.lastGranted := rfl
@[simp] theorem State.rearmLatch_openAt : (s.rearmLatch).openAt = s.openAt := rfl
@[simp] theorem State.rearmLatch_authority : (s.rearmLatch).authority = s.authority := rfl
@[simp] theorem State.rearmLatch_authTimer : (s.rearmLatch).authTimer = s.authTimer := rfl
@[simp] theorem State.rearmLatch_derivations : (s.rearmLatch).derivations = s.derivations := rfl
@[simp] theorem State.rearmLatch_binding : (s.rearmLatch).binding = s.binding := rfl
@[simp] theorem State.rearmLatch_trigger : (s.rearmLatch).trigger = s.trigger := rfl
@[simp] theorem State.rearmLatch_wipe : (s.rearmLatch).wipe = s.wipe := rfl
@[simp] theorem State.rearmLatch_events : (s.rearmLatch).events = { s.events with latchedOpen := s.trigger.bayLevel = .open } := rfl
@[simp] theorem State.rearmLatch_executor : (s.rearmLatch).executor = s.executor := rfl
@[simp] theorem State.rearmLatch_clock : (s.rearmLatch).clock = s.clock := rfl
@[simp] theorem State.rearmLatch_entropy : (s.rearmLatch).entropy = s.entropy := rfl
@[simp] theorem State.rearmLatch_sent : (s.rearmLatch).sent = s.sent := rfl
@[simp] theorem State.rearmLatch_pending : (s.rearmLatch).pending = s.pending := rfl

/-! ### setEvents -/

@[simp] theorem State.setEvents_power (e : Events) : (s.setEvents e).power = s.power := rfl
@[simp] theorem State.setEvents_store (e : Events) : (s.setEvents e).store = s.store := rfl
@[simp] theorem State.setEvents_table (e : Events) : (s.setEvents e).table = s.table := rfl
@[simp] theorem State.setEvents_shadow (e : Events) : (s.setEvents e).shadow = s.shadow := rfl
@[simp] theorem State.setEvents_staging (e : Events) : (s.setEvents e).staging = s.staging := rfl
@[simp] theorem State.setEvents_cache (e : Events) : (s.setEvents e).cache = s.cache := rfl
@[simp] theorem State.setEvents_shadowEntry (e : Events) : (s.setEvents e).shadowEntry = s.shadowEntry := rfl
@[simp] theorem State.setEvents_inflight (e : Events) : (s.setEvents e).inflight = s.inflight := rfl
@[simp] theorem State.setEvents_nextSequence (e : Events) : (s.setEvents e).nextSequence = s.nextSequence := rfl
@[simp] theorem State.setEvents_lanes (e : Events) : (s.setEvents e).lanes = s.lanes := rfl
@[simp] theorem State.setEvents_laneWindow (e : Events) : (s.setEvents e).laneWindow = s.laneWindow := rfl
@[simp] theorem State.setEvents_lastGranted (e : Events) : (s.setEvents e).lastGranted = s.lastGranted := rfl
@[simp] theorem State.setEvents_openAt (e : Events) : (s.setEvents e).openAt = s.openAt := rfl
@[simp] theorem State.setEvents_authority (e : Events) : (s.setEvents e).authority = s.authority := rfl
@[simp] theorem State.setEvents_authTimer (e : Events) : (s.setEvents e).authTimer = s.authTimer := rfl
@[simp] theorem State.setEvents_derivations (e : Events) : (s.setEvents e).derivations = s.derivations := rfl
@[simp] theorem State.setEvents_binding (e : Events) : (s.setEvents e).binding = s.binding := rfl
@[simp] theorem State.setEvents_trigger (e : Events) : (s.setEvents e).trigger = s.trigger := rfl
@[simp] theorem State.setEvents_wipe (e : Events) : (s.setEvents e).wipe = s.wipe := rfl
@[simp] theorem State.setEvents_events (e : Events) : (s.setEvents e).events = e := rfl
@[simp] theorem State.setEvents_executor (e : Events) : (s.setEvents e).executor = s.executor := rfl
@[simp] theorem State.setEvents_clock (e : Events) : (s.setEvents e).clock = s.clock := rfl
@[simp] theorem State.setEvents_entropy (e : Events) : (s.setEvents e).entropy = s.entropy := rfl
@[simp] theorem State.setEvents_sent (e : Events) : (s.setEvents e).sent = s.sent := rfl
@[simp] theorem State.setEvents_pending (e : Events) : (s.setEvents e).pending = s.pending := rfl

/-! ### settleAlert -/

@[simp] theorem State.settleAlert_power : (settleAlert s).power = s.power := rfl
@[simp] theorem State.settleAlert_store : (settleAlert s).store = s.store := rfl
@[simp] theorem State.settleAlert_table : (settleAlert s).table = s.table := rfl
@[simp] theorem State.settleAlert_shadow : (settleAlert s).shadow = s.shadow := rfl
@[simp] theorem State.settleAlert_staging : (settleAlert s).staging = s.staging := rfl
@[simp] theorem State.settleAlert_cache : (settleAlert s).cache = s.cache := rfl
@[simp] theorem State.settleAlert_shadowEntry : (settleAlert s).shadowEntry = s.shadowEntry := rfl
@[simp] theorem State.settleAlert_inflight : (settleAlert s).inflight = s.inflight := rfl
@[simp] theorem State.settleAlert_nextSequence : (settleAlert s).nextSequence = s.nextSequence := rfl
@[simp] theorem State.settleAlert_lanes : (settleAlert s).lanes = s.lanes := rfl
@[simp] theorem State.settleAlert_laneWindow : (settleAlert s).laneWindow = s.laneWindow := rfl
@[simp] theorem State.settleAlert_lastGranted : (settleAlert s).lastGranted = s.lastGranted := rfl
@[simp] theorem State.settleAlert_openAt : (settleAlert s).openAt = s.openAt := rfl
@[simp] theorem State.settleAlert_authority : (settleAlert s).authority = s.authority := rfl
@[simp] theorem State.settleAlert_authTimer : (settleAlert s).authTimer = s.authTimer := rfl
@[simp] theorem State.settleAlert_derivations : (settleAlert s).derivations = s.derivations := rfl
@[simp] theorem State.settleAlert_binding : (settleAlert s).binding = s.binding := rfl
@[simp] theorem State.settleAlert_trigger : (settleAlert s).trigger = s.trigger := rfl
@[simp] theorem State.settleAlert_wipe : (settleAlert s).wipe = s.wipe := rfl
@[simp] theorem State.settleAlert_events : (settleAlert s).events = { s.events with alert := s.events.alertDue } := rfl
@[simp] theorem State.settleAlert_executor : (settleAlert s).executor = s.executor := rfl
@[simp] theorem State.settleAlert_clock : (settleAlert s).clock = s.clock := rfl
@[simp] theorem State.settleAlert_entropy : (settleAlert s).entropy = s.entropy := rfl
@[simp] theorem State.settleAlert_sent : (settleAlert s).sent = s.sent := rfl
@[simp] theorem State.settleAlert_pending : (settleAlert s).pending = s.pending := rfl

/-! ### ungate -/

@[simp] theorem State.ungate_power (r : RangeId) : (s.ungate r).power = s.power := rfl
@[simp] theorem State.ungate_store (r : RangeId) : (s.ungate r).store = s.store := rfl
@[simp] theorem State.ungate_table (r : RangeId) : (s.ungate r).table = s.table := rfl
@[simp] theorem State.ungate_shadow (r : RangeId) : (s.ungate r).shadow = s.shadow := rfl
@[simp] theorem State.ungate_staging (r : RangeId) : (s.ungate r).staging = s.staging := rfl
@[simp] theorem State.ungate_cache (r : RangeId) : (s.ungate r).cache = s.cache := rfl
@[simp] theorem State.ungate_shadowEntry (r : RangeId) : (s.ungate r).shadowEntry = s.shadowEntry := rfl
@[simp] theorem State.ungate_inflight (r : RangeId) : (s.ungate r).inflight = s.inflight := rfl
@[simp] theorem State.ungate_nextSequence (r : RangeId) : (s.ungate r).nextSequence = s.nextSequence := rfl
@[simp] theorem State.ungate_lanes (r : RangeId) : (s.ungate r).lanes = s.lanes := rfl
@[simp] theorem State.ungate_laneWindow (r : RangeId) : (s.ungate r).laneWindow = s.laneWindow := rfl
@[simp] theorem State.ungate_lastGranted (r : RangeId) : (s.ungate r).lastGranted = s.lastGranted := rfl
@[simp] theorem State.ungate_openAt (r : RangeId) : (s.ungate r).openAt = s.openAt := rfl
@[simp] theorem State.ungate_authority (r : RangeId) : (s.ungate r).authority = s.authority := rfl
@[simp] theorem State.ungate_authTimer (r : RangeId) : (s.ungate r).authTimer = s.authTimer := rfl
@[simp] theorem State.ungate_derivations (r : RangeId) : (s.ungate r).derivations = s.derivations := rfl
@[simp] theorem State.ungate_binding (r : RangeId) : (s.ungate r).binding = { s.binding with gated := s.binding.gated.filter (· ≠ r) } := rfl
@[simp] theorem State.ungate_trigger (r : RangeId) : (s.ungate r).trigger = s.trigger := rfl
@[simp] theorem State.ungate_wipe (r : RangeId) : (s.ungate r).wipe = s.wipe := rfl
@[simp] theorem State.ungate_events (r : RangeId) : (s.ungate r).events = s.events := rfl
@[simp] theorem State.ungate_executor (r : RangeId) : (s.ungate r).executor = s.executor := rfl
@[simp] theorem State.ungate_clock (r : RangeId) : (s.ungate r).clock = s.clock := rfl
@[simp] theorem State.ungate_entropy (r : RangeId) : (s.ungate r).entropy = s.entropy := rfl
@[simp] theorem State.ungate_sent (r : RangeId) : (s.ungate r).sent = s.sent := rfl
@[simp] theorem State.ungate_pending (r : RangeId) : (s.ungate r).pending = s.pending := rfl

/-! ### setWipe -/

@[simp] theorem State.setWipe_power (w : Wipe) : (s.setWipe w).power = s.power := rfl
@[simp] theorem State.setWipe_store (w : Wipe) : (s.setWipe w).store = s.store := rfl
@[simp] theorem State.setWipe_table (w : Wipe) : (s.setWipe w).table = s.table := rfl
@[simp] theorem State.setWipe_shadow (w : Wipe) : (s.setWipe w).shadow = s.shadow := rfl
@[simp] theorem State.setWipe_staging (w : Wipe) : (s.setWipe w).staging = s.staging := rfl
@[simp] theorem State.setWipe_cache (w : Wipe) : (s.setWipe w).cache = s.cache := rfl
@[simp] theorem State.setWipe_shadowEntry (w : Wipe) : (s.setWipe w).shadowEntry = s.shadowEntry := rfl
@[simp] theorem State.setWipe_inflight (w : Wipe) : (s.setWipe w).inflight = s.inflight := rfl
@[simp] theorem State.setWipe_nextSequence (w : Wipe) : (s.setWipe w).nextSequence = s.nextSequence := rfl
@[simp] theorem State.setWipe_lanes (w : Wipe) : (s.setWipe w).lanes = s.lanes := rfl
@[simp] theorem State.setWipe_laneWindow (w : Wipe) : (s.setWipe w).laneWindow = s.laneWindow := rfl
@[simp] theorem State.setWipe_lastGranted (w : Wipe) : (s.setWipe w).lastGranted = s.lastGranted := rfl
@[simp] theorem State.setWipe_openAt (w : Wipe) : (s.setWipe w).openAt = s.openAt := rfl
@[simp] theorem State.setWipe_authority (w : Wipe) : (s.setWipe w).authority = s.authority := rfl
@[simp] theorem State.setWipe_authTimer (w : Wipe) : (s.setWipe w).authTimer = s.authTimer := rfl
@[simp] theorem State.setWipe_derivations (w : Wipe) : (s.setWipe w).derivations = s.derivations := rfl
@[simp] theorem State.setWipe_binding (w : Wipe) : (s.setWipe w).binding = s.binding := rfl
@[simp] theorem State.setWipe_trigger (w : Wipe) : (s.setWipe w).trigger = s.trigger := rfl
@[simp] theorem State.setWipe_wipe (w : Wipe) : (s.setWipe w).wipe = w := rfl
@[simp] theorem State.setWipe_events (w : Wipe) : (s.setWipe w).events = s.events := rfl
@[simp] theorem State.setWipe_executor (w : Wipe) : (s.setWipe w).executor = s.executor := rfl
@[simp] theorem State.setWipe_clock (w : Wipe) : (s.setWipe w).clock = s.clock := rfl
@[simp] theorem State.setWipe_entropy (w : Wipe) : (s.setWipe w).entropy = s.entropy := rfl
@[simp] theorem State.setWipe_sent (w : Wipe) : (s.setWipe w).sent = s.sent := rfl
@[simp] theorem State.setWipe_pending (w : Wipe) : (s.setWipe w).pending = s.pending := rfl

/-! ### setBinding -/

@[simp] theorem State.setBinding_power (b : Binding) : (s.setBinding b).power = s.power := rfl
@[simp] theorem State.setBinding_store (b : Binding) : (s.setBinding b).store = s.store := rfl
@[simp] theorem State.setBinding_table (b : Binding) : (s.setBinding b).table = s.table := rfl
@[simp] theorem State.setBinding_shadow (b : Binding) : (s.setBinding b).shadow = s.shadow := rfl
@[simp] theorem State.setBinding_staging (b : Binding) : (s.setBinding b).staging = s.staging := rfl
@[simp] theorem State.setBinding_cache (b : Binding) : (s.setBinding b).cache = s.cache := rfl
@[simp] theorem State.setBinding_shadowEntry (b : Binding) : (s.setBinding b).shadowEntry = s.shadowEntry := rfl
@[simp] theorem State.setBinding_inflight (b : Binding) : (s.setBinding b).inflight = s.inflight := rfl
@[simp] theorem State.setBinding_nextSequence (b : Binding) : (s.setBinding b).nextSequence = s.nextSequence := rfl
@[simp] theorem State.setBinding_lanes (b : Binding) : (s.setBinding b).lanes = s.lanes := rfl
@[simp] theorem State.setBinding_laneWindow (b : Binding) : (s.setBinding b).laneWindow = s.laneWindow := rfl
@[simp] theorem State.setBinding_lastGranted (b : Binding) : (s.setBinding b).lastGranted = s.lastGranted := rfl
@[simp] theorem State.setBinding_openAt (b : Binding) : (s.setBinding b).openAt = s.openAt := rfl
@[simp] theorem State.setBinding_authority (b : Binding) : (s.setBinding b).authority = s.authority := rfl
@[simp] theorem State.setBinding_authTimer (b : Binding) : (s.setBinding b).authTimer = s.authTimer := rfl
@[simp] theorem State.setBinding_derivations (b : Binding) : (s.setBinding b).derivations = s.derivations := rfl
@[simp] theorem State.setBinding_binding (b : Binding) : (s.setBinding b).binding = b := rfl
@[simp] theorem State.setBinding_trigger (b : Binding) : (s.setBinding b).trigger = s.trigger := rfl
@[simp] theorem State.setBinding_wipe (b : Binding) : (s.setBinding b).wipe = s.wipe := rfl
@[simp] theorem State.setBinding_events (b : Binding) : (s.setBinding b).events = s.events := rfl
@[simp] theorem State.setBinding_executor (b : Binding) : (s.setBinding b).executor = s.executor := rfl
@[simp] theorem State.setBinding_clock (b : Binding) : (s.setBinding b).clock = s.clock := rfl
@[simp] theorem State.setBinding_entropy (b : Binding) : (s.setBinding b).entropy = s.entropy := rfl
@[simp] theorem State.setBinding_sent (b : Binding) : (s.setBinding b).sent = s.sent := rfl
@[simp] theorem State.setBinding_pending (b : Binding) : (s.setBinding b).pending = s.pending := rfl

/-! ### setLockdown -/

@[simp] theorem State.setLockdown_power (l : LockdownRecord) : (s.setLockdown l).power = s.power := rfl
@[simp] theorem State.setLockdown_store (l : LockdownRecord) : (s.setLockdown l).store = s.store := rfl
@[simp] theorem State.setLockdown_table (l : LockdownRecord) : (s.setLockdown l).table = s.table := rfl
@[simp] theorem State.setLockdown_shadow (l : LockdownRecord) : (s.setLockdown l).shadow = s.shadow := rfl
@[simp] theorem State.setLockdown_staging (l : LockdownRecord) : (s.setLockdown l).staging = s.staging := rfl
@[simp] theorem State.setLockdown_cache (l : LockdownRecord) : (s.setLockdown l).cache = s.cache := rfl
@[simp] theorem State.setLockdown_shadowEntry (l : LockdownRecord) : (s.setLockdown l).shadowEntry = s.shadowEntry := rfl
@[simp] theorem State.setLockdown_inflight (l : LockdownRecord) : (s.setLockdown l).inflight = s.inflight := rfl
@[simp] theorem State.setLockdown_nextSequence (l : LockdownRecord) : (s.setLockdown l).nextSequence = s.nextSequence := rfl
@[simp] theorem State.setLockdown_lanes (l : LockdownRecord) : (s.setLockdown l).lanes = s.lanes := rfl
@[simp] theorem State.setLockdown_laneWindow (l : LockdownRecord) : (s.setLockdown l).laneWindow = s.laneWindow := rfl
@[simp] theorem State.setLockdown_lastGranted (l : LockdownRecord) : (s.setLockdown l).lastGranted = s.lastGranted := rfl
@[simp] theorem State.setLockdown_openAt (l : LockdownRecord) : (s.setLockdown l).openAt = s.openAt := rfl
@[simp] theorem State.setLockdown_authority (l : LockdownRecord) : (s.setLockdown l).authority = s.authority := rfl
@[simp] theorem State.setLockdown_authTimer (l : LockdownRecord) : (s.setLockdown l).authTimer = s.authTimer := rfl
@[simp] theorem State.setLockdown_derivations (l : LockdownRecord) : (s.setLockdown l).derivations = s.derivations := rfl
@[simp] theorem State.setLockdown_binding (l : LockdownRecord) : (s.setLockdown l).binding = s.binding := rfl
@[simp] theorem State.setLockdown_trigger (l : LockdownRecord) : (s.setLockdown l).trigger = { s.trigger with working := l } := rfl
@[simp] theorem State.setLockdown_wipe (l : LockdownRecord) : (s.setLockdown l).wipe = s.wipe := rfl
@[simp] theorem State.setLockdown_events (l : LockdownRecord) : (s.setLockdown l).events = s.events := rfl
@[simp] theorem State.setLockdown_executor (l : LockdownRecord) : (s.setLockdown l).executor = s.executor := rfl
@[simp] theorem State.setLockdown_clock (l : LockdownRecord) : (s.setLockdown l).clock = s.clock := rfl
@[simp] theorem State.setLockdown_entropy (l : LockdownRecord) : (s.setLockdown l).entropy = s.entropy := rfl
@[simp] theorem State.setLockdown_sent (l : LockdownRecord) : (s.setLockdown l).sent = s.sent := rfl
@[simp] theorem State.setLockdown_pending (l : LockdownRecord) : (s.setLockdown l).pending = s.pending := rfl

/-! ### setOpenAt -/

@[simp] theorem State.setOpenAt_power (i : SlotId) (t : Nat) : (s.setOpenAt i t).power = s.power := rfl
@[simp] theorem State.setOpenAt_store (i : SlotId) (t : Nat) : (s.setOpenAt i t).store = s.store := rfl
@[simp] theorem State.setOpenAt_table (i : SlotId) (t : Nat) : (s.setOpenAt i t).table = s.table := rfl
@[simp] theorem State.setOpenAt_shadow (i : SlotId) (t : Nat) : (s.setOpenAt i t).shadow = s.shadow := rfl
@[simp] theorem State.setOpenAt_staging (i : SlotId) (t : Nat) : (s.setOpenAt i t).staging = s.staging := rfl
@[simp] theorem State.setOpenAt_cache (i : SlotId) (t : Nat) : (s.setOpenAt i t).cache = s.cache := rfl
@[simp] theorem State.setOpenAt_shadowEntry (i : SlotId) (t : Nat) : (s.setOpenAt i t).shadowEntry = s.shadowEntry := rfl
@[simp] theorem State.setOpenAt_inflight (i : SlotId) (t : Nat) : (s.setOpenAt i t).inflight = s.inflight := rfl
@[simp] theorem State.setOpenAt_nextSequence (i : SlotId) (t : Nat) : (s.setOpenAt i t).nextSequence = s.nextSequence := rfl
@[simp] theorem State.setOpenAt_lanes (i : SlotId) (t : Nat) : (s.setOpenAt i t).lanes = s.lanes := rfl
@[simp] theorem State.setOpenAt_laneWindow (i : SlotId) (t : Nat) : (s.setOpenAt i t).laneWindow = s.laneWindow := rfl
@[simp] theorem State.setOpenAt_lastGranted (i : SlotId) (t : Nat) : (s.setOpenAt i t).lastGranted = s.lastGranted := rfl
@[simp] theorem State.setOpenAt_openAt (i : SlotId) (t : Nat) : (s.setOpenAt i t).openAt = s.openAt.set i t := rfl
@[simp] theorem State.setOpenAt_authority (i : SlotId) (t : Nat) : (s.setOpenAt i t).authority = s.authority := rfl
@[simp] theorem State.setOpenAt_authTimer (i : SlotId) (t : Nat) : (s.setOpenAt i t).authTimer = s.authTimer := rfl
@[simp] theorem State.setOpenAt_derivations (i : SlotId) (t : Nat) : (s.setOpenAt i t).derivations = s.derivations := rfl
@[simp] theorem State.setOpenAt_binding (i : SlotId) (t : Nat) : (s.setOpenAt i t).binding = s.binding := rfl
@[simp] theorem State.setOpenAt_trigger (i : SlotId) (t : Nat) : (s.setOpenAt i t).trigger = s.trigger := rfl
@[simp] theorem State.setOpenAt_wipe (i : SlotId) (t : Nat) : (s.setOpenAt i t).wipe = s.wipe := rfl
@[simp] theorem State.setOpenAt_events (i : SlotId) (t : Nat) : (s.setOpenAt i t).events = s.events := rfl
@[simp] theorem State.setOpenAt_executor (i : SlotId) (t : Nat) : (s.setOpenAt i t).executor = s.executor := rfl
@[simp] theorem State.setOpenAt_clock (i : SlotId) (t : Nat) : (s.setOpenAt i t).clock = s.clock := rfl
@[simp] theorem State.setOpenAt_entropy (i : SlotId) (t : Nat) : (s.setOpenAt i t).entropy = s.entropy := rfl
@[simp] theorem State.setOpenAt_sent (i : SlotId) (t : Nat) : (s.setOpenAt i t).sent = s.sent := rfl
@[simp] theorem State.setOpenAt_pending (i : SlotId) (t : Nat) : (s.setOpenAt i t).pending = s.pending := rfl

/-! ### restage -/

@[simp] theorem State.restage_power (r : RangeId) : (s.restage r).power = s.power := rfl
@[simp] theorem State.restage_store (r : RangeId) : (s.restage r).store = s.store := rfl
@[simp] theorem State.restage_table (r : RangeId) : (s.restage r).table = s.table := rfl
@[simp] theorem State.restage_shadow (r : RangeId) : (s.restage r).shadow = s.shadow := rfl
@[simp] theorem State.restage_staging (r : RangeId) : (s.restage r).staging = s.staging.set r { fields := (s.range r).fields, newKey := false } := rfl
@[simp] theorem State.restage_cache (r : RangeId) : (s.restage r).cache = s.cache := rfl
@[simp] theorem State.restage_shadowEntry (r : RangeId) : (s.restage r).shadowEntry = s.shadowEntry := rfl
@[simp] theorem State.restage_inflight (r : RangeId) : (s.restage r).inflight = s.inflight := rfl
@[simp] theorem State.restage_nextSequence (r : RangeId) : (s.restage r).nextSequence = s.nextSequence := rfl
@[simp] theorem State.restage_lanes (r : RangeId) : (s.restage r).lanes = s.lanes := rfl
@[simp] theorem State.restage_laneWindow (r : RangeId) : (s.restage r).laneWindow = s.laneWindow := rfl
@[simp] theorem State.restage_lastGranted (r : RangeId) : (s.restage r).lastGranted = s.lastGranted := rfl
@[simp] theorem State.restage_openAt (r : RangeId) : (s.restage r).openAt = s.openAt := rfl
@[simp] theorem State.restage_authority (r : RangeId) : (s.restage r).authority = s.authority := rfl
@[simp] theorem State.restage_authTimer (r : RangeId) : (s.restage r).authTimer = s.authTimer := rfl
@[simp] theorem State.restage_derivations (r : RangeId) : (s.restage r).derivations = s.derivations := rfl
@[simp] theorem State.restage_binding (r : RangeId) : (s.restage r).binding = s.binding := rfl
@[simp] theorem State.restage_trigger (r : RangeId) : (s.restage r).trigger = s.trigger := rfl
@[simp] theorem State.restage_wipe (r : RangeId) : (s.restage r).wipe = s.wipe := rfl
@[simp] theorem State.restage_events (r : RangeId) : (s.restage r).events = s.events := rfl
@[simp] theorem State.restage_executor (r : RangeId) : (s.restage r).executor = s.executor := rfl
@[simp] theorem State.restage_clock (r : RangeId) : (s.restage r).clock = s.clock := rfl
@[simp] theorem State.restage_entropy (r : RangeId) : (s.restage r).entropy = s.entropy := rfl
@[simp] theorem State.restage_sent (r : RangeId) : (s.restage r).sent = s.sent := rfl
@[simp] theorem State.restage_pending (r : RangeId) : (s.restage r).pending = s.pending := rfl

/-! ### startJob -/

@[simp] theorem State.startJob_power (j : Job) (g : JobStage) : (s.startJob j g).power = s.power := rfl
@[simp] theorem State.startJob_store (j : Job) (g : JobStage) : (s.startJob j g).store = s.store := rfl
@[simp] theorem State.startJob_table (j : Job) (g : JobStage) : (s.startJob j g).table = s.table := rfl
@[simp] theorem State.startJob_shadow (j : Job) (g : JobStage) : (s.startJob j g).shadow = s.shadow := rfl
@[simp] theorem State.startJob_staging (j : Job) (g : JobStage) : (s.startJob j g).staging = s.staging := rfl
@[simp] theorem State.startJob_cache (j : Job) (g : JobStage) : (s.startJob j g).cache = s.cache := rfl
@[simp] theorem State.startJob_shadowEntry (j : Job) (g : JobStage) : (s.startJob j g).shadowEntry = s.shadowEntry := rfl
@[simp] theorem State.startJob_inflight (j : Job) (g : JobStage) : (s.startJob j g).inflight = s.inflight := rfl
@[simp] theorem State.startJob_nextSequence (j : Job) (g : JobStage) : (s.startJob j g).nextSequence = s.nextSequence := rfl
@[simp] theorem State.startJob_lanes (j : Job) (g : JobStage) : (s.startJob j g).lanes = s.lanes := rfl
@[simp] theorem State.startJob_laneWindow (j : Job) (g : JobStage) : (s.startJob j g).laneWindow = s.laneWindow := rfl
@[simp] theorem State.startJob_lastGranted (j : Job) (g : JobStage) : (s.startJob j g).lastGranted = s.lastGranted := rfl
@[simp] theorem State.startJob_openAt (j : Job) (g : JobStage) : (s.startJob j g).openAt = s.openAt := rfl
@[simp] theorem State.startJob_authority (j : Job) (g : JobStage) : (s.startJob j g).authority = s.authority := rfl
@[simp] theorem State.startJob_authTimer (j : Job) (g : JobStage) : (s.startJob j g).authTimer = s.authTimer := rfl
@[simp] theorem State.startJob_derivations (j : Job) (g : JobStage) : (s.startJob j g).derivations = s.derivations := rfl
@[simp] theorem State.startJob_binding (j : Job) (g : JobStage) : (s.startJob j g).binding = s.binding := rfl
@[simp] theorem State.startJob_trigger (j : Job) (g : JobStage) : (s.startJob j g).trigger = s.trigger := rfl
@[simp] theorem State.startJob_wipe (j : Job) (g : JobStage) : (s.startJob j g).wipe = s.wipe := rfl
@[simp] theorem State.startJob_events (j : Job) (g : JobStage) : (s.startJob j g).events = s.events := rfl
@[simp] theorem State.startJob_executor (j : Job) (g : JobStage) : (s.startJob j g).executor = { s.executor with job := j, stage := g } := rfl
@[simp] theorem State.startJob_clock (j : Job) (g : JobStage) : (s.startJob j g).clock = s.clock := rfl
@[simp] theorem State.startJob_entropy (j : Job) (g : JobStage) : (s.startJob j g).entropy = s.entropy := rfl
@[simp] theorem State.startJob_sent (j : Job) (g : JobStage) : (s.startJob j g).sent = s.sent := rfl
@[simp] theorem State.startJob_pending (j : Job) (g : JobStage) : (s.startJob j g).pending = s.pending := rfl

/-! ### freeAbandoned -/

@[simp] theorem State.freeAbandoned_power : (s.freeAbandoned).power = s.power := rfl
@[simp] theorem State.freeAbandoned_store : (s.freeAbandoned).store = s.store := rfl
@[simp] theorem State.freeAbandoned_table : (s.freeAbandoned).table = s.table := rfl
@[simp] theorem State.freeAbandoned_shadow : (s.freeAbandoned).shadow = s.shadow := rfl
@[simp] theorem State.freeAbandoned_staging : (s.freeAbandoned).staging = s.staging := rfl
@[simp] theorem State.freeAbandoned_cache : (s.freeAbandoned).cache = s.cache := rfl
@[simp] theorem State.freeAbandoned_shadowEntry : (s.freeAbandoned).shadowEntry = s.shadowEntry := rfl
@[simp] theorem State.freeAbandoned_inflight : (s.freeAbandoned).inflight = s.inflight := rfl
@[simp] theorem State.freeAbandoned_nextSequence : (s.freeAbandoned).nextSequence = s.nextSequence := rfl
@[simp] theorem State.freeAbandoned_lanes : (s.freeAbandoned).lanes = s.lanes := rfl
@[simp] theorem State.freeAbandoned_laneWindow : (s.freeAbandoned).laneWindow = s.laneWindow := rfl
@[simp] theorem State.freeAbandoned_lastGranted : (s.freeAbandoned).lastGranted = s.lastGranted := rfl
@[simp] theorem State.freeAbandoned_openAt : (s.freeAbandoned).openAt = s.openAt := rfl
@[simp] theorem State.freeAbandoned_authority : (s.freeAbandoned).authority = s.authority := rfl
@[simp] theorem State.freeAbandoned_authTimer : (s.freeAbandoned).authTimer = s.authTimer := rfl
@[simp] theorem State.freeAbandoned_derivations : (s.freeAbandoned).derivations = s.derivations := rfl
@[simp] theorem State.freeAbandoned_binding : (s.freeAbandoned).binding = s.binding := rfl
@[simp] theorem State.freeAbandoned_trigger : (s.freeAbandoned).trigger = s.trigger := rfl
@[simp] theorem State.freeAbandoned_wipe : (s.freeAbandoned).wipe = s.wipe := rfl
@[simp] theorem State.freeAbandoned_events : (s.freeAbandoned).events = s.events := rfl
@[simp] theorem State.freeAbandoned_executor : (s.freeAbandoned).executor = freeExecutor := rfl
@[simp] theorem State.freeAbandoned_clock : (s.freeAbandoned).clock = s.clock := rfl
@[simp] theorem State.freeAbandoned_entropy : (s.freeAbandoned).entropy = s.entropy := rfl
@[simp] theorem State.freeAbandoned_sent : (s.freeAbandoned).sent = s.sent := rfl
@[simp] theorem State.freeAbandoned_pending : (s.freeAbandoned).pending = s.pending := rfl

/-! ### markAbandoned -/

@[simp] theorem State.markAbandoned_power : (s.markAbandoned).power = s.power := rfl
@[simp] theorem State.markAbandoned_store : (s.markAbandoned).store = s.store := rfl
@[simp] theorem State.markAbandoned_table : (s.markAbandoned).table = s.table := rfl
@[simp] theorem State.markAbandoned_shadow : (s.markAbandoned).shadow = s.shadow := rfl
@[simp] theorem State.markAbandoned_staging : (s.markAbandoned).staging = s.staging := rfl
@[simp] theorem State.markAbandoned_cache : (s.markAbandoned).cache = s.cache := rfl
@[simp] theorem State.markAbandoned_shadowEntry : (s.markAbandoned).shadowEntry = s.shadowEntry := rfl
@[simp] theorem State.markAbandoned_inflight : (s.markAbandoned).inflight = s.inflight := rfl
@[simp] theorem State.markAbandoned_nextSequence : (s.markAbandoned).nextSequence = s.nextSequence := rfl
@[simp] theorem State.markAbandoned_lanes : (s.markAbandoned).lanes = s.lanes := rfl
@[simp] theorem State.markAbandoned_laneWindow : (s.markAbandoned).laneWindow = s.laneWindow := rfl
@[simp] theorem State.markAbandoned_lastGranted : (s.markAbandoned).lastGranted = s.lastGranted := rfl
@[simp] theorem State.markAbandoned_openAt : (s.markAbandoned).openAt = s.openAt := rfl
@[simp] theorem State.markAbandoned_authority : (s.markAbandoned).authority = s.authority := rfl
@[simp] theorem State.markAbandoned_authTimer : (s.markAbandoned).authTimer = s.authTimer := rfl
@[simp] theorem State.markAbandoned_derivations : (s.markAbandoned).derivations = s.derivations := rfl
@[simp] theorem State.markAbandoned_binding : (s.markAbandoned).binding = s.binding := rfl
@[simp] theorem State.markAbandoned_trigger : (s.markAbandoned).trigger = s.trigger := rfl
@[simp] theorem State.markAbandoned_wipe : (s.markAbandoned).wipe = s.wipe := rfl
@[simp] theorem State.markAbandoned_events : (s.markAbandoned).events = s.events := rfl
@[simp] theorem State.markAbandoned_executor : (s.markAbandoned).executor = { s.executor with status := .abandoned } := rfl
@[simp] theorem State.markAbandoned_clock : (s.markAbandoned).clock = s.clock := rfl
@[simp] theorem State.markAbandoned_entropy : (s.markAbandoned).entropy = s.entropy := rfl
@[simp] theorem State.markAbandoned_sent : (s.markAbandoned).sent = s.sent := rfl
@[simp] theorem State.markAbandoned_pending : (s.markAbandoned).pending = s.pending := rfl

/-! ### dropDerivation -/

@[simp] theorem State.dropDerivation_power : (s.dropDerivation).power = s.power := rfl
@[simp] theorem State.dropDerivation_store : (s.dropDerivation).store = s.store := rfl
@[simp] theorem State.dropDerivation_table : (s.dropDerivation).table = s.table := rfl
@[simp] theorem State.dropDerivation_shadow : (s.dropDerivation).shadow = s.shadow := rfl
@[simp] theorem State.dropDerivation_staging : (s.dropDerivation).staging = s.staging := rfl
@[simp] theorem State.dropDerivation_cache : (s.dropDerivation).cache = s.cache := rfl
@[simp] theorem State.dropDerivation_shadowEntry : (s.dropDerivation).shadowEntry = s.shadowEntry := rfl
@[simp] theorem State.dropDerivation_inflight : (s.dropDerivation).inflight = s.inflight := rfl
@[simp] theorem State.dropDerivation_nextSequence : (s.dropDerivation).nextSequence = s.nextSequence := rfl
@[simp] theorem State.dropDerivation_lanes : (s.dropDerivation).lanes = s.lanes := rfl
@[simp] theorem State.dropDerivation_laneWindow : (s.dropDerivation).laneWindow = s.laneWindow := rfl
@[simp] theorem State.dropDerivation_lastGranted : (s.dropDerivation).lastGranted = s.lastGranted := rfl
@[simp] theorem State.dropDerivation_openAt : (s.dropDerivation).openAt = s.openAt := rfl
@[simp] theorem State.dropDerivation_authority : (s.dropDerivation).authority = s.authority := rfl
@[simp] theorem State.dropDerivation_authTimer : (s.dropDerivation).authTimer = s.authTimer := rfl
@[simp] theorem State.dropDerivation_derivations : (s.dropDerivation).derivations = s.derivations.filter (fun d => d ≠ .executor) := rfl
@[simp] theorem State.dropDerivation_binding : (s.dropDerivation).binding = s.binding := rfl
@[simp] theorem State.dropDerivation_trigger : (s.dropDerivation).trigger = s.trigger := rfl
@[simp] theorem State.dropDerivation_wipe : (s.dropDerivation).wipe = s.wipe := rfl
@[simp] theorem State.dropDerivation_events : (s.dropDerivation).events = s.events := rfl
@[simp] theorem State.dropDerivation_executor : (s.dropDerivation).executor = s.executor := rfl
@[simp] theorem State.dropDerivation_clock : (s.dropDerivation).clock = s.clock := rfl
@[simp] theorem State.dropDerivation_entropy : (s.dropDerivation).entropy = s.entropy := rfl
@[simp] theorem State.dropDerivation_sent : (s.dropDerivation).sent = s.sent := rfl
@[simp] theorem State.dropDerivation_pending : (s.dropDerivation).pending = s.pending := rfl

/-! ### endAuthority -/

@[simp] theorem State.endAuthority_power : s.endAuthority.power = s.power := rfl
@[simp] theorem State.endAuthority_store : s.endAuthority.store = s.store := rfl
@[simp] theorem State.endAuthority_table : s.endAuthority.table = s.table := rfl
@[simp] theorem State.endAuthority_shadow : s.endAuthority.shadow = s.shadow := rfl
@[simp] theorem State.endAuthority_staging : s.endAuthority.staging = s.staging := rfl
@[simp] theorem State.endAuthority_cache : s.endAuthority.cache = s.cache := rfl
@[simp] theorem State.endAuthority_shadowEntry : s.endAuthority.shadowEntry = s.shadowEntry := rfl
@[simp] theorem State.endAuthority_inflight : s.endAuthority.inflight = s.inflight := rfl
@[simp] theorem State.endAuthority_nextSequence : s.endAuthority.nextSequence = s.nextSequence := rfl
@[simp] theorem State.endAuthority_lanes : s.endAuthority.lanes = s.lanes := rfl
@[simp] theorem State.endAuthority_laneWindow : s.endAuthority.laneWindow = s.laneWindow := rfl
@[simp] theorem State.endAuthority_lastGranted : s.endAuthority.lastGranted = s.lastGranted := rfl
@[simp] theorem State.endAuthority_openAt : s.endAuthority.openAt = s.openAt := rfl
@[simp] theorem State.endAuthority_authority : s.endAuthority.authority = none := rfl
@[simp] theorem State.endAuthority_authTimer : s.endAuthority.authTimer = none := rfl
@[simp] theorem State.endAuthority_derivations : s.endAuthority.derivations = s.derivations := rfl
@[simp] theorem State.endAuthority_binding : s.endAuthority.binding = s.binding := rfl
@[simp] theorem State.endAuthority_trigger : s.endAuthority.trigger = s.trigger := rfl
@[simp] theorem State.endAuthority_wipe : s.endAuthority.wipe = s.wipe := rfl
@[simp] theorem State.endAuthority_events : s.endAuthority.events = s.events := rfl
@[simp] theorem State.endAuthority_executor : s.endAuthority.executor = s.executor := rfl
@[simp] theorem State.endAuthority_clock : s.endAuthority.clock = s.clock := rfl
@[simp] theorem State.endAuthority_entropy : s.endAuthority.entropy = s.entropy := rfl
@[simp] theorem State.endAuthority_sent : s.endAuthority.sent = s.sent := rfl
@[simp] theorem State.endAuthority_pending : s.endAuthority.pending = s.pending := rfl

/-! ### setKey -/

@[simp] theorem State.setKey_power (o : Owner) (k : KeyEntry) : (s.setKey o k).power = s.power := by cases o <;> rfl
@[simp] theorem State.setKey_store (o : Owner) (k : KeyEntry) : (s.setKey o k).store = s.store := by cases o <;> rfl
@[simp] theorem State.setKey_table (o : Owner) (k : KeyEntry) : (s.setKey o k).table = s.table := by cases o <;> rfl
@[simp] theorem State.setKey_shadow (o : Owner) (k : KeyEntry) : (s.setKey o k).shadow = s.shadow := by cases o <;> rfl
@[simp] theorem State.setKey_staging (o : Owner) (k : KeyEntry) : (s.setKey o k).staging = s.staging := by cases o <;> rfl
@[simp] theorem State.setKey_inflight (o : Owner) (k : KeyEntry) : (s.setKey o k).inflight = s.inflight := by cases o <;> rfl
@[simp] theorem State.setKey_nextSequence (o : Owner) (k : KeyEntry) : (s.setKey o k).nextSequence = s.nextSequence := by cases o <;> rfl
@[simp] theorem State.setKey_lanes (o : Owner) (k : KeyEntry) : (s.setKey o k).lanes = s.lanes := by cases o <;> rfl
@[simp] theorem State.setKey_laneWindow (o : Owner) (k : KeyEntry) : (s.setKey o k).laneWindow = s.laneWindow := by cases o <;> rfl
@[simp] theorem State.setKey_lastGranted (o : Owner) (k : KeyEntry) : (s.setKey o k).lastGranted = s.lastGranted := by cases o <;> rfl
@[simp] theorem State.setKey_openAt (o : Owner) (k : KeyEntry) : (s.setKey o k).openAt = s.openAt := by cases o <;> rfl
@[simp] theorem State.setKey_authority (o : Owner) (k : KeyEntry) : (s.setKey o k).authority = s.authority := by cases o <;> rfl
@[simp] theorem State.setKey_authTimer (o : Owner) (k : KeyEntry) : (s.setKey o k).authTimer = s.authTimer := by cases o <;> rfl
@[simp] theorem State.setKey_derivations (o : Owner) (k : KeyEntry) : (s.setKey o k).derivations = s.derivations := by cases o <;> rfl
@[simp] theorem State.setKey_binding (o : Owner) (k : KeyEntry) : (s.setKey o k).binding = s.binding := by cases o <;> rfl
@[simp] theorem State.setKey_trigger (o : Owner) (k : KeyEntry) : (s.setKey o k).trigger = s.trigger := by cases o <;> rfl
@[simp] theorem State.setKey_wipe (o : Owner) (k : KeyEntry) : (s.setKey o k).wipe = s.wipe := by cases o <;> rfl
@[simp] theorem State.setKey_events (o : Owner) (k : KeyEntry) : (s.setKey o k).events = s.events := by cases o <;> rfl
@[simp] theorem State.setKey_executor (o : Owner) (k : KeyEntry) : (s.setKey o k).executor = s.executor := by cases o <;> rfl
@[simp] theorem State.setKey_clock (o : Owner) (k : KeyEntry) : (s.setKey o k).clock = s.clock := by cases o <;> rfl
@[simp] theorem State.setKey_entropy (o : Owner) (k : KeyEntry) : (s.setKey o k).entropy = s.entropy := by cases o <;> rfl
@[simp] theorem State.setKey_sent (o : Owner) (k : KeyEntry) : (s.setKey o k).sent = s.sent := by cases o <;> rfl
@[simp] theorem State.setKey_pending (o : Owner) (k : KeyEntry) : (s.setKey o k).pending = s.pending := by cases o <;> rfl

/-- Writing an owner's Key Cache entry and reading it back. -/
@[simp] theorem State.key_setKey_same (o : Owner) (k : KeyEntry) : (s.setKey o k).key o = k := by
  cases o <;> simp [State.setKey, State.key]

/-- Writing one owner's entry leaves every other owner's. -/
theorem State.key_setKey_other {o p : Owner} (k : KeyEntry) (h : p ≠ o) : (s.setKey o k).key p = s.key p := by
  cases o with
  | shadow => cases p with
    | shadow => exact absurd rfl h
    | range q => rfl
  | range r => cases p with
    | shadow => rfl
    | range q =>
      have hv : r.val ≠ q.val := fun e => h (by rw [Fin.ext e])
      simp [State.setKey, State.key, Vector.getElem_set_ne, hv]

/-- A range entry that was written reads back. -/
@[simp] theorem State.modRange_same (r : RangeId) (f : RangeLive → RangeLive) : (s.modRange r f).table[r] = f s.table[r] := by
  simp [State.modRange]

/-- Writing one range entry leaves the others. -/
theorem State.modRange_other {r q : RangeId} (f : RangeLive → RangeLive) (h : q ≠ r) : (s.modRange r f).table[q] = s.table[q] := by
  have hv : r.val ≠ q.val := fun e => h (by rw [Fin.ext e])
  simp [State.modRange, Vector.getElem_set_ne, hv]

end Sys2Proof.Machine
end

