-- ==== Sys2Proof/Laws/Settle.lean ====
section
/-! SUPPORT. Laws/Settle.lean: once for all what the consequences of an event (`settle`) leave alone, operation by operation. -/

namespace Sys2Proof.Machine

/-- Nothing but what `settle` may touch differs between two states: the queue of the store may grow or begin to be written, but no copy
of a cell changes; the Trigger Unit keeps all but its idle timer; an event kind may become pending but none ceases to be. -/
structure Kept (s t : State) : Prop where
  clock : t.clock = s.clock
  pending : t.pending = s.pending
  openAt : t.openAt = s.openAt
  staging : t.staging = s.staging
  nextSequence : t.nextSequence = s.nextSequence
  laneWindow : t.laneWindow = s.laneWindow
  trigger : { t.trigger with idle := s.trigger.idle } = s.trigger
  events : { t.events with pending := s.events.pending, alert := s.events.alert } = s.events
  raised : ∀ k ∈ s.events.pending, k ∈ t.events.pending
  powered : t.power.powered = s.power.powered
  stage : t.power.stage = s.power.stage
  restarting : t.power.restarting = s.power.restarting
  cause : t.power.cause = s.power.cause
  rollbackFound : t.power.rollbackFound = s.power.rollbackFound
  attemptCharged : t.power.attemptCharged = s.power.attemptCharged
  slp : t.power.slp = s.power.slp
  cells : { t.store with queue := s.store.queue, writing := s.store.writing, held := s.store.held } = s.store

theorem Kept.refl (s : State) : Kept s s := by constructor <;> first | rfl | exact fun _ h => h

theorem Kept.trans {a b c : State} (h : Kept a b) (g : Kept b c) : Kept a c where
  clock := g.clock.trans h.clock
  pending := g.pending.trans h.pending
  openAt := g.openAt.trans h.openAt
  staging := g.staging.trans h.staging
  nextSequence := g.nextSequence.trans h.nextSequence
  laneWindow := g.laneWindow.trans h.laneWindow
  trigger := by rw [← h.trigger, ← g.trigger]
  events := by rw [← h.events, ← g.events]
  raised := fun k hk => g.raised k (h.raised k hk)
  powered := g.powered.trans h.powered
  stage := g.stage.trans h.stage
  restarting := g.restarting.trans h.restarting
  cause := g.cause.trans h.cause
  rollbackFound := g.rollbackFound.trans h.rollbackFound
  attemptCharged := g.attemptCharged.trans h.attemptCharged
  slp := g.slp.trans h.slp
  cells := by rw [← h.cells, ← g.cells]

/-- An update that none of the kept fields sees. -/
theorem Kept.of_eq {s t : State} (clock : t.clock = s.clock) (pending : t.pending = s.pending) (openAt : t.openAt = s.openAt)
    (staging : t.staging = s.staging) (nextSequence : t.nextSequence = s.nextSequence) (laneWindow : t.laneWindow = s.laneWindow)
    (trigger : t.trigger = s.trigger) (events : t.events = s.events) (power : t.power = s.power) (store : t.store = s.store) :
    Kept s t := by
  constructor <;> simp_all

theorem Kept.forEach {α : Type} (f : α → State → State) (h : ∀ a s, Kept s (f a s)) :
    ∀ (l : List α) (s : State), Kept s (forEach l f s)
  | [], s => Kept.refl s
  | a :: l, s => (h a s).trans (Kept.forEach f h l (f a s))

/-! ### Updates -/

theorem kept_say (s : State) (m : Sent) : Kept s (s.say m) := by constructor <;> first | rfl | exact fun _ h => h
theorem kept_draw (s : State) : Kept s s.draw.2 := by constructor <;> first | rfl | exact fun _ h => h
theorem kept_setLane (s : State) (l : LaneId) (x : Lane) : Kept s (s.setLane l x) := by
  constructor <;> first | rfl | exact fun _ h => h
theorem kept_setTransfer (s : State) (t : Tag) (x : Option Transfer) : Kept s (s.setTransfer t x) := by
  constructor <;> first | rfl | exact fun _ h => h
theorem kept_setKey (s : State) (o : Owner) (k : KeyEntry) : Kept s (s.setKey o k) := by
  cases o <;> constructor <;> first | rfl | exact fun _ h => h
theorem kept_modKey (s : State) (o : Owner) (f : KeyEntry → KeyEntry) : Kept s (s.modKey o f) := kept_setKey s o _
theorem kept_modRange (s : State) (r : RangeId) (f : RangeLive → RangeLive) : Kept s (s.modRange r f) := by
  constructor <;> first | rfl | exact fun _ h => h
theorem kept_setBinding (s : State) (b : Binding) : Kept s (s.setBinding b) := by
  constructor <;> first | rfl | exact fun _ h => h
theorem kept_setWipe (s : State) (w : Wipe) : Kept s (s.setWipe w) := by constructor <;> first | rfl | exact fun _ h => h
theorem kept_executor (s : State) (e : Executor) : Kept s { s with executor := e } := by
  constructor <;> first | rfl | exact fun _ h => h
theorem kept_lastGranted (s : State) (x : ArbiterSide) : Kept s { s with lastGranted := x } := by
  constructor <;> first | rfl | exact fun _ h => h
theorem kept_endAuthority (s : State) : Kept s s.endAuthority := by constructor <;> first | rfl | exact fun _ h => h
theorem kept_drainKey (s : State) (o : Owner) : Kept s (s.drainKey o) := kept_modKey s o _

theorem mem_insertNew {α : Type} [DecidableEq α] (x y : α) (l : List α) (h : y ∈ l) : y ∈ insertNew x l := by
  unfold insertNew; split
  · exact h
  · exact List.mem_append_left _ h

theorem allEvents_mem (k : EventKind) : k ∈ allEvents := by cases k <;> decide

/-- A set with a kind added holds that kind and what it held (R173). -/
@[simp] theorem mem_withEvent (k x : EventKind) (l : List EventKind) : x ∈ withEvent k l ↔ x = k ∨ x ∈ l := by
  simp [withEvent, allEvents_mem]

/-- A set with a trigger added holds that trigger and what it held (R113). -/
@[simp] theorem mem_withTrigger (t x : Trigger) (l : List Trigger) : x ∈ withTrigger t l ↔ x = t ∨ x ∈ l := by
  cases x <;> simp [withTrigger]

theorem kept_raise (s : State) (k : EventKind) : Kept s (s.raise k) := by
  constructor <;> first | rfl | exact fun _ h => (mem_withEvent _ _ _).mpr (.inr h)

/-! ### The store -/

/-- What a submission leaves alone: every copy, and all but the queue, the writing group and the held groups (R78). -/
theorem Store.submit_cells (st : Store) (g : Group) :
    { st.submit g with queue := st.queue, writing := st.writing, held := st.held } = st := by
  unfold Store.submit Store.beginNext
  split
  · rfl
  · dsimp only
    split <;> rfl

theorem kept_submit (s : State) (g : Group) : Kept s (s.submit g) := by
  unfold State.submit; split
  · constructor <;> first | rfl | exact fun _ h => h | exact Store.submit_cells _ _
  · exact Kept.refl s

theorem kept_submitPlan (s : State) (p : WipePlan) (o : List Record) (e : List Effect) (b : Bool) : Kept s (s.submitPlan p o e b) :=
  (kept_setWipe s _).trans (kept_submit _ _)

/-! ### Replies and the request executor -/

theorem kept_reply (s : State) (c : Code) (p : Payload) : Kept s (s.reply c p) := by
  unfold State.reply; split
  · constructor <;> first | rfl | exact fun _ h => h
  · exact kept_executor s _
  · exact Kept.refl s

theorem kept_drainIfClosed (s : State) (r : RangeId) : Kept s (s.drainIfClosed r) := by
  unfold State.drainIfClosed; split
  · exact kept_drainKey s _
  · exact Kept.refl s

theorem kept_revertCommit (s : State) (c : Commit) : Kept s (s.revertCommit c) := by
  refine Kept.forEach _ (fun p s => ?_) _ s
  split
  · exact (kept_modRange s _ _).trans (kept_drainIfClosed _ _)
  · exact Kept.refl s

theorem kept_endCommit (s : State) (c : Code) (p : Payload) : Kept s (s.endCommit c p) := by
  unfold State.endCommit; split
  · exact (kept_revertCommit s _).trans (kept_reply _ _ _)
  · exact Kept.refl s

theorem kept_refuseJob (s : State) : Kept s s.refuseJob := by
  unfold State.refuseJob; split
  · exact kept_endCommit s _ _
  · exact (kept_setBinding s _).trans (kept_reply _ _ _)
  · exact kept_reply s _ _

theorem kept_drawKeys (l : List RangeId) (s : State) : Kept s (State.drawKeys l s).2 := by
  induction l generalizing s with
  | nil => exact Kept.refl s
  | cons r rest ih => exact (kept_draw s).trans (ih _)

theorem kept_prepareJob (s : State) : Kept s s.prepareJob := by
  unfold State.prepareJob; split
  · exact (kept_drawKeys _ s).trans (kept_executor _ _)
  · exact Kept.refl s

theorem kept_submitJob (s : State) : Kept s s.submitJob :=
  ((kept_prepareJob s).trans (kept_executor _ _)).trans (kept_submit _ _)

theorem kept_advanceExecutor (s : State) : Kept s s.advanceExecutor := by
  unfold State.advanceExecutor; split
  · exact Kept.refl s
  · split
    · exact kept_refuseJob s
    · split
      · exact Kept.refl s
      · split
        · exact kept_reply s _ _
        · exact kept_submitJob s

theorem kept_endDrainWait (s : State) : Kept s s.endDrainWait := by
  unfold State.endDrainWait; split
  · split
    · exact kept_executor s _
    · exact Kept.refl s
  · exact Kept.refl s

theorem kept_sendPage (s : State) (k : PageKind) (m : Bool) (i : Nat) (p : Word16) (e : Exchange) : Kept s (s.sendPage k m i p e) :=
  (kept_setBinding s _).trans (kept_say _ _)

theorem kept_startEnrolment (s : State) : Kept s s.startEnrolment :=
  (((kept_draw s).trans (kept_setBinding _ _)).trans (kept_setBinding _ _)).trans (kept_sendPage _ _ _ _ _ _)

theorem kept_advanceEnrolment (s : State) : Kept s s.advanceEnrolment := by
  unfold State.advanceEnrolment; split
  · split
    · exact kept_startEnrolment s
    · exact Kept.refl s
  · exact Kept.refl s

/-! ### The Wipe Engine and the lanes -/

theorem kept_stepSent (s : State) : Kept s s.stepSent := kept_setWipe s _

theorem kept_finishOverwrite (s : State) (t : Owner) : Kept s (s.finishOverwrite t) :=
  ((kept_setWipe s _).trans (kept_submitPlan _ _ _ _ _)).trans (kept_stepSent _)

theorem kept_startFinal (s : State) : Kept s s.startFinal := by
  constructor <;> first | rfl | exact fun _ h => h

theorem kept_submitFinal (s : State) (x : Word32) : Kept s (s.submitFinal x) :=
  (((kept_draw s).trans (kept_draw _)).trans (kept_setWipe _ _)).trans (kept_submit _ _)

theorem kept_advanceWipe (s : State) : Kept s s.advanceWipe := by
  have started : Kept s (if s.finalDue then s.startFinal else s) := by
    split
    · exact kept_startFinal s
    · exact Kept.refl s
  unfold State.advanceWipe; split
  · exact Kept.refl s
  · dsimp only
    generalize (if s.finalDue then s.startFinal else s) = u at started
    refine started.trans ?_
    split
    · split
      · exact Kept.refl _
      · exact kept_submitFinal _ _
    · split
      · split
        · exact kept_finishOverwrite _ _
        · exact Kept.refl _
      · exact Kept.refl _

theorem kept_issueBlock (s : State) (l : LaneId) (x : Transfer) (g : Segment) (n : Nat) : Kept s (s.issueBlock l x g n) := by
  unfold State.issueBlock; dsimp only; split
  · exact (kept_setLane s _ _).trans (kept_say _ _)
  · exact ((kept_setLane s _ _).trans (kept_draw _)).trans (kept_say _ _)

theorem kept_issueOne (s : State) (l : LaneId) : Kept s (s.issueOne l) := by
  unfold State.issueOne; split
  · split
    · split
      · split
        · exact kept_issueBlock s _ _ _ _
        · exact Kept.refl s
      · exact Kept.refl s
    · exact Kept.refl s
  · exact Kept.refl s

theorem kept_fillLane (s : State) (l : LaneId) : Kept s (s.fillLane l) := Kept.forEach _ (fun _ s => kept_issueOne s l) _ s

theorem kept_issueOverwrite (s : State) (l : LaneId) : Kept s (s.issueOverwrite l) := by
  unfold State.issueOverwrite; split
  · dsimp only; split
    · exact (kept_setLane s _ _).trans (kept_say _ _)
    · exact Kept.refl s
  · exact Kept.refl s

theorem kept_fillOverwrite (s : State) (l : LaneId) : Kept s (s.fillOverwrite l) :=
  Kept.forEach _ (fun _ s => kept_issueOverwrite s l) _ s

theorem kept_grantTransfer (s : State) (l : LaneId) (t : Tag) (i : Nat) : Kept s (s.grantTransfer l t i) := by
  unfold State.grantTransfer; split
  · exact Kept.refl s
  · exact (((kept_setTransfer s _ _).trans (kept_setLane _ _ _)).trans (kept_lastGranted _ _)).trans (kept_fillLane _ _)

theorem kept_grantWipe (s : State) (l : LaneId) : Kept s (s.grantWipe l) := by
  unfold State.grantWipe; split
  · exact kept_setWipe s _
  · split
    · exact Kept.refl s
    · exact (((kept_setWipe s _).trans (kept_setLane _ _ _)).trans (kept_lastGranted _ _)).trans (kept_fillOverwrite _ _)

theorem kept_grantLane (s : State) (l : LaneId) : Kept s (s.grantLane l) := by
  unfold State.grantLane; split
  · exact Kept.refl s
  · split
    · split
      · exact kept_grantWipe s _
      · exact kept_grantTransfer s _ _ _
    · split
      · exact kept_grantWipe s _
      · exact Kept.refl s

theorem kept_grantLanes (s : State) : Kept s s.grantLanes := Kept.forEach _ (fun l s => kept_grantLane s l) _ s

/-! ### Sleep -/

theorem kept_enterSleep (s : State) : Kept s s.enterSleep := by constructor <;> first | rfl | exact fun _ h => h

theorem kept_closeRange (s : State) (r : RangeId) : Kept s (s.closeRange r) := kept_modRange s _ _

theorem kept_dropRange (s : State) (r : RangeId) : Kept s (s.dropRange r) := by
  unfold State.dropRange; split
  · dsimp only; split
    · exact (kept_closeRange s _).trans (kept_drainKey _ _)
    · exact kept_closeRange s _
  · exact Kept.refl s

theorem kept_sleepDropAll (s : State) : Kept s s.sleepDropAll := Kept.forEach _ (fun r s => kept_dropRange s r) _ s

theorem kept_relocked (s : State) (b : Bool) : Kept s { s with power := { s.power with relocked := b } } := by
  constructor <;> first | rfl | exact fun _ h => h

theorem kept_noteRelocked (f : State → State) (h : ∀ s, Kept s (f s)) (s : State) : Kept s (noteRelocked f s) := by
  unfold noteRelocked; dsimp only; split
  · exact (h s).trans (kept_relocked _ _)
  · exact h s

theorem kept_drained (s : State) (b : Bool) : Kept s { s with power := { s.power with drained := b } } := by
  constructor <;> first | rfl | exact fun _ h => h

theorem kept_applySleepDrop (s : State) : Kept s s.applySleepDrop :=
  (kept_noteRelocked _ kept_sleepDropAll s).trans (kept_drained _ _)

theorem kept_part (s : State) (p : PartState) : Kept s { s with power := { s.power with part := p } } := by
  constructor <;> first | rfl | exact fun _ h => h

theorem kept_abandonCheck (s : State) : Kept s s.abandonCheck := by
  unfold State.abandonCheck; split <;> exact kept_setBinding s _

theorem kept_goAsleep (s : State) : Kept s s.goAsleep :=
  ((kept_raise s _).trans (kept_part _ _)).trans (kept_abandonCheck _)

theorem kept_advanceSleep (s : State) : Kept s s.advanceSleep := by
  have step : ∀ (b : Bool) (f : State → State), (∀ s, Kept s (f s)) → ∀ s, Kept s (if b then f s else s) := by
    intro b f h s; split
    · exact h s
    · exact Kept.refl s
  exact ((step _ _ kept_enterSleep s).trans (step _ _ kept_applySleepDrop _)).trans (step _ _ kept_goAsleep _)

/-! ### Timers and the whole -/

theorem kept_idle (s : State) (x : IdleTimer) : Kept s { s with trigger := { s.trigger with idle := x } } := by
  constructor <;> first | rfl | exact fun _ h => h

theorem kept_tendIdle (s : State) : Kept s s.tendIdle := by
  unfold State.tendIdle; split
  · split
    · exact kept_idle s _
    · exact Kept.refl s
    · exact Kept.refl s
  · exact kept_idle s _

theorem kept_tendRecheck (s : State) : Kept s s.tendRecheck := by
  unfold State.tendRecheck; split
  · split
    · exact kept_setBinding s _
    · exact Kept.refl s
  · exact kept_setBinding s _

theorem kept_authTimer (s : State) (x : Option Nat) : Kept s { s with authTimer := x } := by
  constructor <;> first | rfl | exact fun _ h => h

theorem kept_tendAuthority (s : State) : Kept s s.tendAuthority := by
  unfold State.tendAuthority; split
  · split
    · exact kept_authTimer s _
    · exact Kept.refl s
  · exact kept_authTimer s _

theorem kept_settleAlert (s : State) : Kept s (settleAlert s) := by constructor <;> first | rfl | exact fun _ h => h

/-- The level `settleAlert` sets is the one the sets call for (R177). -/
theorem settleAlert_level (s : State) : (settleAlert s).events.alert = (settleAlert s).events.alertDue := rfl

/-- Everything that falls in the same event as a change leaves these fields alone. -/
theorem kept_settle (s : State) : Kept s (settle s) := by
  unfold settle; dsimp only
  exact ((((((((((kept_endDrainWait s).trans (kept_advanceEnrolment _)).trans (kept_advanceExecutor _)).trans (kept_advanceWipe _)).trans
    (kept_grantLanes _)).trans (kept_advanceSleep _)).trans (kept_advanceWipe _)).trans (kept_tendIdle _)).trans
    (kept_tendRecheck _)).trans (kept_tendAuthority _)).trans (kept_settleAlert _)

/-- After `settle` the ALERT line has its level (R177). -/
theorem settle_alert (s : State) : (settle s).events.alert = (settle s).events.alertDue := by
  unfold settle
  exact settleAlert_level _

end Sys2Proof.Machine
end

