-- ==== Sys2Proof/Laws/Requests.lean ====
section
/-! SUPPORT. Laws/Requests.lean: how a command reaches its owner: power, the part state, the request executor, and what a reply leaves
behind. -/

namespace Sys2Proof.Machine

/-! ### Power -/

/-- A command on a part with power is its own effect followed by what falls in the same event. -/
theorem whilePowered_on {s : State} (f : State → State) (h : s.power.powered = true) : s.whilePowered f = settle (f s) := if_pos h

/-- A command on a part without power changes nothing (log 5). -/
theorem whilePowered_off {s : State} (f : State → State) (h : s.power.powered = false) : s.whilePowered f = s := by
  simp [State.whilePowered, h]

/-! ### Taking a request -/

/-- The restart of the trigger idle timer touches the Trigger Unit's idle timer only (R110). -/
theorem restartIdle_eq (s : State) : s.restartIdle = { s with trigger := { s.trigger with idle := s.restartIdle.trigger.idle } } := by
  unfold State.restartIdle; split <;> rfl

/-- The restart of the trigger idle timer looks at that timer and the clock only. -/
theorem restartIdle_trigger (s t : State) (h : t.trigger = s.trigger) (c : t.clock = s.clock) :
    t.restartIdle.trigger = s.restartIdle.trigger := by
  unfold State.restartIdle; rw [h, c]; split <;> simp_all

/-- What the executor's taking of a request changes (R165, R166). -/
theorem take_eq (s : State) (kind : Nat) (tag : Byte) :
    s.take kind tag = { s with
      trigger := s.restartIdle.trigger
      executor := { status := .executing, kind := kind, tag := tag, job := .immediate, stage := .working }
      authTimer := none } := by
  unfold State.take; rw [restartIdle_eq]

/-- What an answered request leaves behind (R162, R164). -/
theorem answered_eq (s : State) (kind : Nat) (tag : Byte) (code : Code) (payload : Payload) :
    s.answered kind tag code payload = { s with
      trigger := s.restartIdle.trigger, executor := freeExecutor, authTimer := none
      sent := s.sent ++ [replyTo kind tag code payload] } := by
  unfold State.answered; rw [restartIdle_eq]; rfl

/-- A reply to the request in execution (R164). -/
theorem reply_eq (s : State) (code : Code) (payload : Payload) (h : s.executor.status = .executing) :
    s.reply code payload = { s with
      executor := freeExecutor, authTimer := none
      sent := s.sent ++ [replyTo s.executor.kind s.executor.tag code payload] } := by
  simp [State.reply, h, State.say]

/-- A request answered as soon as it is taken. -/
theorem reply_take (s : State) (kind : Nat) (tag : Byte) (code : Code) (payload : Payload) :
    (s.take kind tag).reply code payload = s.answered kind tag code payload := by
  rw [reply_eq _ _ _ (by rw [take_eq]), answered_eq, take_eq]

@[simp] theorem take_power (s : State) (k : Nat) (t : Byte) : (s.take k t).power = s.power := by rw [take_eq]
@[simp] theorem take_store (s : State) (k : Nat) (t : Byte) : (s.take k t).store = s.store := by rw [take_eq]
@[simp] theorem take_table (s : State) (k : Nat) (t : Byte) : (s.take k t).table = s.table := by rw [take_eq]
@[simp] theorem take_shadow (s : State) (k : Nat) (t : Byte) : (s.take k t).shadow = s.shadow := by rw [take_eq]
@[simp] theorem take_staging (s : State) (k : Nat) (t : Byte) : (s.take k t).staging = s.staging := by rw [take_eq]
@[simp] theorem take_cache (s : State) (k : Nat) (t : Byte) : (s.take k t).cache = s.cache := by rw [take_eq]
@[simp] theorem take_shadowEntry (s : State) (k : Nat) (t : Byte) : (s.take k t).shadowEntry = s.shadowEntry := by rw [take_eq]
@[simp] theorem take_inflight (s : State) (k : Nat) (t : Byte) : (s.take k t).inflight = s.inflight := by rw [take_eq]
@[simp] theorem take_lanes (s : State) (k : Nat) (t : Byte) : (s.take k t).lanes = s.lanes := by rw [take_eq]
@[simp] theorem take_openAt (s : State) (k : Nat) (t : Byte) : (s.take k t).openAt = s.openAt := by rw [take_eq]
@[simp] theorem take_authority (s : State) (k : Nat) (t : Byte) : (s.take k t).authority = s.authority := by rw [take_eq]
@[simp] theorem take_derivations (s : State) (k : Nat) (t : Byte) : (s.take k t).derivations = s.derivations := by rw [take_eq]
@[simp] theorem take_binding (s : State) (k : Nat) (t : Byte) : (s.take k t).binding = s.binding := by rw [take_eq]
@[simp] theorem take_wipe (s : State) (k : Nat) (t : Byte) : (s.take k t).wipe = s.wipe := by rw [take_eq]
@[simp] theorem take_events (s : State) (k : Nat) (t : Byte) : (s.take k t).events = s.events := by rw [take_eq]
@[simp] theorem take_clock (s : State) (k : Nat) (t : Byte) : (s.take k t).clock = s.clock := by rw [take_eq]
@[simp] theorem take_entropy (s : State) (k : Nat) (t : Byte) : (s.take k t).entropy = s.entropy := by rw [take_eq]
@[simp] theorem take_sent (s : State) (k : Nat) (t : Byte) : (s.take k t).sent = s.sent := by rw [take_eq]
@[simp] theorem take_pending (s : State) (k : Nat) (t : Byte) : (s.take k t).pending = s.pending := by rw [take_eq]
@[simp] theorem take_authTimer (s : State) (k : Nat) (t : Byte) : (s.take k t).authTimer = none := by rw [take_eq]
@[simp] theorem take_executor (s : State) (k : Nat) (t : Byte) : (s.take k t).executor =
    { status := .executing, kind := k, tag := t, job := .immediate, stage := .working } := by rw [take_eq]
@[simp] theorem take_trigger (s : State) (k : Nat) (t : Byte) : (s.take k t).trigger = s.restartIdle.trigger := by rw [take_eq]
@[simp] theorem restartIdle_working (s : State) : s.restartIdle.trigger.working = s.trigger.working := by rw [restartIdle_eq]
@[simp] theorem restartIdle_bayLevel (s : State) : s.restartIdle.trigger.bayLevel = s.trigger.bayLevel := by rw [restartIdle_eq]
@[simp] theorem restartIdle_held (s : State) : s.restartIdle.trigger.held = s.trigger.held := by rw [restartIdle_eq]

@[simp] theorem take_cred (s : State) (k : Nat) (t : Byte) (i : SlotId) : (s.take k t).cred i = s.cred i := by simp [State.cred]
@[simp] theorem take_range (s : State) (k : Nat) (t : Byte) (r : RangeId) : (s.take k t).range r = s.range r := by simp [State.range]
@[simp] theorem take_key (s : State) (k : Nat) (t : Byte) (o : Owner) : (s.take k t).key o = s.key o := by cases o <;> simp [State.key]
@[simp] theorem take_admin (s : State) (k : Nat) (t : Byte) : (s.take k t).admin = s.admin := by simp [State.admin, State.holderRole]

/-! ### The request executor's gate (R165) -/

/-- A request of a part that takes one: a body that does not fit is answered BAD_BODY, one that fits goes to its owner's checks. -/
theorem request_taken {α : Type} (s : State) (kind : Nat) (tag : Byte) (body : Body α) (run : α → State → State) (h : s.takesRequest) :
    s.request kind tag body run = match body with
      | .misfit => s.answered kind tag .badBody .none
      | .fits a => run a (s.take kind tag) := by
  obtain ⟨-, hp, he⟩ := h
  cases body <;> simp [State.request, partRefusal, hp, he, reply_take]

/-- A request whose body fits, on a part that takes it. -/
theorem request_fits {α : Type} (s : State) (kind : Nat) (tag : Byte) (a : α) (run : α → State → State) (h : s.takesRequest) :
    s.request kind tag (.fits a) run = run a (s.take kind tag) := by simp only [request_taken _ _ _ _ _ h]

/-- The part state refuses a request, and only the reply is sent (R165 step 2). -/
theorem request_refused {α : Type} (s : State) (kind : Nat) (tag : Byte) (body : Body α) (run : α → State → State) (code : Code)
    (h : partRefusal s.power.part kind = some code) : s.request kind tag body run = s.say (replyTo kind tag code .none) := by
  simp [State.request, h]

/-- An occupied executor refuses a request BUSY (R165 step 3). -/
theorem request_busy {α : Type} (s : State) (kind : Nat) (tag : Byte) (body : Body α) (run : α → State → State)
    (h : partRefusal s.power.part kind = none) (e : s.executor.status ≠ .free) :
    s.request kind tag body run = s.say (replyTo kind tag .busy .none) := by simp [State.request, h, e]

/-- With ADMIN authority an ADMIN request goes on to its other checks (R70). -/
theorem adminOnly_admin {α : Type} (run : α → State → State) (a : α) (s : State) (h : s.admin = true) : adminOnly run a s = run a s :=
  if_pos h

/-- Without ADMIN authority an ADMIN request that is taken is answered NO_AUTHORITY (R70). -/
theorem adminOnly_refused {α : Type} (run : α → State → State) (a : α) (s : State) (kind : Nat) (tag : Byte) (h : s.admin = false) :
    adminOnly run a (s.take kind tag) = s.answered kind tag .noAuthority .none := by
  simp [adminOnly, h, reply_take]

/-- A list within its bound fits (R166). -/
theorem bounded_fits {α β : Type} (bound : Nat) (list : α → List β) (a : α) (h : (list a).length ≤ bound) :
    bounded bound list (.fits a) = .fits a := by simp [bounded, fitting, h]

/-- An ADMIN request on a part that takes it, from its command to its owner's effect. -/
theorem exec_admin {α : Type} (s : State) (kind : Nat) (tag : Byte) (a : α) (run : α → State → State) (h : s.takesRequest)
    (admin : s.admin = true) :
    s.whilePowered (fun s => s.request kind tag (.fits a) (adminOnly run)) = settle (run a (s.take kind tag)) := by
  rw [whilePowered_on _ h.1, request_fits _ _ _ _ _ h, adminOnly_admin _ _ _ (by simpa using admin)]

/-- An ADMIN request without ADMIN authority, from its command to its reply. -/
theorem exec_notAdmin {α : Type} (s : State) (kind : Nat) (tag : Byte) (a : α) (run : α → State → State) (h : s.takesRequest)
    (admin : s.admin = false) :
    s.whilePowered (fun s => s.request kind tag (.fits a) (adminOnly run)) = settle (s.answered kind tag .noAuthority .none) := by
  rw [whilePowered_on _ h.1, request_fits _ _ _ _ _ h, adminOnly_refused _ _ _ _ _ admin]

end Sys2Proof.Machine
end

