-- ==== Sys2Proof/Laws/Store.lean ====
section
/-! SUPPORT. Laws/Store.lean: what a submission, a write and a close of the Persistent Store do, said once. -/

namespace Sys2Proof.Machine

/-! ### Copies of a cell (R75) -/

theorem copy_setCopy_same {α : Type} (c : CellPair α) (side : Side) (x : CellCopy α) : (c.setCopy side x).copy side = x := by
  cases side <;> rfl

theorem copy_setCopy_other {α : Type} (c : CellPair α) (side : Side) (x : CellCopy α) :
    (c.setCopy side x).copy (otherSide side) = c.copy (otherSide side) := by cases side <;> rfl

theorem otherSide_otherSide (side : Side) : otherSide (otherSide side) = side := by cases side <;> rfl

/-- A write goes to the copy that is not effective, with the next version, and leaves the effective copy (R75). -/
theorem writeTarget_eq {α : Type} (c : CellPair α) (side : Side) (content : α) (tag : Count32) (passes : Bool)
    (h : c.effective = some side) :
    c.writeTarget content tag passes = c.setCopy (otherSide side)
      { content := content, version := (c.copy side).version + 1, tag := tag, passes := passes } := by
  simp [CellPair.writeTarget, CellPair.target, CellPair.nextVersion, h]

/-- A write changes no effective copy (R75): what the owners read stays. -/
theorem writeTarget_read {α : Type} (c : CellPair α) (content lost : α) (tag : Count32) (passes : Bool) :
    (c.writeTarget content tag passes).read lost = c.read lost := by
  cases h : c.effective with
  | none =>
    have e : ∀ side x, (c.setCopy side x).effective = none := by intro side x; cases side <;> exact h
    simp [CellPair.writeTarget, CellPair.read, h, e]
  | some side =>
    rw [writeTarget_eq _ _ _ _ _ h]
    cases side <;> simp [CellPair.read, CellPair.setCopy, otherSide, h, CellPair.copy]

/-- In a cell that failed in both copies the write goes to copy A, and the close makes that copy effective (log 29). -/
theorem writeTarget_takeTarget_lost {α : Type} (c : CellPair α) (content lost : α) (tag : Count32) (h : c.effective = none) :
    (c.writeTarget content tag true).takeTarget.read lost = content := by
  simp [CellPair.writeTarget, CellPair.takeTarget, CellPair.read, CellPair.target, CellPair.setCopy, CellPair.copy, h]

/-- What a close reads back of a cell is what the last passing write of its target put there (R75, R77 step 3). -/
theorem writeTarget_takeTarget_read {α : Type} (c : CellPair α) (content lost : α) (tag : Count32) :
    (c.writeTarget content tag true).takeTarget.read lost = content := by
  cases h : c.effective with
  | none => exact writeTarget_takeTarget_lost c content lost tag h
  | some side =>
    cases side <;>
      simp [CellPair.writeTarget, CellPair.takeTarget, CellPair.read, CellPair.target, CellPair.setCopy, CellPair.copy, otherSide, h]

/-- After the switch of a close the copy that was not effective is read (R77 step 3). -/
theorem takeTarget_read {α : Type} (c : CellPair α) (lost : α) (side : Side) (h : c.effective = some side) :
    c.takeTarget.read lost = (c.copy (otherSide side)).content := by
  cases side <;> simp [CellPair.takeTarget, CellPair.read, CellPair.target, h, otherSide, CellPair.copy]

theorem writeTarget_target {α : Type} (c : CellPair α) (content : α) (tag : Count32) (passes : Bool) :
    (c.writeTarget content tag passes).target = c.target := by
  cases h : c.target <;> simp [CellPair.writeTarget, CellPair.setCopy, h] <;> simp_all [CellPair.target]

theorem writeTarget_content {α : Type} (c : CellPair α) (content : α) (tag : Count32) (passes : Bool) :
    ((c.writeTarget content tag passes).copy (c.writeTarget content tag passes).target).content = content := by
  rw [writeTarget_target, CellPair.writeTarget, copy_setCopy_same]

/-- A record that is written stands in the copy that the close makes effective (R75, R77). -/
theorem writeRecord_inTarget (st : Store) (tag : Count32) (passes : Bool) (r : Record) :
    r.inTarget (st.writeRecord tag passes r) := by
  cases r <;> simp [Record.inTarget, Store.writeRecord, writeTarget_content]

/-- A write of one record leaves the copies of every other cell (R77). -/
theorem writeRecord_other (st : Store) (tag : Count32) (passes : Bool) (r q : Record) (h : q.cell ≠ r.cell) :
    q.inTarget (st.writeRecord tag passes r) ↔ q.inTarget st := by
  cases r <;> cases q <;> simp_all [Record.inTarget, Store.writeRecord, Record.cell, Fin.ext_iff, eq_comm]

/-- After the records of a group with one cell each have been written, every one stands in its target. -/
theorem writeRecords_inTarget (tag : Count32) (l : List Record) (h : (l.map Record.cell).Nodup) (st : Store) :
    ∀ r ∈ l, r.inTarget (l.foldl (fun st r => st.writeRecord tag true r) st) := by
  have later : ∀ (l : List Record) (st : Store) (q : Record), q.cell ∉ l.map Record.cell → q.inTarget st →
      q.inTarget (l.foldl (fun st r => st.writeRecord tag true r) st) := by
    intro l
    induction l with
    | nil => intro st q _ h; exact h
    | cons x l ih =>
      intro st q n h
      simp only [List.map_cons, List.mem_cons, not_or] at n
      exact ih _ q n.2 ((writeRecord_other st tag true x q n.1).2 h)
  induction l generalizing st with
  | nil => simp
  | cons x l ih =>
    simp only [List.map_cons, List.nodup_cons] at h
    intro r m
    rcases List.mem_cons.1 m with rfl | m
    · exact later l _ r h.1 (writeRecord_inTarget st tag true r)
    · exact ih h.2 _ r m

/-- Writing copies changes nothing that the owners read of the ranges, the shadow, the slots and the drive profile (R80). -/
theorem writeRecord_read (st : Store) (tag : Count32) (passes : Bool) (r : Record) :
    (∀ (n : RangeId) lost, (st.writeRecord tag passes r).ranges[n].read lost = st.ranges[n].read lost) ∧
      (∀ lost, (st.writeRecord tag passes r).shadow.read lost = st.shadow.read lost) ∧
      (∀ (i : SlotId) lost, (st.writeRecord tag passes r).creds[i].read lost = st.creds[i].read lost) ∧
      (st.writeRecord tag passes r).profile = st.profile := by
  cases r with
  | cred i r =>
    refine ⟨fun _ _ => rfl, fun _ => rfl, fun n lost => ?_, rfl⟩
    by_cases h : i = n
    · subst h; simp [Store.writeRecord, writeTarget_read]
    · have : i.val ≠ n.val := fun e => h (Fin.ext e)
      simp [Store.writeRecord, this]
  | range i r =>
    refine ⟨fun n lost => ?_, fun _ => rfl, fun _ _ => rfl, rfl⟩
    by_cases h : i = n
    · subst h; simp [Store.writeRecord, writeTarget_read]
    · have : i.val ≠ n.val := fun e => h (Fin.ext e)
      simp [Store.writeRecord, this]
  | shadow r => exact ⟨fun _ _ => rfl, fun _ => writeTarget_read _ _ _ _ _, fun _ _ => rfl, rfl⟩
  | _ => exact ⟨fun _ _ => rfl, fun _ => rfl, fun _ _ => rfl, rfl⟩

/-! ### Submissions (R76, R78) -/

/-- On an idle store a submitted group begins at once, with the last closed number plus 1 (R76). -/
theorem Store.submit_idle (st : Store) (g : Group) (h : st.idle = true) :
    st.submit g = { st with writing := some { group := g, number := st.lastClosed + 1, stage := .copies 0 0 } } := by
  simp only [Store.idle, Bool.and_eq_true, Option.isNone_iff_eq_none, List.isEmpty_iff] at h
  obtain ⟨⟨hw, hq⟩, hh⟩ := h
  cases st; simp_all [Store.submit, Store.outstanding, Store.beginNext]

/-- A group being written goes on being written whatever is submitted (R78). -/
theorem Store.submit_writing (st : Store) (g : Group) (w : Writing) (h : st.writing = some w) :
    (st.submit g).writing = some w := by
  unfold Store.submit Store.beginNext; split
  · exact h
  · split
    · simp_all
    · exact h

/-- The submitted group waits afterwards: it is written, queued or held, or merged into a held group of its submitter that carries its
record for each of its cells (R78); here for a group of one record. -/
theorem Store.submit_waits (st : Store) (g : Group) (r : Record) (h : g.records = [r]) :
    ∃ x ∈ (st.submit g).waitingGroups, x.submitter = g.submitter ∧ r ∈ x.records := by
  have merged : ∀ l : List Record, r ∈ mergeRecord l r := by
    intro l; unfold mergeRecord; split
    · rename_i hany
      obtain ⟨y, hy, hc⟩ := List.any_eq_true.mp hany
      exact List.mem_map.mpr ⟨y, hy, by simp [of_decide_eq_true hc]⟩
    · simp
  have held : ∀ l : List Group, ∃ x ∈ holdGroup g l, x.submitter = g.submitter ∧ r ∈ x.records := by
    intro l
    induction l with
    | nil => exact ⟨g, by simp [holdGroup], rfl, by simp [h]⟩
    | cons x xs ih =>
      unfold holdGroup; split
      · rename_i hs
        split
        · exact ⟨x.merge g, by simp, by simpa [Group.merge] using hs.1, by simpa [Group.merge, h] using merged _⟩
        · exact ⟨g, by simp, rfl, by simp [h]⟩
      · obtain ⟨y, hy, hp⟩ := ih
        exact ⟨y, by simp [hy], hp⟩
  unfold Store.submit; split
  · obtain ⟨x, hx, hp⟩ := held st.held
    exact ⟨x, by simp [Store.waitingGroups, hx], hp⟩
  · refine ⟨g, ?_, rfl, by simp [h]⟩
    unfold Store.beginNext
    cases hw : st.writing with
    | some w => simp [Store.waitingGroups]
    | none => cases hq : st.queue <;> simp [Store.waitingGroups]

/-- A submission that reaches the store. -/
theorem State.submit_reaches (s : State) (g : Group) (h : s.maySubmit g.submitter = true) :
    s.submit g = { s with store := s.store.submit g } := if_pos h

/-! ### What is written goes on being written while an event's consequences are taken -/

/-- The writing group, once there is one, and the authority record and the request executor's job are the same. -/
structure Steady (s t : State) : Prop where
  writing : ∀ w, s.store.writing = some w → t.store.writing = some w
  executor : t.executor = s.executor
  authority : t.authority = s.authority
  table : t.table = s.table
  shadow : t.shadow = s.shadow
  power : t.power = s.power
  pendingEvents : t.events.pending = s.events.pending

theorem Steady.refl (s : State) : Steady s s := ⟨fun _ h => h, rfl, rfl, rfl, rfl, rfl, rfl⟩

theorem Steady.trans {a b c : State} (h : Steady a b) (g : Steady b c) : Steady a c where
  writing := fun w hw => g.writing w (h.writing w hw)
  executor := g.executor.trans h.executor
  authority := g.authority.trans h.authority
  table := g.table.trans h.table
  shadow := g.shadow.trans h.shadow
  power := g.power.trans h.power
  pendingEvents := g.pendingEvents.trans h.pendingEvents

theorem Steady.forEach {α : Type} (f : α → State → State) (h : ∀ a s, Steady s (f a s)) :
    ∀ (l : List α) (s : State), Steady s (forEach l f s)
  | [], s => Steady.refl s
  | a :: l, s => (h a s).trans (Steady.forEach f h l (f a s))

theorem steady_say (s : State) (m : Sent) : Steady s (s.say m) := by constructor <;> first | rfl | exact fun _ h => h
theorem steady_draw (s : State) : Steady s s.draw.2 := by constructor <;> first | rfl | exact fun _ h => h
theorem steady_setLane (s : State) (l : LaneId) (x : Lane) : Steady s (s.setLane l x) := by
  constructor <;> first | rfl | exact fun _ h => h
theorem steady_setTransfer (s : State) (t : Tag) (x : Option Transfer) : Steady s (s.setTransfer t x) := by
  constructor <;> first | rfl | exact fun _ h => h
theorem steady_setWipe (s : State) (w : Wipe) : Steady s (s.setWipe w) := by constructor <;> first | rfl | exact fun _ h => h
theorem steady_setBinding (s : State) (b : Binding) : Steady s (s.setBinding b) := by
  constructor <;> first | rfl | exact fun _ h => h
theorem steady_lastGranted (s : State) (x : ArbiterSide) : Steady s { s with lastGranted := x } := by
  constructor <;> first | rfl | exact fun _ h => h
theorem steady_idle (s : State) (x : IdleTimer) : Steady s { s with trigger := { s.trigger with idle := x } } := by
  constructor <;> first | rfl | exact fun _ h => h
theorem steady_authTimer (s : State) (x : Option Nat) : Steady s { s with authTimer := x } := by
  constructor <;> first | rfl | exact fun _ h => h
theorem steady_settleAlert (s : State) : Steady s (settleAlert s) := by constructor <;> first | rfl | exact fun _ h => h

theorem steady_submit (s : State) (g : Group) : Steady s (s.submit g) := by
  unfold State.submit; split
  · constructor <;> first | rfl | exact fun w h => Store.submit_writing _ _ w h
  · exact Steady.refl s

theorem steady_advanceWipe (s : State) : Steady s s.advanceWipe := by
  have started : Steady s (if s.finalDue then s.startFinal else s) := by
    split
    · constructor <;> first | rfl | exact fun _ h => h
    · exact Steady.refl s
  unfold State.advanceWipe; split
  · exact Steady.refl s
  · dsimp only
    generalize (if s.finalDue then s.startFinal else s) = u at started
    refine started.trans ?_
    split
    · split
      · exact Steady.refl _
      · exact ((((steady_draw _).trans (steady_draw _)).trans (steady_setWipe _ _)).trans (steady_submit _ _))
    · split
      · split
        · exact ((((steady_setWipe _ _).trans (steady_setWipe _ _)).trans (steady_submit _ _)).trans (steady_setWipe _ _))
        · exact Steady.refl _
      · exact Steady.refl _

theorem steady_issueOne (s : State) (l : LaneId) : Steady s (s.issueOne l) := by
  unfold State.issueOne; split
  · split
    · split
      · split
        · unfold State.issueBlock; dsimp only; split
          · exact (steady_setLane s _ _).trans (steady_say _ _)
          · exact ((steady_setLane s _ _).trans (steady_draw _)).trans (steady_say _ _)
        · exact Steady.refl s
      · exact Steady.refl s
    · exact Steady.refl s
  · exact Steady.refl s

theorem steady_fillLane (s : State) (l : LaneId) : Steady s (s.fillLane l) := Steady.forEach _ (fun _ s => steady_issueOne s l) _ s

theorem steady_fillOverwrite (s : State) (l : LaneId) : Steady s (s.fillOverwrite l) := by
  refine Steady.forEach _ (fun _ s => ?_) _ s
  unfold State.issueOverwrite; split
  · dsimp only; split
    · exact (steady_setLane s _ _).trans (steady_say _ _)
    · exact Steady.refl s
  · exact Steady.refl s

theorem steady_grantLanes (s : State) : Steady s s.grantLanes := by
  have transfer : ∀ (s : State) l t i, Steady s (s.grantTransfer l t i) := by
    intro s l t i; unfold State.grantTransfer; split
    · exact Steady.refl s
    · exact (((steady_setTransfer s _ _).trans (steady_setLane _ _ _)).trans (steady_lastGranted _ _)).trans (steady_fillLane _ _)
  have wipe : ∀ (s : State) l, Steady s (s.grantWipe l) := by
    intro s l; unfold State.grantWipe; split
    · exact steady_setWipe s _
    · split
      · exact Steady.refl s
      · exact (((steady_setWipe s _).trans (steady_setLane _ _ _)).trans (steady_lastGranted _ _)).trans (steady_fillOverwrite _ _)
  refine Steady.forEach _ (fun l s => ?_) _ s
  unfold State.grantLane; split
  · exact Steady.refl s
  · split
    · split
      · exact wipe s l
      · exact transfer s l _ _
    · split
      · exact wipe s l
      · exact Steady.refl s

/-- The timers' running conditions and the ALERT line. -/
theorem steady_tend (s : State) : Steady s (settleAlert s.tendIdle.tendRecheck.tendAuthority) := by
  have idle : Steady s s.tendIdle := by
    unfold State.tendIdle; split
    · split <;> first | exact Steady.refl s | exact steady_idle s _
    · exact steady_idle s _
  have recheck : ∀ s : State, Steady s s.tendRecheck := by
    intro s; unfold State.tendRecheck; split
    · split <;> first | exact Steady.refl s | exact steady_setBinding s _
    · exact steady_setBinding s _
  have authority : ∀ s : State, Steady s s.tendAuthority := by
    intro s; unfold State.tendAuthority; split
    · split <;> first | exact Steady.refl s | exact steady_authTimer s _
    · exact steady_authTimer s _
  exact (((idle.trans (recheck _)).trans (authority _)).trans (steady_settleAlert _))

/-- On a part that is READY and keeps its executor occupied, no sleep step is due. -/
theorem advanceSleep_busy (s : State) (h : s.power.part = .ready) (e : s.executor.status ≠ .free) : s.advanceSleep = s := by
  simp [State.advanceSleep, State.sleepEntryDue, State.sleepDropDue, State.sleepReadyDue, h, e]

/-- A request in execution that is ready to submit begins its group in the same event, on a READY part with an idle store; the table, the
authority and the window stay. The job is one whose records need no fresh keys. -/
theorem settle_begins (x : State) (records : List Record) (part : x.power.part = .ready) (status : x.executor.status = .executing)
    (stage : x.executor.stage = .wanted) (idle : x.store.idle = true) (commit : x.commit = none) (enrol : x.executor.job.isEnrol = false)
    (h : x.jobRecords = records) (some' : records ≠ []) :
    beginsGroup x (settle x) records ∧ (settle x).authority = x.authority ∧ (settle x).table = x.table ∧
      (settle x).shadow = x.shadow ∧ (settle x).events.pending = x.events.pending := by
  have drain : x.endDrainWait = x := by simp [State.endDrainWait, commit]
  have enrolment : x.advanceEnrolment = x := by
    unfold State.advanceEnrolment; split
    · rename_i e; simp [e, Job.isEnrol] at enrol
    · rfl
  have prepared : x.prepareJob = x := by
    unfold State.prepareJob; split
    · rename_i e; simp [State.commit, e] at commit
    · rfl
  have rewrites : x.wipeRewrites (x.jobRecords.map Record.cell) = false := by
    simp only [Store.idle, Bool.and_eq_true, Option.isNone_iff_eq_none, List.isEmpty_iff] at idle
    simp [State.wipeRewrites, Store.waitingGroups, idle]
  have advanced : x.advanceExecutor = { x with
      executor := { x.executor with stage := .submitted }
      store := { x.store with
        writing := some
          { group := { submitter := .executor, records := records, effects := [.request], rewrites := false, final := false }
            number := x.store.lastClosed + 1, stage := .copies 0 0 } } } := by
    rw [State.advanceExecutor, if_neg (by simp [stage]), if_neg (by simp [part]), if_neg (by simp [rewrites]),
      if_neg (by simp [h, some']), State.submitJob]
    dsimp only
    rw [prepared, State.submit_reaches _ _ (by simp [State.maySubmit, part]), h, Store.submit_idle _ _ idle]
  have kept := kept_settle x
  generalize hy : x.advanceExecutor = y at advanced
  have late : Steady y (settle x) := by
    have sleepless : (y.advanceWipe.grantLanes).advanceSleep = y.advanceWipe.grantLanes := by
      have k := (steady_advanceWipe y).trans (steady_grantLanes _)
      refine advanceSleep_busy _ ?_ ?_
      · rw [k.power, advanced]; exact part
      · rw [k.executor, advanced]; simp [status]
    unfold settle
    rw [drain, enrolment, hy]
    dsimp only
    rw [sleepless]
    exact (((steady_advanceWipe y).trans (steady_grantLanes _)).trans (steady_advanceWipe _)).trans (steady_tend _)
  refine ⟨⟨late.writing _ (by rw [advanced]), kept.cells, ?_, ?_⟩, ?_, ?_, ?_, ?_⟩
  · rw [late.executor, advanced]; exact status
  · rw [late.executor, advanced]
  · rw [late.authority, advanced]
  · rw [late.table, advanced]
  · rw [late.shadow, advanced]
  · rw [late.pendingEvents, advanced]

end Sys2Proof.Machine
end

