-- ==== Sys2Proof/Laws/Ranges.lean ====
section
/-! SUPPORT. Laws/Ranges.lean: what an operation that visits every range does to each range, once for all, and what an abort leaves of the
Key Cache. -/

namespace Sys2Proof.Machine

/-! ### Visiting every range -/

theorem allRanges_mem (r : RangeId) : r ∈ allRanges := by revert r; decide
theorem allRanges_nodup : allRanges.Nodup := by decide
theorem allTags_mem (t : Tag) : t ∈ allTags := by revert t; decide
theorem allLanes_mem (l : LaneId) : l ∈ allLanes := by revert l; decide
theorem allSlots_mem (i : SlotId) : i ∈ allSlots := by revert i; decide
theorem allSlots_nodup : allSlots.Nodup := by decide

/-- What one part of the state, seen range by range, has become after a visit of some ranges: `see` reads that part, `fixed` reads what
no visit changes, and a visit of `r` changes only what is seen at `r`, to `new` of it. -/
theorem forEach_sees {β γ : Type} (see : State → RangeId → β) (fixed : State → γ) (new : γ → RangeId → β → β)
    (f : RangeId → State → State) (keeps : ∀ r s, fixed (f r s) = fixed s)
    (here : ∀ r s, see (f r s) r = new (fixed s) r (see s r)) (there : ∀ r q s, q ≠ r → see (f r s) q = see s q) :
    ∀ (l : List RangeId) (s : State), l.Nodup →
      fixed (forEach l f s) = fixed s ∧
        ∀ r, see (forEach l f s) r = if r ∈ l then new (fixed s) r (see s r) else see s r
  | [], s, _ => ⟨rfl, fun r => by simp [forEach]⟩
  | a :: l, s, h => by
    obtain ⟨k, w⟩ := forEach_sees see fixed new f keeps here there l (f a s) h.tail
    have na : a ∉ l := (List.nodup_cons.mp h).1
    refine ⟨k.trans (keeps a s), fun r => ?_⟩
    have e : forEach (a :: l) f s = forEach l f (f a s) := rfl
    rw [e, w r, keeps a s]
    by_cases hr : r = a
    · subst hr; simp [na, here]
    · simp [hr, there a r s hr]

/-- The same for a visit of every range. -/
theorem forEach_allRanges {β γ : Type} (see : State → RangeId → β) (fixed : State → γ) (new : γ → RangeId → β → β)
    (f : RangeId → State → State) (keeps : ∀ r s, fixed (f r s) = fixed s)
    (here : ∀ r s, see (f r s) r = new (fixed s) r (see s r)) (there : ∀ r q s, q ≠ r → see (f r s) q = see s q) (s : State) (r : RangeId) :
    see (forEach allRanges f s) r = new (fixed s) r (see s r) := by
  rw [(forEach_sees see fixed new f keeps here there allRanges s allRanges_nodup).2 r, if_pos (allRanges_mem r)]

/-- What a visit of some ranges leaves alone. -/
theorem forEach_keeps {α γ : Type} (fixed : State → γ) (f : α → State → State) (keeps : ∀ a s, fixed (f a s) = fixed s) :
    ∀ (l : List α) (s : State), fixed (forEach l f s) = fixed s
  | [], _ => rfl
  | a :: l, s => (forEach_keeps fixed f keeps l (f a s)).trans (keeps a s)

/-! ### Locks and keys of one range -/

theorem get_set_same (v : Vector RangeLive 16) (r : RangeId) (x : RangeLive) : (v.set r x)[r] = x := by simp
theorem get_set_other (v : Vector RangeLive 16) (r q : RangeId) (x : RangeLive) (h : q ≠ r) : (v.set r x)[q] = v[q] := by
  have : r.val ≠ q.val := fun e => h (Fin.ext e.symm)
  simp [this]

@[simp] theorem drainKey_table (s : State) (o : Owner) : (s.drainKey o).table = s.table := by cases o <;> rfl
@[simp] theorem drainKey_store (s : State) (o : Owner) : (s.drainKey o).store = s.store := by cases o <;> rfl
@[simp] theorem drainIfClosed_table (s : State) (r : RangeId) : (s.drainIfClosed r).table = s.table := by
  unfold State.drainIfClosed; split <;> simp
@[simp] theorem drainIfClosed_store (s : State) (r : RangeId) : (s.drainIfClosed r).store = s.store := by
  unfold State.drainIfClosed; split <;> simp
@[simp] theorem closeRange_store (s : State) (r : RangeId) : (s.closeRange r).store = s.store := rfl

/-- Closing a range closes its enabled directions (R12). -/
theorem closeRange_here (s : State) (r : RangeId) : (s.closeRange r).table[r] =
    { s.table[r] with readLocked := (s.range r).fields.readLock, writeLocked := (s.range r).fields.writeLock } := by
  simp [State.closeRange]

theorem closeRange_there (s : State) (r q : RangeId) (h : q ≠ r) : (s.closeRange r).table[q] = s.table[q] :=
  get_set_other _ _ _ _ h

/-- Relock closes every enabled direction of every range (R12, R114). -/
theorem relock_table (s : State) (r : RangeId) : s.relock.table[r] =
    { s.table[r] with readLocked := (s.range r).fields.readLock, writeLocked := (s.range r).fields.writeLock } :=
  forEach_allRanges (fun s r => s.table[r]) State.store
    (fun st r e => { e with readLocked := (st.ranges[r].read (lostRange r)).fields.readLock
                            writeLocked := (st.ranges[r].read (lostRange r)).fields.writeLock })
    _ (fun r s => by simp) (fun r s => by
        show ((s.closeRange r).drainIfClosed r).table[r] = _
        rw [drainIfClosed_table, closeRange_here]; rfl)
    (fun r q s h => by
        show ((s.closeRange r).drainIfClosed r).table[q] = _
        rw [drainIfClosed_table, closeRange_there _ _ _ h]) s r

theorem restage_here (s : State) (r : RangeId) : (s.restage r).staging[r] = { fields := (s.range r).fields, newKey := false } := by
  simp [State.restage]

theorem restage_there (s : State) (r q : RangeId) (h : q ≠ r) : (s.restage r).staging[q] = s.staging[q] := by
  have : r.val ≠ q.val := fun e => h (Fin.ext e.symm)
  simp [State.restage, this]

/-- The staging copy after every range has been restaged (R14, R16). -/
theorem restage_all (s : State) (r : RangeId) :
    (forEach allRanges (fun r s => s.restage r) s).staging[r] = { fields := (s.range r).fields, newKey := false } := by
  have h := forEach_allRanges (fun s r => s.staging[r]) State.range
    (fun read r _ => { fields := (read r).fields, newKey := false }) (fun r s => s.restage r) (fun _ _ => rfl)
    (fun r s => restage_here s r) (fun r q s e => restage_there s r q e) s r
  exact h

/-- Restaging every range changes the staging copy alone. -/
theorem restage_all_eq (s : State) : forEach allRanges (fun r s => s.restage r) s =
    { s with staging := (forEach allRanges (fun r s => s.restage r) s).staging } := by
  have h := forEach_keeps (fun t : State => { t with staging := s.staging }) (fun (r : RangeId) s => s.restage r) (fun _ _ => rfl)
    allRanges s
  generalize forEach allRanges (fun r s => s.restage r) s = t at h ⊢
  exact congrArg (fun u : State => { u with staging := t.staging }) h

/-- The open-at times after the backoff of every slot has restarted (R65). -/
theorem restartBackoff_openAt (s : State) (i : SlotId) : s.restartBackoff.openAt[i] =
    if (s.cred i).state = .empty then s.openAt[i] else s.clock + closedPeriod (s.cred i).policy (s.cred i).failures := by
  have visit : ∀ (l : List SlotId) (t : State), l.Nodup → t.store = s.store → t.clock = s.clock →
      let u := forEach l (fun i s => if (s.cred i).state = .empty then s else s.setOpenAt i (s.clock + s.closedPeriodOf i)) t
      u.openAt[i] = if i ∈ l ∧ (s.cred i).state ≠ .empty then s.clock + closedPeriod (s.cred i).policy (s.cred i).failures
        else t.openAt[i] := by
    intro l
    induction l with
    | nil => intro t _ _ _; simp [forEach]
    | cons a l ih =>
      intro t nd hs hc
      have na : a ∉ l := (List.nodup_cons.mp nd).1
      have e : ∀ j, t.cred j = s.cred j := fun j => by simp [State.cred, hs]
      have step := ih (if (t.cred a).state = .empty then t else t.setOpenAt a (t.clock + t.closedPeriodOf a)) nd.tail
        (by split <;> simp [State.setOpenAt, hs]) (by split <;> simp [State.setOpenAt, hc])
      show (forEach l _ _).openAt[i] = _
      rw [step]
      by_cases hi : i = a
      · subst hi; by_cases hk : (s.cred i).state = .empty <;> simp [na, hk, e, State.setOpenAt, State.closedPeriodOf, hc]
      · have hv : a.val ≠ i.val := fun h => hi (Fin.ext h.symm)
        by_cases hk : (t.cred a).state = .empty <;> simp [hi, hk, State.setOpenAt, hv]
  have h := visit allSlots s allSlots_nodup rfl rfl
  simp only [allSlots_mem, true_and] at h
  show (forEach allSlots _ s).openAt[i] = _
  rw [h]; split <;> simp_all

/-! ### The Key Cache (R35, R36) -/

/-- A drain of a LIVE entry makes it DRAINING behind its references, or EMPTY without any; any other entry stays (R35). -/
theorem drain_state (e : KeyEntry) : e.drain.state =
    match e.state with
    | .live => if e.refs = 0 then .empty else .draining
    | .empty => .empty
    | .draining => .draining := by
  unfold KeyEntry.drain
  cases h : e.state <;> simp only [h]
  split <;> rfl

/-- A drain changes no reference count (R35). -/
theorem drain_refs (e : KeyEntry) : e.drain.refs = e.refs := by
  unfold KeyEntry.drain; split
  · split <;> rfl
  · rfl
  · rfl

/-- A release lowers the count by one and erases a DRAINING entry at its last (R36). -/
theorem release_state (e : KeyEntry) : e.release.refs = e.refs - 1 ∧
    e.release.state = if e.refs - 1 = 0 ∧ e.state = .draining then .empty else e.state := by
  unfold KeyEntry.release; dsimp only; split <;> simp_all [KeyEntry.erase]

/-- An abort of an owner leaves its entry EMPTY (R37). -/
theorem abortOwner_key (s : State) (o : Owner) (reason : AbortReason) : (s.abortOwner o reason).key o = emptyKey := by
  unfold State.abortOwner; cases o <;> simp [State.setKey, State.key]

end Sys2Proof.Machine
end

