-- ==== Sys2Proof/Laws/Overwrite.lean ====
section
/-! SUPPORT. Laws/Overwrite.lean: the extent of an overwrite (R130): the block it gives as the next one is the next from itself on. -/

namespace Sys2Proof.Machine

/-- A hop that moves passes the end of a range that owned the LBA (R3). -/
theorem hop_spec (s : State) (x : Nat) :
    s.hop x = x ∧ s.definedOwner x = none ∨
      ∃ r : RangeId, r ≠ 0 ∧ x < (s.range r).fields.start + (s.range r).fields.length ∧
        s.hop x = (s.range r).fields.start + (s.range r).fields.length := by
  unfold State.hop
  cases h : s.definedOwner x with
  | none => exact .inl ⟨rfl, rfl⟩
  | some r =>
    have p := List.find?_some h
    simp only [decide_eq_true_eq] at p
    exact .inr ⟨r, p.1, p.2.2, rfl⟩

/-- A hop from an LBA that no defined range owns stays. -/
theorem hop_free (s : State) (x : Nat) (h : s.definedOwner x = none) : s.hop x = x := by simp only [State.hop, h]

/-- The ranges that end at or before an LBA. -/
def State.endedBy (s : State) (x : Nat) : Finset RangeId :=
  Finset.univ.filter (fun r => (s.range r).fields.start + (s.range r).fields.length ≤ x)

/-- A hop that moves leaves one more range behind. -/
theorem endedBy_hop (s : State) (x : Nat) :
    s.definedOwner x = none ∧ s.hop x = x ∨ (s.endedBy x).card < (s.endedBy (s.hop x)).card := by
  rcases hop_spec s x with ⟨h, n⟩ | ⟨r, -, lt, eq⟩
  · exact .inl ⟨n, h⟩
  · refine .inr (Finset.card_lt_card (Finset.ssubset_iff.2 ⟨r, ?_, ?_⟩))
    · simp [State.endedBy, lt]
    · intro q m
      simp only [State.endedBy, Finset.mem_insert, Finset.mem_filter, Finset.mem_univ, true_and] at m ⊢
      rcases m with rfl | m <;> omega

/-- After a number of hops no defined range owns the LBA, or as many ranges as there were hops lie behind it. -/
theorem hops_end (s : State) (l : List Nat) (x : Nat) :
    s.definedOwner (l.foldl (fun x _ => s.hop x) x) = none ∨
      l.length ≤ (s.endedBy (l.foldl (fun x _ => s.hop x) x)).card := by
  induction l using List.reverseRecOn with
  | nil => exact .inr (Nat.zero_le _)
  | append_singleton l a ih =>
    simp only [List.foldl_append, List.foldl_cons, List.foldl_nil, List.length_append, List.length_singleton]
    rcases endedBy_hop s (l.foldl (fun x _ => s.hop x) x) with ⟨n, h⟩ | lt
    · exact .inl (h.symm ▸ n)
    · rcases ih with ih | ih
      · exact .inl (by rw [hop_free s _ ih]; exact ih)
      · exact .inr (by omega)

/-- No defined range owns the LBA that `nextFree` gives (R130): fifteen ranges are passed in at most fifteen hops. -/
theorem nextFree_free (s : State) (x : Nat) : s.definedOwner (s.nextFree x) = none := by
  rcases hops_end s (List.range 16) x with h | h
  · exact h
  · rw [List.length_range] at h
    have all : s.endedBy (s.nextFree x) = Finset.univ :=
      Finset.eq_univ_of_card _ (le_antisymm (Finset.card_le_univ _) ((Fintype.card_fin 16).trans_le h))
    rcases hop_spec s (s.nextFree x) with ⟨-, n⟩ | ⟨r, -, lt, -⟩
    · exact n
    · have m : r ∈ s.endedBy (s.nextFree x) := by rw [all]; exact Finset.mem_univ r
      simp only [State.endedBy, Finset.mem_filter, Finset.mem_univ, true_and] at m
      omega

/-- From an LBA that no defined range owns, `nextFree` stays. -/
theorem nextFree_of_free (s : State) (x : Nat) (h : s.definedOwner x = none) : s.nextFree x = x := by
  have all : ∀ l : List Nat, l.foldl (fun x _ => s.hop x) x = x := by
    intro l
    induction l with
    | nil => rfl
    | cons a l ih => rw [List.foldl_cons, hop_free s x h, ih]
  exact all _

/-- The next block of an extent is the next from itself on (R130). -/
theorem extentNext_again (s : State) (t : Owner) (p q : Nat) (h : s.extentNext t p = some q) : s.extentNext t q = some q := by
  unfold State.extentNext at h ⊢
  cases t with
  | shadow => dsimp only at h ⊢; split at h <;> simp_all
  | range r =>
    dsimp only at h ⊢
    split at h
    · split at h
      · cases h
        simp_all [nextFree_of_free s _ (nextFree_free s p)]
      · cases h
    · split at h
      · cases h; rw [if_neg ‹_›, if_pos (by omega)]; congr 1; omega
      · cases h
end Sys2Proof.Machine
end

