-- ==== Sys2Proof/Laws/PerInstr.lean ====
section
/-! SUPPORT. Laws/PerInstr.lean: the family of statements made per command: CatalogueKind. -/

namespace Sys2Proof.Laws.CatalogueKind

/-- A command that is a management request carries a kind number of the catalogue, 1 to 24 (R162, R170). -/
def Statement (i : Instr) : Prop := ∀ k, requestKind i = some k → 1 ≤ k ∧ k ≤ 24

theorem powerOn (scan : ScanFindings) : Statement (.powerOn scan) := by intro k h; cases h
theorem powerLoss (midWrite : Bool) : Statement (.powerLoss midWrite) := by intro k h; cases h
theorem restore : Statement (.restore) := by intro k h; cases h
theorem partRestart (scan : ScanFindings) : Statement (.partRestart scan) := by intro k h; cases h
theorem admitRequest (tag direction : Byte) (start : BitVec 40) (countLessOne : BitVec 16) : Statement (.admitRequest tag direction start countLessOne) := by intro k h; cases h
theorem cancel (tag : Byte) : Statement (.cancel tag) := by intro k h; cases h
theorem frontReset : Statement (.frontReset) := by intro k h; cases h
theorem mediaAcknowledge (lane : LaneId) (event : LaneEvent) : Statement (.mediaAcknowledge lane event) := by intro k h; cases h
theorem mediaError (lane : LaneId) (block : Nat) : Statement (.mediaError lane block) := by intro k h; cases h
theorem copyWriteDone (passed : Bool) : Statement (.copyWriteDone passed) := by intro k h; cases h
theorem groupClose (scan : ScanFindings) : Statement (.groupClose scan) := by intro k h; cases h
theorem drainWaitEnd : Statement (.drainWaitEnd) := by intro k h; cases h
theorem drainLimitExpiry : Statement (.drainLimitExpiry) := by intro k h; cases h
theorem derivationComplete : Statement (.derivationComplete) := by intro k h; cases h
theorem authorityIdleExpiry : Statement (.authorityIdleExpiry) := by intro k h; cases h
theorem bayEdge (level : BayLevel) : Statement (.bayEdge level) := by intro k h; cases h
theorem bayStabilityExpiry : Statement (.bayStabilityExpiry) := by intro k h; cases h
theorem idleTimerExpiry : Statement (.idleTimerExpiry) := by intro k h; cases h
theorem recheckTimerExpiry : Statement (.recheckTimerExpiry) := by intro k h; cases h
theorem tetherPageReceived (page : Vector Byte 20) : Statement (.tetherPageReceived page) := by intro k h; cases h
theorem tetherFault : Statement (.tetherFault) := by intro k h; cases h
theorem pageTimeout : Statement (.pageTimeout) := by intro k h; cases h
theorem roundWaitExpiry : Statement (.roundWaitExpiry) := by intro k h; cases h
theorem enrolRetryExpiry : Statement (.enrolRetryExpiry) := by intro k h; cases h
theorem slpAsserted : Statement (.slpAsserted) := by intro k h; cases h
theorem sleepEntry : Statement (.sleepEntry) := by intro k h; cases h
theorem sleepDrop : Statement (.sleepDrop) := by intro k h; cases h
theorem sleepReady : Statement (.sleepReady) := by intro k h; cases h
theorem slpReleased : Statement (.slpReleased) := by intro k h; cases h
theorem keyStep : Statement (.keyStep) := by intro k h; cases h
theorem overwriteStart : Statement (.overwriteStart) := by intro k h; cases h
theorem badFrame (record : List Byte) : Statement (.badFrame record) := by intro k h; cases h
theorem unknownKind (record : List Byte) : Statement (.unknownKind record) := by intro k h; cases h
theorem status (tag : Byte) (body : Body Unit) : Statement (.status tag body) := by intro k h; cases h; decide
theorem eventsEnable (tag : Byte) (body : Body (List Nat)) : Statement (.eventsEnable tag body) := by intro k h; cases h; decide
theorem eventsAck (tag : Byte) (body : Body (List Nat)) : Statement (.eventsAck tag body) := by intro k h; cases h; decide
theorem authenticate (tag : Byte) (body : Body AuthArgs) : Statement (.authenticate tag body) := by intro k h; cases h; decide
theorem authorityEnd (tag : Byte) (body : Body Unit) : Statement (.authorityEnd tag body) := by intro k h; cases h; decide
theorem rangeUnlock (tag : Byte) (body : Body RangeDirs) : Statement (.rangeUnlock tag body) := by intro k h; cases h; decide
theorem rangeLock (tag : Byte) (body : Body RangeDirs) : Statement (.rangeLock tag body) := by intro k h; cases h; decide
theorem rangeStage (tag : Byte) (body : Body StageArgs) : Statement (.rangeStage tag body) := by intro k h; cases h; decide
theorem rangeDiscard (tag : Byte) (body : Body Unit) : Statement (.rangeDiscard tag body) := by intro k h; cases h; decide
theorem rangeCommit (tag : Byte) (body : Body Unit) : Statement (.rangeCommit tag body) := by intro k h; cases h; decide
theorem rangeRead (tag : Byte) (body : Body Nat) : Statement (.rangeRead tag body) := by intro k h; cases h; decide
theorem credSet (tag : Byte) (body : Body CredSetArgs) : Statement (.credSet tag body) := by intro k h; cases h; decide
theorem credPolicy (tag : Byte) (body : Body CredPolicyArgs) : Statement (.credPolicy tag body) := by intro k h; cases h; decide
theorem credStateEnable (tag : Byte) (body : Body CredStateArgs) : Statement (.credStateEnable tag body) := by intro k h; cases h; decide
theorem credStateDisable (tag : Byte) (body : Body CredStateArgs) : Statement (.credStateDisable tag body) := by intro k h; cases h; decide
theorem credStateReopen (tag : Byte) (body : Body CredStateArgs) : Statement (.credStateReopen tag body) := by intro k h; cases h; decide
theorem shadowConfig (tag : Byte) (body : Body ShadowArgs) : Statement (.shadowConfig tag body) := by intro k h; cases h; decide
theorem shadowLoadOpen (tag : Byte) (body : Body LoadArgs) : Statement (.shadowLoadOpen tag body) := by intro k h; cases h; decide
theorem shadowLoadClose (tag : Byte) (body : Body LoadArgs) : Statement (.shadowLoadClose tag body) := by intro k h; cases h; decide
theorem shadowDone (tag : Byte) (body : Body Unit) : Statement (.shadowDone tag body) := by intro k h; cases h; decide
theorem bindEnroll (tag : Byte) (body : Body (Option Nat)) : Statement (.bindEnroll tag body) := by intro k h; cases h; decide
theorem bindCheck (tag : Byte) (body : Body Unit) : Statement (.bindCheck tag body) := by intro k h; cases h; decide
theorem triggerSet (tag : Byte) (body : Body TriggerArgs) : Statement (.triggerSet tag body) := by intro k h; cases h; decide
theorem lockdownClear (tag : Byte) (body : Body Unit) : Statement (.lockdownClear tag body) := by intro k h; cases h; decide
theorem wipeTokenSet (tag : Byte) (body : Body (List Byte)) : Statement (.wipeTokenSet tag body) := by intro k h; cases h; decide
theorem wipeTokenClear (tag : Byte) (body : Body Unit) : Statement (.wipeTokenClear tag body) := by intro k h; cases h; decide
theorem wipe (tag : Byte) (body : Body WipeArgs) : Statement (.wipe tag body) := by intro k h; cases h; decide
theorem resetPart (tag : Byte) (body : Body Unit) : Statement (.resetPart tag body) := by intro k h; cases h; decide

end Sys2Proof.Laws.CatalogueKind
end

