-- ==== Sys2Proof/Laws/Transfers.lean ====
section
/-! SUPPORT. Laws/Transfers.lean: what the operations on transfers and lanes may touch: the in-flight table, the lanes, the Key Cache, the
messages sent and the count of free values drawn. Everything else is their frame. -/

namespace Sys2Proof.Machine

/-- Everything of a state but the in-flight table, the lanes, the Key Cache, the messages sent and the free values drawn. -/
def transferFrame (s : State) : State :=
  { s with inflight := tab32 fun _ => none, lanes := tab4 fun _ => idleLane, cache := tab16 fun _ => emptyKey, shadowEntry := emptyKey
           sent := [], entropy := 0 }

theorem frame_setTransfer (s : State) (t : Tag) (x : Option Transfer) : transferFrame (s.setTransfer t x) = transferFrame s := rfl
theorem frame_setLane (s : State) (l : LaneId) (x : Lane) : transferFrame (s.setLane l x) = transferFrame s := rfl
theorem frame_say (s : State) (m : Sent) : transferFrame (s.say m) = transferFrame s := rfl
theorem frame_draw (s : State) : transferFrame s.draw.2 = transferFrame s := rfl
theorem frame_modKey (s : State) (o : Owner) (f : KeyEntry → KeyEntry) : transferFrame (s.modKey o f) = transferFrame s := by
  cases o <;> rfl
theorem frame_releaseRefs (s : State) (l : List Owner) : transferFrame (s.releaseRefs l) = transferFrame s :=
  forEach_keeps transferFrame _ (fun o s => frame_modKey s o _) l s
theorem frame_addRefs (s : State) (l : List Owner) : transferFrame (s.addRefs l) = transferFrame s :=
  forEach_keeps transferFrame _ (fun o s => frame_modKey s o _) l s

theorem frame_discardWaiting (s : State) (t : Tag) : transferFrame (s.discardWaiting t) = transferFrame s := by
  unfold State.discardWaiting; split
  · rfl
  · exact frame_releaseRefs _ _

theorem frame_endSegment (s : State) (t : Tag) (i : Nat) (step : SegStep) : transferFrame (s.endSegment t i step) = transferFrame s := by
  unfold State.endSegment; split
  · rfl
  · exact frame_releaseRefs _ _

theorem frame_endTransfer (s : State) (t : Tag) (x : TransferState) : transferFrame (s.endTransfer t x) = transferFrame s := by
  unfold State.endTransfer; split
  · rfl
  · exact frame_releaseRefs _ _

theorem frame_reportStop (s : State) (l : LaneId) : transferFrame (s.reportStop l) = transferFrame s := by
  unfold State.reportStop; dsimp only; split
  · exact (frame_endTransfer _ _ _).trans (frame_endSegment _ _ _ _)
  · rfl

theorem frame_reportIfStopped (s : State) (l : LaneId) : transferFrame (s.reportIfStopped l) = transferFrame s := by
  unfold State.reportIfStopped; split
  · exact frame_reportStop s l
  · rfl

theorem frame_stopLane (s : State) (l : LaneId) : transferFrame (s.stopLane l) = transferFrame s := frame_reportIfStopped _ l

theorem frame_abortTransfer (s : State) (t : Tag) (r : AbortReason) : transferFrame (s.abortTransfer t r) = transferFrame s := by
  unfold State.abortTransfer; split
  · rfl
  · dsimp only; split
    · exact (frame_stopLane _ _).trans (frame_releaseRefs _ _)
    · exact (frame_endTransfer _ _ _).trans (frame_releaseRefs _ _)

/-- An abort of an owner touches transfers, lanes and keys only (R37). -/
theorem frame_abortOwner (s : State) (o : Owner) (r : AbortReason) : transferFrame (s.abortOwner o r) = transferFrame s := by
  have swept : ∀ l : List Tag, transferFrame (forEach l (fun t s =>
      match s.inflight[t] with
      | some x => if x.live ∧ x.segments.any (fun g => g.owner = o) then s.abortTransfer t (x.firstReason r) else s
      | none => s) s) = transferFrame s := fun l => forEach_keeps transferFrame _ (fun t s => by
    split
    · split
      · exact frame_abortTransfer s _ _
      · rfl
    · rfl) l s
  unfold State.abortOwner
  have key : ∀ u : State, transferFrame (u.setKey o emptyKey) = transferFrame u := fun u => by cases o <;> rfl
  exact (key _).trans (swept allTags)

/-- RESET-PART's abort of every transfer touches transfers, lanes and keys only (R156). -/
theorem frame_abortAll (s : State) : transferFrame s.abortAll = transferFrame s :=
  forEach_keeps transferFrame _ (fun t s => by
    split
    · exact frame_abortTransfer s _ _
    · rfl) allTags s

theorem frame_issueOne (s : State) (l : LaneId) : transferFrame (s.issueOne l) = transferFrame s := by
  unfold State.issueOne; split
  · split
    · split
      · split
        · unfold State.issueBlock; dsimp only; split <;> rfl
        · rfl
      · rfl
    · rfl
  · rfl

theorem frame_fillLane (s : State) (l : LaneId) : transferFrame (s.fillLane l) = transferFrame s :=
  forEach_keeps transferFrame _ (fun _ s => frame_issueOne s l) _ s

theorem frame_completeSegment (s : State) (l : LaneId) (t : Tag) (i : Nat) :
    transferFrame (s.completeSegment l t i) = transferFrame s := by
  unfold State.completeSegment; dsimp only; split
  · exact frame_endSegment _ _ _ _
  · split
    · split
      · exact (frame_endTransfer _ _ _).trans (frame_endSegment _ _ _ _)
      · exact frame_endSegment _ _ _ _
    · exact (frame_endTransfer _ _ _).trans (frame_endSegment _ _ _ _)
    · exact frame_endSegment _ _ _ _

theorem frame_failSegment (s : State) (l : LaneId) (t : Tag) (i : Nat) : transferFrame (s.failSegment l t i) = transferFrame s := by
  have stopped : ∀ x, transferFrame (((s.setLane l x).endSegment t i .stopped).discardWaiting t) = transferFrame s := fun x =>
    (frame_discardWaiting _ _).trans (frame_endSegment _ _ _ _)
  unfold State.failSegment; dsimp only; split
  · exact stopped _
  · split <;> exact (frame_endTransfer _ _ _).trans (stopped _)

theorem frame_failIfReady (s : State) (l : LaneId) (t : Tag) (i : Nat) : transferFrame (s.failIfReady l t i) = transferFrame s := by
  unfold State.failIfReady; split
  · rfl
  · split
    · split
      · exact frame_failSegment s l t i
      · rfl
    · rfl

theorem frame_moveBlock (s : State) (l : LaneId) (t : Tag) (i : Nat) : transferFrame (s.moveBlock l t i) = transferFrame s := by
  unfold State.moveBlock; split
  · rfl
  · split
    · rfl
    · dsimp only; split
      · exact frame_completeSegment _ _ _ _
      · exact (frame_failIfReady _ _ _ _).trans (frame_fillLane _ _)

/-- An answer of the media controller for a transfer segment touches transfers, lanes and keys only (R38). -/
theorem frame_answerTransfer (s : State) (l : LaneId) (t : Tag) (i : Nat) (d : List Byte) :
    transferFrame (s.answerTransfer l t i d) = transferFrame s := by
  unfold State.answerTransfer; split
  · rfl
  · dsimp only; split
    · exact frame_reportIfStopped _ _
    · split
      · rfl
      · split
        · split <;> rfl
        · split
          · exact frame_failIfReady _ _ _ _
          · exact frame_moveBlock _ _ _ _

/-- A delivery of a read block touches transfers, lanes and keys only (R38). -/
theorem frame_deliverTransfer (s : State) (l : LaneId) (t : Tag) (i : Nat) :
    transferFrame (s.deliverTransfer l t i) = transferFrame s := by
  unfold State.deliverTransfer; split
  · rfl
  · split
    · rfl
    · split
      · rfl
      · split
        · exact frame_moveBlock _ _ _ _
        · split
          · rfl
          · exact frame_moveBlock _ _ _ _

/-- A media error for a transfer segment touches transfers, lanes and keys only (R42). -/
theorem frame_errorTransfer (s : State) (l : LaneId) (t : Tag) (i n : Nat) :
    transferFrame (s.errorTransfer l t i n) = transferFrame s := by
  unfold State.errorTransfer; split
  · rfl
  · split
    · rfl
    · dsimp only; split
      · exact frame_reportIfStopped _ _
      · split
        · exact frame_failIfReady _ _ _ _
        · split
          · rfl
          · exact frame_failIfReady _ _ _ _

/-- CANCEL touches transfers, lanes and keys only (R43). -/
theorem frame_cancel (s : State) (tag : Byte) : transferFrame (s.cancel tag) = transferFrame s := by
  have running : ∀ (s : State) t x, transferFrame (s.cancelRunning t x) = transferFrame s := by
    intro s t x; unfold State.cancelRunning; dsimp only; split
    · split <;> exact frame_discardWaiting _ _
    · exact (frame_endTransfer _ _ _).trans (frame_discardWaiting _ _)
  unfold State.cancel; split
  · rfl
  · split
    · rfl
    · dsimp only; split
      · exact running _ _ _
      · rfl

/-! ### References on a key entry (R36) -/

theorem release_released (e : KeyEntry) (n : Nat) : (e.release).released n = e.released (n + 1) := by
  cases e with
  | mk state material generation refs =>
    have sub : refs - (n + 1) = refs - 1 - n := by omega
    cases state with
    | empty => simp [KeyEntry.release, KeyEntry.released, sub]
    | live => simp [KeyEntry.release, KeyEntry.released, sub]
    | draining =>
      by_cases h : refs - 1 = 0
      · simp [KeyEntry.release, KeyEntry.released, KeyEntry.erase, emptyKey, sub, h]
      · simp only [KeyEntry.release, KeyEntry.released, sub, h, false_and, if_false]
        by_cases k : refs - 1 - n = 0
        · have : n ≠ 0 := by omega
          simp [k, this]
        · simp [k]

/-- A change of one owner's entry changes no other. -/
theorem key_modKey (s : State) (o p : Owner) (f : KeyEntry → KeyEntry) :
    (s.modKey o f).key p = if o = p then f (s.key p) else s.key p := by
  cases o <;> cases p <;> simp [State.modKey, State.setKey, State.key, Vector.getElem_set, Fin.ext_iff]
  split <;> simp_all

/-- References released one after the other: each lowers its entry's count, and a DRAINING entry that reaches 0 is erased (R36). -/
theorem releaseRefs_key (l : List Owner) (s : State) (o : Owner) : (s.releaseRefs l).key o = (s.key o).released (l.count o) := by
  induction l generalizing s with
  | nil => simp [State.releaseRefs, forEach, KeyEntry.released]
  | cons p l ih =>
    have step : s.releaseRefs (p :: l) = (s.modKey p KeyEntry.release).releaseRefs l := rfl
    rw [step, ih, key_modKey]
    by_cases h : p = o
    · subst h; simp [release_released]
    · simp [h]
/-! ### What a lane issues (R38) -/

theorem forEach_range_succ (n : Nat) (f : State → State) (s : State) :
    forEach (List.range (n + 1)) (fun _ s => f s) s = f (forEach (List.range n) (fun _ s => f s) s) := by
  simp [forEach, List.range_succ]

/-- The blocks for which a lane has issued media operations after `k` rounds. -/
def Lane.ahead (lane : Lane) (g : Segment) (window k : Nat) : List Nat :=
  let under := lane.fetched.length + lane.issued.length
  if lane.stopping = true ∨ lane.failing.isSome = true ∨ g.disposition = .zero then []
  else List.range' (g.first + g.progress + under) (min k (min (g.count - (g.progress + under)) (window - under)))

/-- The state after a lane has issued the media operations of these blocks. -/
def State.withIssued (s : State) (l : LaneId) (d : Direction) (g : Segment) (blocks : List Nat) : State :=
  { s with lanes := s.lanes.set l { s.lanes[l] with issued := s.lanes[l].issued ++ blocks }, sent := s.sent ++ s.mediaOps l d g blocks
           entropy := s.entropy + match d with
             | .read => 0
             | .write => blocks.length }

theorem withIssued_nil (s : State) (l : LaneId) (d : Direction) (g : Segment) : s.withIssued l d g [] = s := by
  have e : s.lanes.set l { s.lanes[l] with issued := s.lanes[l].issued ++ [] } = s.lanes := by
    rw [List.append_nil]; exact Vector.set_getElem_self l.isLt
  unfold State.withIssued; rw [e]
  cases d <;> simp [State.mediaOps]

theorem withIssued_issue (s : State) (l : LaneId) (x : Transfer) (g : Segment) (blocks : List Nat) (n : Nat) :
    (s.withIssued l x.direction g blocks).issueBlock l x g n = s.withIssued l x.direction g (blocks ++ [n]) := by
  have lba : (s.withIssued l x.direction g blocks).mediaLba g.owner n = s.mediaLba g.owner n := by cases g.owner <;> rfl
  have key : (s.withIssued l x.direction g blocks).laneKey g.owner = s.laneKey g.owner := by cases g.owner <;> rfl
  have lane : ((s.withIssued l x.direction g blocks).lanes.set l
      { (s.withIssued l x.direction g blocks).lanes[l] with issued := (s.withIssued l x.direction g blocks).lanes[l].issued ++ [n] }) =
      s.lanes.set l { s.lanes[l] with issued := s.lanes[l].issued ++ (blocks ++ [n]) } := by simp [State.withIssued]
  unfold State.issueBlock State.setLane State.say State.draw
  rw [lane]
  cases d : x.direction <;> rw [d] at lba key
  · show { s with lanes := _, sent := _, entropy := _ } = ({ s with lanes := _, sent := _, entropy := _ } : State)
    congr 1
    show s.sent ++ _ ++ [Sent.mediaRead l ((s.withIssued l .read g blocks).mediaLba g.owner n)] = _
    rw [lba]; simp [State.mediaOps]
  · show { s with lanes := _, sent := _, entropy := _ } = ({ s with lanes := _, sent := _, entropy := _ } : State)
    congr 1
    · show s.entropy + blocks.length + 1 = s.entropy + (blocks ++ [n]).length
      simp [Nat.add_assoc]
    · show s.sent ++ _ ++ [Sent.mediaWrite l ((s.withIssued l .write g blocks).mediaLba g.owner n)
        (overUnits Config.encipher ((s.withIssued l .write g blocks).laneKey g.owner) g.tweakBase s.profile.blockSize n
          (Config.hostBlock (s.entropy + blocks.length)))] = _
      rw [lba, key]; simp [State.mediaOps, List.mapIdx_append]

/-- `k` rounds of a lane that works a transfer segment. -/
theorem issue_rounds (s : State) (l : LaneId) (t : Tag) (i : Nat) (x : Transfer) (g : Segment) (k : Nat)
    (task : s.lanes[l].task = some (.transfer t i)) (entry : s.inflight[t] = some x) (segment : x.segments[i]? = some g) :
    forEach (List.range k) (fun _ s => s.issueOne l) s = s.withIssued l x.direction g (s.lanes[l].ahead g s.laneWindow k) := by
  induction k with
  | zero =>
    have e : s.lanes[l].ahead g s.laneWindow 0 = [] := by simp [Lane.ahead]
    rw [e, withIssued_nil]; rfl
  | succ k ih =>
    rw [forEach_range_succ, ih]
    generalize hb : s.lanes[l].ahead g s.laneWindow k = blocks
    have lane : (s.withIssued l x.direction g blocks).lanes[l] = { s.lanes[l] with issued := s.lanes[l].issued ++ blocks } := by
      simp [State.withIssued]
    unfold State.issueOne
    rw [lane]
    simp only [task]
    rw [show (s.withIssued l x.direction g blocks).inflight = s.inflight from rfl, entry]
    simp only [segment]
    rw [show (s.withIssued l x.direction g blocks).laneWindow = s.laneWindow from rfl]
    unfold Lane.nextBlock
    simp only [Lane.ahead] at hb ⊢
    by_cases z : s.lanes[l].stopping = true ∨ s.lanes[l].failing.isSome = true ∨ g.disposition = .zero
    · rw [if_pos z] at hb
      have : ¬ (s.lanes[l].stopping = false ∧ s.lanes[l].failing = none ∧ g.disposition ≠ .zero) := by
        rintro ⟨a, b, c⟩; rcases z with z | z | z <;> simp_all
      subst hb
      rw [if_pos z]
      split
      · rename_i h; split at h
        · rename_i c; exact absurd ⟨c.1, c.2.1, c.2.2.1⟩ this
        · cases h
      · rfl
    · rw [if_neg z] at hb ⊢
      have z' : s.lanes[l].stopping = false ∧ s.lanes[l].failing = none ∧ g.disposition ≠ .zero := by
        refine ⟨?_, ?_, ?_⟩
        · cases h : s.lanes[l].stopping <;> simp_all
        · cases h : s.lanes[l].failing <;> simp_all
        · intro h; simp_all
      have len : blocks.length = min k (min (g.count - (g.progress + (s.lanes[l].fetched.length + s.lanes[l].issued.length)))
          (s.laneWindow - (s.lanes[l].fetched.length + s.lanes[l].issued.length))) := by rw [← hb]; simp
      simp only [z'.1, z'.2.1, true_and, List.length_append, len]
      generalize hm : min (g.count - (g.progress + (s.lanes[l].fetched.length + s.lanes[l].issued.length)))
          (s.laneWindow - (s.lanes[l].fetched.length + s.lanes[l].issued.length)) = m at *
      by_cases km : k < m
      · have e1 : min k m = k := by omega
        have e2 : min (k + 1) m = k + 1 := by omega
        rw [e1] at hb
        rw [e1, e2, if_pos ⟨z'.2.2, by omega, by omega⟩, List.range'_concat, hb]
        rw [show g.first + g.progress + s.lanes[l].fetched.length + (s.lanes[l].issued.length + k) =
            g.first + g.progress + (s.lanes[l].fetched.length + s.lanes[l].issued.length) + 1 * k by omega]
        exact withIssued_issue s l x g blocks _
      · have e1 : min k m = m := by omega
        have e2 : min (k + 1) m = m := by omega
        rw [e1] at hb
        rw [e1, e2, if_neg (by omega), hb]

/-- What filling a lane does: it issues the media operations of `State.issues`, and nothing else changes (R38). -/
theorem fillLane_eq (s : State) (l : LaneId) (t : Tag) (i : Nat) (x : Transfer) (g : Segment)
    (task : s.lanes[l].task = some (.transfer t i)) (entry : s.inflight[t] = some x) (segment : x.segments[i]? = some g) :
    s.fillLane l = s.withIssued l x.direction g (s.issues s.lanes[l] g) := by
  rw [show s.issues s.lanes[l] g = s.lanes[l].ahead g s.laneWindow s.laneWindow by
    simp only [State.issues, Lane.ahead]; congr 2; omega]
  exact issue_rounds s l t i x g s.laneWindow task entry segment

end Sys2Proof.Machine
end

