-- ==== Sys2Proof/Laws/Wire.lean ====
section
/-! SUPPORT. Laws/Wire.lean: numbers in bytes, the fields of a body and the sum of a page, read back from what was written (10.5). -/

namespace Sys2Proof

theorem bytesOf_length (k n : Nat) : (bytesOf k n).length = k := by
  induction k with
  | zero => rfl
  | succ k ih => simp [bytesOf, ih]

theorem foldl_bigEndian (l : List Byte) (m : Nat) :
    l.foldl (fun n b => n * 256 + b.toNat) m = m * 256 ^ l.length + bigEndian l := by
  induction l generalizing m with
  | nil => simp [bigEndian]
  | cons b l ih =>
    simp only [bigEndian, List.foldl_cons, List.length_cons]
    rw [ih, ih (0 * 256 + b.toNat), pow_succ]; ring

/-- A number written in `k` bytes is read back modulo 256 to the `k`. -/
theorem bigEndian_bytesOf (k n : Nat) : bigEndian (bytesOf k n) = n % 256 ^ k := by
  induction k with
  | zero => simp [bytesOf, bigEndian, Nat.mod_one]
  | succ k ih =>
    show List.foldl _ _ _ = _
    have split : n % 256 ^ (k + 1) = n % 256 ^ k + 256 ^ k * (n / 256 ^ k % 256) := by rw [pow_succ, Nat.mod_mul]
    rw [bytesOf, List.foldl_cons, foldl_bigEndian, bytesOf_length, ih, BitVec.toNat_ofNat, split, Nat.zero_mul, Nat.zero_add,
      show (2 : Nat) ^ 8 = 256 from rfl, Nat.mul_comm, Nat.add_comm]

/-! ### Fields of a body (R162) -/

theorem numberBytes_length (kind place top n : Nat) :
    (Machine.numberBytes kind place top n).length = Machine.fieldWidth kind place top := bytesOf_length _ _

/-- The width of a number that must hold `top` is the least that does, or one of 1 to 4 bytes that is larger (log 14). -/
theorem fieldWidth_range (kind place top : Nat) :
    Machine.leastWidth top ≤ Machine.fieldWidth kind place top ∧
      Machine.fieldWidth kind place top ≤ max (Machine.leastWidth top) 4 := by
  have := (Config.fieldWidth kind place).isLt
  unfold Machine.fieldWidth
  omega

/-- The least width of a number holds every value up to its top. -/
theorem lt_leastWidth (n top : Nat) (h : n ≤ top) : n < 256 ^ Machine.leastWidth top := by
  have bits : top.log2 + 1 ≤ 8 * Machine.leastWidth top := by unfold Machine.leastWidth; omega
  calc n ≤ top := h
    _ < 2 ^ (top.log2 + 1) := Nat.lt_log2_self
    _ ≤ 2 ^ (8 * Machine.leastWidth top) := Nat.pow_le_pow_right (by decide) bits
    _ = 256 ^ Machine.leastWidth top := Nat.pow_mul 2 8 _

/-- A place holds every value it must hold (R170). -/
theorem lt_width (kind place n top : Nat) (h : n ≤ top) : n < 256 ^ Machine.fieldWidth kind place top :=
  Nat.lt_of_lt_of_le (lt_leastWidth n top h) (Nat.pow_le_pow_right (by decide) (fieldWidth_range kind place top).1)

/-- Every width holds the values of a byte. -/
theorem lt_width_byte (kind place top n : Nat) (h : n < 256) : n < 256 ^ Machine.fieldWidth kind place top :=
  Nat.lt_of_lt_of_le h (Nat.le_self_pow (by unfold Machine.fieldWidth; omega) 256)

/-- A number that its width holds is read back. -/
theorem readNumber_numberBytes (kind place hi n : Nat) (l : List Byte) (h : n < 256 ^ Machine.fieldWidth kind place (hi + 1)) :
    Machine.readNumber kind place hi (Machine.numberBytes kind place (hi + 1) n ++ l) = some (n, l) := by
  simp [Machine.readNumber, Machine.takeBytes, Machine.numberBytes, bytesOf_length, bigEndian_bytesOf, Nat.mod_eq_of_lt h]

/-- Entries that are read back one by one are read back in a row. -/
theorem readTimes_flatMap {α : Type} (r : Machine.Reader α) (f : α → List Byte) (rest : List Byte) :
    ∀ l : List α, (∀ a ∈ l, ∀ rest, r (f a ++ rest) = some (a, rest)) →
      Machine.readTimes r l.length (l.flatMap f ++ rest) = some (l, rest)
  | [], _ => rfl
  | a :: l, h => by
    simp [Machine.readTimes, h a, readTimes_flatMap r f rest l (fun b m => h b (List.mem_cons_of_mem a m))]

/-- A list is read back: its count, then its entries (R162). -/
theorem readList_listBytes {α : Type} (kind place hi : Nat) (r : Machine.Reader α) (f : α → List Byte) (l : List α) (rest : List Byte)
    (count : l.length < 256 ^ Machine.fieldWidth kind place (hi + 1)) (entries : ∀ a ∈ l, ∀ rest, r (f a ++ rest) = some (a, rest)) :
    Machine.readList kind place hi r (Machine.listBytes kind place (hi + 1) f l ++ rest) = some (l, rest) := by
  simp [Machine.readList, Machine.listBytes, List.append_assoc, readNumber_numberBytes _ _ _ _ _ count, readTimes_flatMap r f rest l entries]

/-- A mark of 0 is an absent field, and nothing follows it (R168). -/
@[simp] theorem readOptional_absent {α : Type} (r : Machine.Reader α) (l : List Byte) :
    Machine.readOptional r (0#8 :: l) = some (none, l) := rfl

/-- Any other mark is ahead of the field (R162). -/
theorem readOptional_present {α : Type} (r : Machine.Reader α) (mark : Byte) (l : List Byte) (h : mark ≠ 0) :
    Machine.readOptional r (mark :: l) = (r l).map (fun p => (some p.1, p.2)) := by
  simp only [Machine.readOptional, Machine.readMark, Option.bind_eq_bind, Option.bind_some, h, ne_eq, not_false_eq_true, decide_true, if_true]
  cases r l <;> rfl

/-- The mark the part sends of a present value is not 0 (R168). -/
theorem presentMark_ne_zero : Machine.presentMark ≠ 0 := by
  have h := Config.presentMark.isLt
  intro e
  have := congrArg BitVec.toNat e
  simp [Machine.presentMark] at this
  omega

/-! ### The size of a reply's body (R162) -/

/-- A number that 4 bytes hold takes at most 4. -/
theorem numberBytes_small (kind place top n : Nat) (h : top < 2 ^ 32) : (Machine.numberBytes kind place top n).length ≤ 4 := by
  have least : Machine.leastWidth top ≤ 4 := by
    have : top.log2 < 32 := by
      rcases Nat.eq_zero_or_pos top with rfl | p
      · decide
      · exact (Nat.log2_lt (by omega)).2 h
    unfold Machine.leastWidth; omega
  have := (fieldWidth_range kind place top).2
  rw [numberBytes_length]; omega

/-- A named value takes at most 4 bytes (log 14). -/
theorem namedBytes_length {α : Type} (kind place : Nat) (a : α) : (Machine.namedBytes kind place a).length ≤ 4 :=
  numberBytes_small _ _ _ _ (by decide)

theorem optionalBytes_length {α : Type} (f : α → List Byte) (n : Nat) (h : ∀ a, (f a).length ≤ n) (x : Option α) :
    (Machine.optionalBytes f x).length ≤ n + 1 := by
  cases x with
  | none => simp [Machine.optionalBytes]
  | some a => have := h a; simp only [Machine.optionalBytes, List.length_cons]; omega

theorem flatMap_length {α : Type} (f : α → List Byte) (n m : Nat) (h : ∀ a, (f a).length ≤ n) (l : List α) (len : l.length ≤ m) :
    (l.flatMap f).length ≤ m * n := by
  have bound : (l.flatMap f).length ≤ l.length * n := by
    clear len
    induction l with
    | nil => simp
    | cons a l ih => have := h a; simp only [List.flatMap_cons, List.length_append, List.length_cons, Nat.add_mul]; omega
  exact le_trans bound (Nat.mul_le_mul_right n len)

theorem listBytes_length {α : Type} (kind place top : Nat) (f : α → List Byte) (n m : Nat) (small : top < 2 ^ 32)
    (h : ∀ a, (f a).length ≤ n) (l : List α) (len : l.length ≤ m) : (Machine.listBytes kind place top f l).length ≤ 4 + m * n := by
  have := flatMap_length f n m h l len
  have := numberBytes_small kind place top l.length small
  simp only [Machine.listBytes, List.length_append]; omega

theorem namedList_length {α : Type} (kind place top : Nat) (small : top < 2 ^ 32) (inner : Nat) (l : List α) (m : Nat) (len : l.length ≤ m) :
    (Machine.listBytes kind place top (Machine.namedBytes kind inner) l).length ≤ 4 + m * 4 :=
  listBytes_length _ _ _ _ _ _ small (fun a => namedBytes_length _ _ a) l len

theorem members_length (d : Machine.DirSet) : d.members.length ≤ 2 := by
  obtain ⟨r, w⟩ := d; cases r <;> cases w <;> decide

theorem placesBytes_length (kind place : Nat) (o : Option Nat) :
    (Machine.optionalBytes (Machine.numberBytes kind place Config.stagedMax) o).length ≤ 7 :=
  optionalBytes_length _ 6 (fun n => by
    have := (fieldWidth_range kind place Config.stagedMax).2
    rw [numberBytes_length]; have : Machine.leastWidth Config.stagedMax = 6 := by decide +kernel
    omega) o

theorem eventBytes_length (kind place : Nat) (l : List Machine.EventKind) (len : l.length ≤ 14) :
    (Machine.eventBytes kind place l).length ≤ 60 :=
  listBytes_length kind place 14 (fun k : Machine.EventKind => Machine.numberBytes kind (place + 1) 14 k.code) 4 14 (by decide)
    (fun _ => numberBytes_small _ _ _ _ (by decide)) l len

theorem rangeList_length (kind place top inner : Nat) (small : top < 2 ^ 32) (l : List RangeId) (len : l.length ≤ 16) :
    (Machine.listBytes kind place top (Machine.rangeBytes kind inner) l).length ≤ 68 :=
  listBytes_length kind place top _ 4 16 small (fun r : RangeId => numberBytes_small kind inner 15 r.val (by decide)) l len

theorem slotsBytes_length (kind place : Nat) (l : List SlotId) (len : l.length ≤ 8) :
    (Machine.slotsBytes kind place l).length ≤ 36 :=
  listBytes_length kind place 8 _ 4 8 (by decide) (fun i : SlotId => numberBytes_small kind (place + 1) 7 i.val (by decide)) l len

theorem rangeReportBytes_length (kind place : Nat) (r : Machine.RangeReport) : (Machine.rangeReportBytes kind place r).length ≤ 12 := by
  have := namedBytes_length kind place r.service
  have := namedBytes_length kind (place + 1) r.readLocked
  have := namedBytes_length kind (place + 2) r.writeLocked
  simp only [Machine.rangeReportBytes, List.length_append]; omega

theorem planBytes_length (kind place : Nat) (p : Machine.PlanSummary) : (Machine.planBytes kind place p).length ≤ 28 := by
  have := numberBytes_small kind place 17 p.items (by decide)
  have := optionalBytes_length
    (fun i : Machine.WipeItem => Machine.namedBytes kind (place + 1) i.target ++ Machine.namedBytes kind (place + 2) i.step) 8 (fun i => by
      have := namedBytes_length kind (place + 1) i.target
      have := namedBytes_length kind (place + 2) i.step
      simp only [List.length_append]; omega) p.current
  have := optionalBytes_length (Machine.numberBytes kind (place + 3) (2 ^ 40)) 6 (fun n => by
    have := (fieldWidth_range kind (place + 3) (2 ^ 40)).2
    have : Machine.leastWidth (2 ^ 40) = 6 := by decide +kernel
    rw [numberBytes_length]; omega) p.cursor
  have := namedBytes_length kind (place + 4) p.overwrite
  have := namedBytes_length kind (place + 5) p.full
  simp only [Machine.planBytes, List.length_append]; omega

theorem policyBytes_length (kind place : Nat) (p : Policy) : (Machine.policyBytes kind place p).length ≤ 16 := by
  have := numberBytes_small kind place 20 p.e (by decide)
  have := numberBytes_small kind (place + 1) 7 p.free (by decide)
  have := numberBytes_small kind (place + 2) 255 p.base (by decide)
  have := numberBytes_small kind (place + 3) 31 p.limit (by decide)
  simp only [Machine.policyBytes, List.length_append]; omega

theorem triggerEntryBytes_length (kind place : Nat) (e : Machine.TriggerEntry) : (Machine.triggerEntryBytes kind place e).length ≤ 8 := by
  have := namedBytes_length kind place e.action
  have := namedBytes_length kind (place + 1) e.autoResume
  simp only [Machine.triggerEntryBytes, List.length_append]; omega

/-- STATUS, the longest reply, takes at most 437 bytes after its code. -/
theorem statusBytes_length (kind : Nat) (r : Machine.StatusReport) (h : (Machine.Payload.status r).bounded) :
    (Machine.statusBytes kind r).length ≤ 437 := by
  obtain ⟨ranges, pending, enabled, causes, detail⟩ := h
  have := flatMap_length (Machine.rangeReportBytes kind 13) 12 16 (fun x => rangeReportBytes_length _ _ x) r.ranges ranges
  have := eventBytes_length kind 24 r.pending pending
  have := eventBytes_length kind 26 r.enabled enabled
  have := namedList_length kind 5 4 (by decide) 6 r.lockdown.causes 4 causes
  have := namedList_length kind 28 4 (by decide) 29 r.detail 4 detail
  have := optionalBytes_length
    (fun h : SlotId × Machine.Role => Machine.numberBytes kind 11 7 h.1.val ++ Machine.namedBytes kind 12 h.2) 8 (fun h => by
      have := numberBytes_small kind 11 7 h.1.val (by decide)
      have := namedBytes_length kind 12 h.2
      simp only [List.length_append]; omega) r.holder
  have := planBytes_length kind 18 r.plan
  have := namedBytes_length kind 0 r.part
  have := namedBytes_length kind 1 r.cause
  have := namedBytes_length kind 2 r.rollbackFound
  have := namedBytes_length kind 3 r.attemptCharged
  have := namedBytes_length kind 4 r.lockdown.device
  have := namedBytes_length kind 7 r.binding
  have := namedBytes_length kind 8 r.bay
  have := namedBytes_length kind 9 r.latchedOpen
  have := namedBytes_length kind 10 r.shadow
  have := numberBytes_small kind 16 255 r.g (by decide)
  have := numberBytes_small kind 17 (2 ^ 32 - 1) r.tableGeneration.toNat (by decide)
  have := numberBytes_small kind 30 32 r.inFlight (by decide)
  simp only [Machine.statusBytes, List.length_append]
  omega

theorem rangeReadBytes_length (kind : Nat) (r : Machine.RangeReadReport) (h : (Machine.Payload.rangeRead r).bounded) :
    (Machine.rangeReadBytes kind r).length ≤ 200 := by
  have := slotsBytes_length kind 13 r.committed.access h.1
  have := slotsBytes_length kind 24 r.staged.fields.access h.2
  have places := placesBytes_length kind
  have := places 1 r.start
  have := places 2 r.length
  have := places 16 (if r.number = 0 then none else some r.staged.fields.start)
  have := places 17 (if r.number = 0 then none else some r.staged.fields.length)
  have : (Machine.numberBytes kind 9 (2 ^ 64 - 1) r.tweakOrigin.toNat).length ≤ 8 := by
    have := (fieldWidth_range kind 9 (2 ^ 64 - 1)).2
    have : Machine.leastWidth (2 ^ 64 - 1) = 8 := by decide +kernel
    rw [numberBytes_length]; omega
  have := numberBytes_small kind 0 15 r.number.val (by decide)
  have := numberBytes_small kind 8 4096 r.committed.unitSize (by decide)
  have := numberBytes_small kind 10 (2 ^ 32 - 1) r.generation.toNat (by decide)
  have := numberBytes_small kind 21 4096 r.staged.fields.unitSize (by decide)
  have := numberBytes_small kind 27 (2 ^ 32 - 1) r.tableGeneration.toNat (by decide)
  have := namedBytes_length kind 3 r.committed.readLock
  have := namedBytes_length kind 4 r.committed.writeLock
  have := namedBytes_length kind 5 r.readLocked
  have := namedBytes_length kind 6 r.writeLocked
  have := namedBytes_length kind 7 r.committed.lockedRead
  have := namedBytes_length kind 11 r.committed.sleep
  have := namedBytes_length kind 12 r.committed.response
  have := namedBytes_length kind 15 r.service
  have := namedBytes_length kind 18 r.staged.fields.readLock
  have := namedBytes_length kind 19 r.staged.fields.writeLock
  have := namedBytes_length kind 20 r.staged.fields.lockedRead
  have := namedBytes_length kind 22 r.staged.fields.sleep
  have := namedBytes_length kind 23 r.staged.fields.response
  have := namedBytes_length kind 26 r.staged.newKey
  simp only [Machine.rangeReadBytes, Machine.committedBytes, Machine.stagedBytes, Machine.rangeBytes, List.length_append]
  omega

theorem authenticatedBytes_length (kind : Nat) (role : Machine.Role) (applied : List Machine.Unlock)
    (skipped : List (RangeId × Machine.Code)) (h : (Machine.Payload.authenticated role applied skipped).bounded) :
    (Machine.authenticatedBytes kind role applied skipped).length ≤ 400 := by
  have := namedBytes_length kind 0 role
  have := listBytes_length kind 1 16 (fun u : Machine.Unlock => Machine.rangeBytes kind 2 u.range ++
      Machine.listBytes kind 3 2 (Machine.namedBytes kind 4) u.dirs.members) 16 16 (by decide) (fun u => by
    have := numberBytes_small kind 2 15 u.range.val (by decide)
    have := namedList_length kind 3 2 (by decide) 4 u.dirs.members 2 (members_length _)
    simp only [Machine.rangeBytes, List.length_append]; omega) applied h.1
  have := listBytes_length kind 5 16 (fun p : RangeId × Machine.Code => Machine.rangeBytes kind 6 p.1 ++ [p.2.byte]) 5 16
    (by decide) (fun p => by
      have := numberBytes_small kind 6 15 p.1.val (by decide)
      simp only [Machine.rangeBytes, List.length_append, List.length_singleton]; omega) skipped h.2
  simp only [Machine.authenticatedBytes, List.length_append]; omega

/-- Every reply keeps its body to 512 bytes: the code and at most 437 bytes behind it (R162). -/
theorem payloadBytes_length (kind : Nat) (code : Machine.Code) (p : Machine.Payload) (h : p.bounded) :
    (Machine.payloadBytes kind code p).length ≤ 437 := by
  have n := fun place top n (small : top < 2 ^ 32) => numberBytes_small kind place top n small
  have o := fun place top x (small : top < 2 ^ 32) => optionalBytes_length (Machine.numberBytes kind place top) 4 (fun a => n place top a small) x
  cases p with
  | status r => exact statusBytes_length kind r h
  | rangeRead r => exact le_trans (rangeReadBytes_length kind r h) (by decide)
  | authenticated role applied skipped => exact le_trans (authenticatedBytes_length kind role applied skipped h) (by decide)
  | none => simp [Machine.payloadBytes]
  | failed a b =>
    have := o 0 31 a (by decide); have := o 1 36000 b (by decide)
    simp only [Machine.payloadBytes, List.length_append]; omega
  | retryAfter a => exact le_trans (n 0 36000 a (by decide)) (by decide)
  | range r =>
    have r4 : ∀ r : RangeId, (Machine.rangeBytes kind 0 r).length ≤ 4 := fun r => n 0 15 r.val (by decide)
    have := optionalBytes_length (Machine.rangeBytes kind 0) 4 r4 r
    simp only [Machine.payloadBytes, Machine.concernedBytes]
    split
    · exact le_trans (r4 _) (by decide)
    · exact le_trans (r4 _) (by decide)
    · omega
  | locks a b =>
    have := namedBytes_length kind 0 a; have := namedBytes_length kind 1 b
    simp only [Machine.payloadBytes, List.length_append]; omega
  | generation g => exact le_trans (n 0 (2 ^ 32 - 1) g.toNat (by decide)) (by decide)
  | credSet policy dropped =>
    have := policyBytes_length kind 0 policy; have := rangeList_length kind 4 16 5 (by decide) dropped h
    simp only [Machine.payloadBytes, List.length_append]; omega
  | credPolicy policy failures idleLimit =>
    have := n 0 7 policy.free (by decide); have := n 1 255 policy.base (by decide); have := n 2 31 policy.limit (by decide)
    have := n 3 31 failures (by decide); have := n 4 20 policy.e (by decide); have := n 5 3600 idleLimit (by decide)
    simp only [Machine.payloadBytes, List.length_append]; omega
  | credState state failures =>
    have := namedBytes_length kind 0 state; have := n 1 31 failures (by decide)
    simp only [Machine.payloadBytes, List.length_append]; omega
  | shadowConfig enabled size =>
    have := namedBytes_length kind 0 enabled; have := n 1 Config.shadowMax size (by decide)
    simp only [Machine.payloadBytes, List.length_append]; omega
  | shadowState state => exact le_trans (namedBytes_length kind 0 state) (by decide)
  | enrolment digest recheck =>
    have := n 0 60 recheck (by decide)
    simp only [Machine.payloadBytes, List.length_append, bytesOf_length]; omega
  | triggers t =>
    have e := triggerEntryBytes_length kind
    have := e 0 t.guessLimit; have := e 2 t.unbound; have := e 4 t.bayOpen; have := e 6 t.idle
    have := n 8 255 t.gmax (by decide); have := n 9 240 t.idleLimit (by decide)
    simp only [Machine.payloadBytes, Machine.triggerTableBytes, List.length_append]; omega
  | items a => exact le_trans (n 0 17 a (by decide)) (by decide)
  | events enabled pending =>
    have := eventBytes_length kind 0 enabled h.1; have := eventBytes_length kind 2 pending h.2
    simp only [Machine.payloadBytes, List.length_append]; omega
  | pendingEvents pending => exact le_trans (eventBytes_length kind 0 pending h) (by decide)

theorem byteSum_append (l : List Byte) (b : Byte) : Machine.byteSum (l ++ [b]) = Machine.byteSum l + b := by
  simp [Machine.byteSum]

/-- A page's check byte makes its bytes sum to 0 (R172). -/
theorem byteSum_page (p : Machine.TetherPage) : Machine.byteSum p.bytes = 0 := by
  unfold Machine.TetherPage.bytes; dsimp only; rw [byteSum_append, BitVec.add_right_neg]; rfl

/-- A page has 20 bytes (R172). -/
theorem page_length (p : Machine.TetherPage) : p.bytes.length = 20 := by
  simp [Machine.TetherPage.bytes, bytesOf_length]

/-- The payload of a page is read back. -/
theorem page_payload (p : Machine.TetherPage) : BitVec.ofNat 128 (bigEndian ((p.bytes.drop 3).take 16)) = p.payload := by
  have h : (p.bytes.drop 3).take 16 = bytesOf 16 p.payload.toNat := by
    simp [Machine.TetherPage.bytes, bytesOf_length]
  rw [h, bigEndian_bytesOf]
  have : p.payload.toNat % 256 ^ 16 = p.payload.toNat := Nat.mod_eq_of_lt (by have := p.payload.isLt; omega)
  rw [this]; simp

end Sys2Proof
end

