-- ==== Sys2Proof/Tests/Slice0.lean ====
section
/-! SUPPORT. Tests/Slice0.lean: ill-formed commands that the check refuses, worked values of the manual, one step of each kind of command,
and for every obligation with hypotheses a state and operands that meet them. Expected values come from the manual. -/

namespace Sys2Proof.Tests

open Machine

/-! ### Small states -/

/-- The state a command leads to. -/
def after (c : Instr) (s : State) : State :=
  match exec c s with
  | .next t => t
  | .fault _ => s
  | .refused _ => s

/-- Several commands in order. -/
def afterAll (l : List Instr) (s : State) : State := l.foldl (fun s c => after c s) s

def quietScan : ScanFindings := { decayed := [], repairFails := [] }

/-- READY, nothing going on. -/
def ready : State := { State.reset with power := { State.reset.power with part := .ready, stage := .ended } }

/-- READY with slot 0 holding authority. -/
def admin : State := { ready with authority := some { slot := 0, unwrap := { secret := [], salt := 0, e := 16 } } }

/-- Range 1 as in the worked example of 2.3.1 and 8.6: 10,000 blocks from 10,000, both locks enabled, HOLD. -/
def record1 : RangeRecord :=
  { fields := { defaultFields with
      start := 10000, length := 10000, readLock := true, writeLock := true, unitSize := 4096, sleep := .hold, access := [0, 2] }
    tweakOrigin := 10000, generation := 1, rootWrap := none, tableGeneration := 0 }

/-- A state whose range 1 has that record, in a service state, with its directions locked or not, and its key LIVE. -/
def withRange1 (s : State) (service : Service) (locked : Bool) : State :=
  { s with
    store := { s.store with ranges := s.store.ranges.set 1 (manufacturedCell record1) }
    table := s.table.set 1 { readLocked := locked, writeLocked := locked, service := service, inForce := .close }
    staging := s.staging.set 1 { fields := record1.fields, newKey := false }
    cache := s.cache.set 1 { state := .live, material := some 7, generation := some 1, refs := 0 } }

/-- Replace the record of range 1. -/
def setRecord1 (s : State) (record : RangeRecord) : State :=
  let ranges := s.store.ranges.set 1 (manufacturedCell record)
  { s with store := { s.store with ranges := ranges } }

/-- Range 1 ACTIVE and open with its policy DROP. -/
def withDrop1 (s : State) (service : Service) : State :=
  setRecord1 (withRange1 s service false) { record1 with fields := { record1.fields with sleep := .drop } }

/-- The drive enrolled with a platform. -/
def enrolled (s : State) (state : BindingState) : State :=
  { s with
    store := { s.store with binding := manufacturedCell { enrolled := some { digest := 3, secret := 5 }, recheck := 10 } }
    binding := { s.binding with state := state } }

/-- The shadow enabled. -/
def shadowed (s : State) (state : ShadowState) : State :=
  { s with
    store := { s.store with shadow := manufacturedCell { enabled := true, size := 16384, rootWrap := 9 } }
    shadow := state }

/-- A request in execution. -/
def busy (s : State) (job : Job) (stage : JobStage) : State :=
  { s with executor := { status := .executing, kind := 4, tag := 9, job := job, stage := stage } }

/-- A segment of range 0. -/
def segment0 (count progress : Nat) (step : SegStep) : Segment :=
  { owner := .range 0, first := 100, count := count, disposition := .cipher, tweak := some { k := 8, base := 0, origin := 0 },
    keyRef := some (.range 0), progress := progress, step := step }

/-- A transfer with one segment, under tag 31. -/
def carrying (s : State) (d : Direction) (state : TransferState) (g : Segment) : State :=
  { s with inflight := s.inflight.set 31 (some
      { direction := d, start := 100, count := g.count, generation := 0, sequence := 0, segments := [g], state := state,
        abortReason := none, failingLba := none }) }

/-- Lane 3 works that segment. -/
def inLane3 (s : State) (issued : List Nat) (fetched : List (Nat × List Byte)) : State :=
  { s with lanes := s.lanes.set 3 { idleLane with task := some (.transfer 31 0), issued := issued, fetched := fetched } }

/-- A group of the request executor being written. -/
def writing (s : State) (records : List Record) (stage : WriteStage) : State :=
  let group : Group := { submitter := .executor, records := records, effects := [.request], rewrites := false, final := false }
  { s with store := { s.store with writing := some { group := group, number := 1, stage := stage } } }

/-- A group whose records stand in the copies that its close makes effective, its marker being written. -/
def closing (s : State) (g : Group) : State :=
  { s with store := { g.records.foldl (fun st r => st.writeRecord 1 true r) s.store with
      writing := some { group := g, number := 1, stage := .marker 0 } } }

theorem closing_ready (s : State) (g : Group) (powered : s.power.powered = true) (cells : g.cells.Nodup) :
    (closing s g).readyToClose g := by
  refine ⟨powered, ⟨_, _, rfl⟩, cells, fun r m => ?_⟩
  have h := writeRecords_inTarget 1 g.records cells s.store r m
  cases r <;> exact h

/-- At the close the owners read what they read before the group was written (R80). -/
theorem closing_read (s : State) (g : Group) :
    (∀ n, (closing s g).range n = s.range n) ∧ (closing s g).shadowRecord = s.shadowRecord ∧ (∀ i, (closing s g).cred i = s.cred i) ∧
      (closing s g).profile = s.profile := by
  have reads : ∀ (l : List Record) (st : Store),
      (∀ (n : RangeId) lost, (l.foldl (fun st r => st.writeRecord 1 true r) st).ranges[n].read lost = st.ranges[n].read lost) ∧
        (∀ lost, (l.foldl (fun st r => st.writeRecord 1 true r) st).shadow.read lost = st.shadow.read lost) ∧
        (∀ (i : SlotId) lost, (l.foldl (fun st r => st.writeRecord 1 true r) st).creds[i].read lost = st.creds[i].read lost) ∧
        (l.foldl (fun st r => st.writeRecord 1 true r) st).profile = st.profile := by
    intro l
    induction l with
    | nil => intro st; exact ⟨fun _ _ => rfl, fun _ => rfl, fun _ _ => rfl, rfl⟩
    | cons x l ih =>
      intro st
      obtain ⟨a, b, c, d⟩ := ih (st.writeRecord 1 true x)
      obtain ⟨a', b', c', d'⟩ := writeRecord_read st 1 true x
      exact ⟨fun n lost => (a n lost).trans (a' n lost), fun lost => (b lost).trans (b' lost),
        fun i lost => (c i lost).trans (c' i lost), d.trans d'⟩
  obtain ⟨a, b, c, d⟩ := reads g.records s.store
  exact ⟨fun n => a n _, b _, fun i => c i _, by simp only [State.profile, closing, d]⟩

/-- The final group reads nothing that writing copies changes. -/
theorem closing_final (s : State) (g : Group) (salt : Word32) (key shadowKey : Key) :
    (closing s g).finalRecords salt key shadowKey = s.finalRecords salt key shadowKey := by
  obtain ⟨range, shadow, -, profile⟩ := closing_read s g
  simp only [State.finalRecords, State.finalRange0, State.tableGeneration, range, shadow, profile]

/-- A commit group reads nothing that writing copies changes. -/
theorem closing_commit (s : State) (g : Group) (c : Commit) : (closing s g).commitRecords c = s.commitRecords c := by
  obtain ⟨range, -, cred, profile⟩ := closing_read s g
  have staged : (closing s g).staged = s.staged := rfl
  have stagedDefined : (closing s g).stagedDefined = s.stagedDefined := rfl
  have newKey : ∀ r : RangeId, (closing s g).staging[r].newKey = s.staging[r].newKey := fun _ => rfl
  have defined : (closing s g).defined = s.defined := by
    funext r; rw [Bool.eq_iff_iff]; simp only [State.defined, decide_eq_true_eq, range]
  have removes : (closing s g).removes = s.removes := by
    funext r; rw [Bool.eq_iff_iff]; simp only [State.removes, decide_eq_true_eq, defined, stagedDefined]
  have receives : (closing s g).receivesKey = s.receivesKey := by
    funext r; rw [Bool.eq_iff_iff]; simp only [State.receivesKey, decide_eq_true_eq, defined, stagedDefined, newKey]
  have anyLock : (closing s g).anyLock = s.anyLock := by
    funext r; simp only [State.anyLock, range]
  have loses : (closing s g).losesLocks = s.losesLocks := by
    funext r; rw [Bool.eq_iff_iff]; simp only [State.losesLocks, decide_eq_true_eq, stagedDefined, anyLock, staged]
  have access : (closing s g).newAccess = s.newAccess := by
    funext r; simp only [State.newAccess, removes, staged]
  have ranges : (closing s g).rangeChanges = s.rangeChanges := by
    funext r; rw [Bool.eq_iff_iff]; simp only [State.rangeChanges, decide_eq_true_eq, staged, range, receives]
  have slots : (closing s g).slotChanges = s.slotChanges := by
    funext i
    simp only [State.slotChanges]
    refine congrArg (List.any allRanges) (funext fun r => ?_)
    rw [Bool.eq_iff_iff]
    simp only [decide_eq_true_eq, ne_eq, range, access, receives]
  have switched : (closing s g).switched c = s.switched c := by
    funext r
    simp only [State.switched, State.keptRootWrap, State.originFor, State.unitsPerBlock, removes, receives, staged, loses, range, profile]
  have switchedWrap : (closing s g).switchedWrap c = s.switchedWrap c := by
    funext i r
    simp only [State.switchedWrap, access, receives, range, cred, switched]
  simp only [State.commitRecords, State.commitRecord, State.commitCred, State.tableGeneration, switched, switchedWrap, ranges, slots,
    range, cred]

/-- A wipe plan in effect and intended. -/
def planned (s : State) (p : WipePlan) : State :=
  { s with store := { s.store with plan := manufacturedCell p }, wipe := { s.wipe with intended := p } }

/-! ### Ill-formed commands (one term for each check of WellFormed) -/

theorem test_scan_naming_a_copy_twice_is_ill_formed :
    wellFormed (.powerOn { decayed := [(.plan, .a), (.plan, .a)], repairFails := [] }) = false := by decide +kernel
theorem test_scan_naming_a_repair_twice_is_ill_formed :
    wellFormed (.partRestart { decayed := [], repairFails := [.token, .token] }) = false ∧
      wellFormed (.groupClose { decayed := [], repairFails := [.token, .token] }) = false := by decide +kernel
theorem test_answer_of_three_bytes_is_ill_formed : wellFormed (.mediaAcknowledge 0 (.answer [0, 0, 0])) = false := by decide +kernel
theorem test_media_error_past_the_media_is_ill_formed : wellFormed (.mediaError 0 (2 ^ 40 + 65536)) = false := by decide +kernel
theorem test_well_formed_frame_is_no_bad_frame : wellFormed (.badFrame (frameBytes 1 0 [])) = false := by decide +kernel
theorem test_known_kind_is_no_unknown_kind : wellFormed (.unknownKind (frameBytes 24 0 [])) = false ∧
    wellFormed (.unknownKind [0xA7]) = false := by decide +kernel
theorem test_fifteen_event_codes_are_ill_formed : wellFormed (.eventsEnable 0 (.fits (List.replicate 15 1))) = false ∧
    wellFormed (.eventsAck 0 (.fits (List.replicate 15 1))) = false := by decide +kernel
theorem test_short_secret_is_ill_formed :
    wellFormed (.authenticate 0 (.fits { slot := 0, secret := List.replicate 7 0, unlock := [] })) = false ∧
      wellFormed (.credSet 0 (.fits { slot := 0, secret := List.replicate 65 0, policy := none, dropUnavailable := false })) = false := by
  decide +kernel
theorem test_seventeen_unlocks_are_ill_formed :
    wellFormed (.authenticate 0 (.fits { slot := 0, secret := List.replicate 8 0, unlock := List.replicate 17 ⟨0, []⟩ })) = false := by
  decide +kernel
theorem test_nine_slots_are_ill_formed :
    wellFormed (.rangeStage 0 (.fits ⟨1, none, none, none, none, none, none, none, none, some (List.replicate 9 0), false⟩)) = false := by
  decide +kernel
theorem test_token_of_31_bytes_is_ill_formed : wellFormed (.wipeTokenSet 0 (.fits (List.replicate 31 0))) = false := by decide +kernel
theorem test_wipe_without_targets_is_ill_formed :
    wellFormed (.wipe 0 (.fits { scope := .targets [], overwrite := false, credential := .absent })) = false ∧
      wellFormed (.wipe 0 (.fits { scope := .all, overwrite := false, credential := .token [] })) = false ∧
      wellFormed (.wipe 0 (.fits { scope := .all, overwrite := false, credential := .factorySecret [] })) = false := by decide +kernel

/-! ### Layouts and worked values -/

/-- R171: ADMIT is 01h, tag, direction, start (5 bytes), n − 1 (2 bytes). -/
theorem test_admit_bytes :
    decodeTransferPort [0x01, 0x05, 0x02, 0x00, 0x01, 0x02, 0x03, 0x04, 0x00, 0xFF] =
      some (.admitRequest 5 2 0x0001020304 0x00FF) := by decide +kernel
theorem test_cancel_and_front_reset_bytes :
    decodeTransferPort [0x02, 0x1F] = some (.cancel 31) ∧ decodeTransferPort [0x03] = some .frontReset ∧
      decodeTransferPort [0x03, 0x00] = none ∧ decodeTransferPort [0x04] = none := by decide +kernel
theorem test_table_words_spell_nothing : decodeTableWord 8 0x03 = none := rfl

/-- 3.5.1: F = 3, b = 5, and F = 2, b = 255. -/
theorem test_closed_period_worked_cases :
    [3, 4, 6, 14, 15].map (closedPeriod { e := 16, free := 3, base := 5, limit := 0 }) = [0, 500, 2000, 512000, 512000] ∧
      [3, 4, 7, 10, 11, 13, 31].map (closedPeriod { e := 16, free := 2, base := 255, limit := 0 }) =
        [25500, 51000, 408000, 3264000, 3600000, 3600000, 3600000] := by decide +kernel

/-- 2.3.1: the first and the last data unit of segment 0. -/
theorem test_tweaks_of_worked_split :
    tweakOf { k := 8, base := 1000000, origin := 8000000 } 1499990 0 = 11999920 ∧
      tweakOf { k := 8, base := 1000000, origin := 8000000 } 1499999 7 = 11999999 := by decide +kernel

/-- The drive of 2.3.2: B = 512, C = 100,000,000, the shadow ON with S = 2,048, range 1 closed with locked-read disposition ZERO. -/
def worked232 : State :=
  let r : RangeRecord :=
    { fields := { defaultFields with length := 1000000, readLock := true, writeLock := true, lockedRead := .zero }
      tweakOrigin := 0, generation := 1, rootWrap := none, tableGeneration := 0 }
  let base := setRecord1 (withRange1 ready .active true) r
  let store := { base.store with
    profile := manufacturedCell { modelProfile with blockSize := 512, capacity := 100000000 }
    shadow := manufacturedCell { enabled := true, size := 2048, rootWrap := 9 } }
  { base with store := store, shadow := .on }

/-- 2.3.2: the split, and the two refusals it describes. -/
theorem test_worked_split_across_the_shadow :
    worked232.split 2040 16 = [{ owner := .shadow, first := 2040, count := 8 }, { owner := .range 1, first := 2048, count := 8 }] ∧
      (worked232.split 2040 16).map (fun r => (worked232.treatment .read r.owner).toOption) = [some .shadow, some .zero] ∧
      worked232.firstRefusal .write (worked232.split 2040 16) = some (.locked, .shadow) ∧
      worked232.mediaLba .shadow 2040 = 100002040 := by decide +kernel
theorem test_worked_admit : (after (.admitRequest 3 1 2040 15) worked232).sent.head? = some (.admitted 3 2 0) ∧
    (after (.admitRequest 3 1 2040 15) worked232).shadowEntry.refs = 1 := by decide +kernel

/-! ### Witnesses: for each obligation with hypotheses, a state and operands that meet them -/

theorem witness_StepTakesFrontCommandOrTicks : State.reset.pending = [] := rfl

theorem witness_CommandsKeepQueue : ∃ t, exec .frontReset { ready with pending := [.cancel 0] } = .next t := ⟨_, rfl⟩

/-- A state in which ALERT is asserted. -/
def alerted : State :=
  { ready with events := { ready.events with pending := [.bayChanged], enabled := [.bayChanged], alert := true } }

theorem witness_EveryStepKeepsAlert : alerted.alertRight ∧ ∃ t, step { alerted with pending := [.frontReset] } = .next t :=
  ⟨by unfold State.alertRight; decide +kernel, _, rfl⟩

theorem witness_EveryStepKeepsAuthorityInReady :
    admin.authorityOnlyInReady ∧ ∃ t, step { admin with pending := [.slpAsserted] } = .next t := ⟨fun _ => rfl, _, rfl⟩

theorem witness_SettleKeepsReadyPart : admin.power.part = .ready ∧ admin.power.hold = false := ⟨rfl, rfl⟩

/-- The Key Cache with a reference of a READ that waits, and an empty one. -/
theorem witness_EveryStepKeepsKeyCache :
    let s := carrying { ready with cache := ready.cache.set 0 { state := .live, material := some 5, generation := some 1, refs := 1 } }
      .read .running (segment0 2 0 .waiting)
    s.keysRight ∧ ready.keysRight ∧ ∃ t, step { s with pending := [.cancel 31] } = .next t := by
  have owners : ∀ o : Owner, o ∈ allTargets := by intro o; cases o with
    | range r => revert r; decide
    | shadow => decide
  refine ⟨⟨fun o => ?_, fun o => ?_, fun o => ?_, fun t x h => ?_⟩, ⟨fun o => ?_, fun o => ?_, fun o => ?_, fun t x h => ?_⟩, _, rfl⟩
  · have := owners o; revert o; decide +kernel
  · have := owners o; revert o; decide +kernel
  · have := owners o; revert o; decide +kernel
  · by_cases tag : t = 31
    · subst tag
      cases h
      exact ⟨rfl, fun g m o k => by rw [List.mem_singleton] at m; subst m; cases k; exact ⟨rfl, rfl⟩⟩
    · have none31 : ∀ t : Tag, t ≠ 31 → (carrying ready .read .running (segment0 2 0 .waiting)).inflight[t] = none := by decide +kernel
      exact absurd (h.symm.trans (none31 t tag)) (by simp)
  · have := owners o; revert o; decide +kernel
  · have := owners o; revert o; decide +kernel
  · have := owners o; revert o; decide +kernel
  · have none31 : ∀ t : Tag, ready.inflight[t] = none := by decide +kernel
    exact absurd (h.symm.trans (none31 t)) (by simp)

theorem witness_PortLayoutsAreExact :
    encodeTransferPort (.admitRequest 255 2 0xFFFFFFFFFF 0xFFFF) = some [0x01, 255, 2, 255, 255, 255, 255, 255, 255, 255] ∧
      decodeTransferPort [0x03] = some .frontReset ∧
      (TetherPage.index { kind := .enrol, toggle := true, more := false, acknowledge := false, index := 2, payload := 1 }) ≤ 2 ∧
      (List.replicate 512 (0 : Byte)).length ≤ 512 ∧ 1 ≤ (0x01 : Byte).toNat ∧ (0x18 : Byte).toNat ≤ 24 ∧ (0x00 : Byte).toNat = 0 ∧
      24 < (0x19 : Byte).toNat ∧ checkFrame [] = .malformed ∧ (((.fits () : Body Unit)) = .fits () ↔ ([] : List Byte) = []) ∧
      ((.misfit : Body Unit) = .fits () ↔ [(1 : Byte)] = []) := by
  refine ⟨by decide +kernel, by decide +kernel, by decide, by decide +kernel, by decide, by decide, by decide, by decide, by decide +kernel,
    by simp, by simp⟩

/-- R162, R170: RANGE-COMMIT is kind 10 with no field; its frame is A7h, length, kind, tag and CRC. -/
theorem test_commit_frame_is_read :
    commandOfRecord (frameBytes 10 7 []) = .rangeCommit 7 (.fits ()) ∧ commandOfRecord (frameBytes 10 7 [0]) = .rangeCommit 7 .misfit := by
  decide +kernel

/-- R162, R168: the reply OK of kind 10 has kind 8Ah, its tag and code 0. -/
theorem test_plain_reply_bytes : channelBytes (replyTo 10 7 .ok .none) = some (frameBytes 0x8A 7 [0x00]) := by decide +kernel

theorem witness_SplitCoversTransfer : ((withRange1 ready .active false).split 9999 2).length = 2 := by decide +kernel

theorem witness_DispositionTables :
    (planned ready { emptyPlan with full := true }).shadowErasing = true ∧
      (shadowed ready .loading).shadowErasing = false ∧ (shadowed ready .loading).shadow = .loading ∧
      (shadowed ready .on).shadow = .on ∧ (withRange1 ready .erasing true).table[1].service = .erasing ∧
      (withRange1 ready .updating true).table[1].service = .updating ∧
      (withRange1 ready .lockdown true).table[1].service = .lockdown ∧ (withRange1 ready .active true).table[1].service = .active ∧
      (withRange1 ready .active true).readClosed 1 = true ∧ (withRange1 ready .active true).writeClosed 1 = true ∧
      (withRange1 ready .active false).readClosed 1 = false ∧ (withRange1 ready .active false).writeClosed 1 = false := by
  decide +kernel

/-- The last block of the drive, for a WRITE under the last tag. -/
theorem witness_AdmitEntersTransfer :
    ready.power.powered = true ∧ ready.power.part = .ready ∧ tagOf 31 = some 31 ∧ directionOf 2 = some .write ∧
      ready.inflight[31] = none ∧ 249999999 + (0 + 1) ≤ ready.profile.capacity ∧
      ∀ run ∈ ready.split 249999999 1, ∃ p, ready.treatment .write run.owner = .ok p := by
  refine ⟨rfl, rfl, rfl, rfl, rfl, by decide +kernel, ?_⟩
  have h : ready.split 249999999 1 = [{ owner := .range 0, first := 249999999, count := 1 }] := by decide +kernel
  intro run m
  rw [h, List.mem_singleton] at m
  exact ⟨.cipher, by rw [m]; rfl⟩

theorem witness_AdmitRefusalLeavesNoTrace :
    tagOf 32 = none ∧ directionOf 3 = none ∧ tagOf 31 = some 31 ∧ directionOf 1 = some .read ∧ State.reset.power.part = .starting ∧
      (carrying ready .read .running (segment0 1 0 .waiting)).inflight[31].isSome = true ∧
      ready.profile.capacity < 249999999 + (1 + 1) ∧ ready.inflight[31] = none := by decide +kernel

/-- Block 9,999 is range 0's, block 10,000 the closed range 1's, which refuses a READ with LOCKED. -/
theorem witness_AdmitRefusalLeavesNoTrace_segment :
    (withRange1 ready .active true).split 9999 2 =
        [{ owner := .range 0, first := 9999, count := 1 }] ++ { owner := .range 1, first := 10000, count := 1 } :: [] ∧
      (withRange1 ready .active true).treatment .read (.range 0) = .ok .cipher ∧
      (withRange1 ready .active true).treatment .read (.range 1) = .error .locked := ⟨by decide +kernel, rfl, rfl⟩

theorem witness_AdmitRefusalLeavesNoTrace_parts :
    ({ ready with power := { ready.power with part := .sleepEntering } } : State).power.part = .sleepEntering ∧
      ({ ready with power := { ready.power with part := .failsafe } } : State).power.part = .failsafe := ⟨rfl, rfl⟩

theorem witness_TweaksAreDistinct :
    (TweakBase.base { k := 8, base := 1000000, origin := 8000000 }) ≤ 1000000 ∧ 7 < 8 ∧
      (8000000#64).toNat + (1000000 - 1000000) * 8 + 7 < 2 ^ 64 ∧
      tweakOf { k := 8, base := 1000000, origin := 8000000 } 1000000 7 = tweakOf { k := 8, base := 1000000, origin := 8000000 } 1000000 7 :=
  ⟨by decide, by decide, by decide, rfl⟩

theorem witness_CancelByOutcomeState :
    (∀ t, tagOf 32 = some t → ready.inflight[t] = none) ∧ (∀ t, tagOf 31 = some t → ready.inflight[t] = none) ∧
      (∃ y, (carrying ready .read .aborting (segment0 1 0 .inLane)).inflight[(31 : Tag)] = some y ∧ y.state = .aborting) ∧
      (∃ y, (carrying ready .read .running (segment0 1 0 .waiting)).inflight[(31 : Tag)] = some y ∧ y.state = .running ∧
        y.inLane = false) ∧
      (∃ y, (carrying ready .read .running (segment0 1 0 .inLane)).inflight[(31 : Tag)] = some y ∧ y.state = .running ∧
        y.inLane = true) :=
  ⟨fun t h => (Option.some_ne_none t h.symm).elim, fun t h => by cases h; rfl, ⟨_, rfl, rfl⟩, ⟨_, rfl, rfl, rfl⟩, ⟨_, rfl, rfl, rfl⟩⟩

theorem witness_FrontResetClearsTransfers : admin.power.powered = true := rfl

/-- The last block of a segment is in lane 3, of a transfer in an outcome state, alone or with a second segment behind it. -/
def lastBlock (d : Direction) (state : TransferState) (more : List Segment) : State :=
  let s := inLane3 (carrying ready d state (segment0 2 1 .inLane)) [101] [(101, [])]
  { s with inflight := s.inflight.set 31 (s.inflight[31].map fun x => { x with segments := x.segments ++ more }) }

/-- Its lane has been told to stop and waits for these answers. -/
def stoppingLane (issued : List Nat) : State :=
  { carrying ready .read .aborting (segment0 2 1 .inLane) with
    lanes := ready.lanes.set 3 { idleLane with task := some (.transfer 31 0), issued := issued, stopping := true } }

/-- A RUNNING WRITE ends with its last segment or goes on with a second one, a CANCELLING one ends. -/
theorem witness_LaneAnswerEndsTransfer :
    (∀ c ∈ [(TransferState.running, []), (.running, [segment0 1 0 .waiting]), (.cancelling, [])],
      let s := lastBlock .write c.1 c.2
      s.power.powered = true ∧ s.lanes[(3 : LaneId)].task = some (.transfer 31 0) ∧ s.lanes[(3 : LaneId)].issued = 101 :: [] ∧
        s.lanes[(3 : LaneId)].stopping = false ∧ s.lanes[(3 : LaneId)].failing = none ∧
        s.inflight[(31 : Tag)].any (fun y => y.direction = .write ∧ y.state = c.1 ∧
          y.segments[0]?.any (fun g => g.progress + 1 = g.count ∧ g.first + g.progress = 101)) = true) ∧
    (∀ issued ∈ [[101], [101, 102]], let s := stoppingLane issued
      s.power.powered = true ∧ s.lanes[(3 : LaneId)].task = some (.transfer 31 0) ∧ s.lanes[(3 : LaneId)].stopping = true ∧
        s.lanes[(3 : LaneId)].issued = issued ∧ s.inflight[(31 : Tag)].any (fun y => y.state = .aborting) = true) := by
  decide +kernel

/-- A READ segment of range 0 with its block fetched, and one whose disposition is ZERO. -/
def fetchedRead : State := inLane3 (carrying ready .read .running (segment0 2 0 .inLane)) [] [(100, [])]
def zeroRead (progress : Nat) : State :=
  inLane3 (carrying ready .read .running { segment0 2 progress .inLane with disposition := .zero, keyRef := none, tweak := none }) [] []

theorem witness_DeliveredBlockIsDeciphered :
    (fetchedRead.lanes[3].task = some (.transfer 31 0) ∧ fetchedRead.lanes[3].fetched = (100, []) :: [] ∧
      ∃ y g, fetchedRead.inflight[(31 : Tag)] = some y ∧ y.direction = .read ∧ y.segments[0]? = some g ∧ g.progress + 1 < g.count ∧
        g.disposition ≠ .zero) ∧
    ((zeroRead 0).lanes[3].task = some (.transfer 31 0) ∧
      ∃ y g, (zeroRead 0).inflight[(31 : Tag)] = some y ∧ y.direction = .read ∧ y.segments[0]? = some g ∧ g.progress + 1 < g.count ∧
        g.disposition = .zero) :=
  ⟨⟨rfl, rfl, _, _, rfl, rfl, rfl, by decide, by decide⟩, ⟨rfl, _, _, rfl, rfl, rfl, by decide, rfl⟩⟩

/-- The last block of a segment: ZERO, and fetched for a RUNNING or CANCELLING READ. -/
theorem witness_DeliveredBlockIsDeciphered_last :
    (zeroRead 1).inflight[(31 : Tag)].any (fun y => y.state = .running ∧ y.segments[0]?.any (fun g => g.progress + 1 = g.count)) = true ∧
    ∀ c ∈ [(TransferState.running, []), (.running, [segment0 1 0 .waiting]), (.cancelling, [])],
      let s := lastBlock .read c.1 c.2
      s.lanes[(3 : LaneId)].task = some (.transfer 31 0) ∧ s.lanes[(3 : LaneId)].fetched = (101, []) :: [] ∧
        s.lanes[(3 : LaneId)].stopping = false ∧ s.lanes[(3 : LaneId)].failing = none ∧
        s.inflight[(31 : Tag)].any (fun y => y.direction = .read ∧ y.state = c.1 ∧
          y.segments[0]?.any (fun g => g.disposition = .cipher ∧ g.progress + 1 = g.count)) = true := by
  decide +kernel

/-- A READ of one block delivers it and ends DONE (R41). -/
theorem test_one_block_read_ends_done :
    (after (.mediaAcknowledge 3 .delivered) (zeroRead 1)).sent.getLast? = some (.completion 31 .done none none) ∧
      (after (.mediaAcknowledge 3 .delivered) (zeroRead 1)).inflight[(31 : Tag)] = none := by decide +kernel

/-- An overwrite of the shadow with its new key in hand. -/
def overwriting : State :=
  planned ready { emptyPlan with items := [{ target := .shadow, step := .keysDestroyed }], overwrite := true }

/-- A transfer waits and the wipe side does not; both wait. -/
theorem witness_ArbiterGrantsInTurn :
    let s := carrying ready .read .running (segment0 2 0 .waiting)
    let both := carrying (after .overwriteStart { overwriting with lanes := ready.lanes.map fun _ => { idleLane with task := some (.cleared none) } })
      .read .running (segment0 2 0 .waiting)
    let free := { both with lanes := ready.lanes }
    (s.lanes[0].task = none ∧ (∃ x, s.inflight[(31 : Tag)] = some x ∧ x.head = some 0) ∧ s.wipeWaits = false) ∧
      ready.wipeWaits = false ∧
      (free.lanes[0].task = none ∧ free.wipeWaits = true ∧ free.overwriteTarget = some .shadow ∧
        (∃ p, free.extentNext .shadow free.position = some p) ∧ free.lastGranted = .transfer) :=
  ⟨⟨by decide +kernel, ⟨_, rfl, by decide +kernel⟩, by decide +kernel⟩, by decide +kernel,
    by decide +kernel, by decide +kernel, by decide +kernel, ⟨0, by decide +kernel⟩, by decide +kernel⟩

/-- The charge group of slot 0 at its counters record, and at its first copy. -/
def chargeWriting (stage : WriteStage) : State :=
  writing (busy ready (.attempt { slot := 0, secret := [], unlock := [], phase := .charging, settledAt := 0 }) .submitted)
    [.counters { g := 1, marker := some { slot := 0, before := 0 }, idleLimit := 300 }] stage

theorem witness_CopyWriteGoesToTarget :
    ∃ w old version tag passes, (chargeWriting (.copies 0 0)).store.writing = some w ∧ w.stage = .copies 0 0 ∧
      w.group.records[0]? = some (.counters { g := 1, marker := some { slot := 0, before := 0 }, idleLimit := 300 }) ∧
      (chargeWriting (.copies 0 0)).store.effectiveSide .counters = some .a ∧
      Record.isCopy (chargeWriting (.copies 0 0)).store .a version tag passes (.counters old) :=
  ⟨_, _, _, _, _, rfl, rfl, rfl, rfl, rfl⟩

theorem witness_ThirdFailedWriteEntersFailsafe :
    (∃ w r, (chargeWriting (.copies 0 1)).store.writing = some w ∧ w.stage = .copies 0 1 ∧ w.group.records[0]? = some r ∧ 1 < 2) ∧
      (∃ w r, (chargeWriting (.copies 0 2)).store.writing = some w ∧ w.stage = .copies 0 2 ∧ w.group.records[0]? = some r ∧
        w.group.submitter = .executor ∧ Effect.request ∈ w.group.effects) ∧
      (chargeWriting (.copies 0 2)).store.queue = [] ∧ (chargeWriting (.copies 0 2)).store.held = [] ∧
      (chargeWriting (.copies 0 2)).executor.status = .executing ∧ (chargeWriting (.copies 0 2)).power.restarting = false ∧
      ∃ a, (chargeWriting (.copies 0 2)).executor.job = .attempt a :=
  ⟨⟨_, _, rfl, rfl, rfl, by decide⟩, ⟨_, _, rfl, rfl, rfl, rfl, by decide⟩, rfl, rfl, rfl, rfl, _, rfl⟩

/-- A wipe token written to copy B, its marker in hand. -/
def tokenWritten : State :=
  let s := writing (busy admin (.setToken (some [1])) .submitted) [.token (some [1])] (.marker 0)
  let token : CellPair (Option (List Byte)) := { s.store.token with b := { content := some [1], version := 2, tag := 1, passes := true } }
  { s with store := { s.store with token := token } }

theorem witness_CloseMakesRecordsEffective :
    tokenWritten.readyToClose (requestGroup [.token (some [1])]) ∧
      (∀ key, Effect.finalCommit key ∉ (requestGroup [.token (some [1])]).effects) ∧ tokenWritten.executor.status = .executing ∧
      tokenWritten.executor.job = .setToken (some [1]) :=
  ⟨⟨rfl, ⟨_, _, rfl⟩, by decide, fun r m => by cases List.mem_singleton.1 m; rfl⟩, fun key => by simp [requestGroup], rfl, rfl⟩

theorem test_token_takes_effect : (after (.groupClose quietScan) tokenWritten).token = some [1] := by decide +kernel

theorem witness_PowerLossKeepsEffectiveRecords : (chargeWriting (.copies 0 0)).power.powered = true := rfl

/-- Copy A closed under tag 4, copy B of the unclosed group 5. -/
def halfWritten : CellPair Nat :=
  { a := { content := 10, version := 1, tag := 4, passes := true }, b := { content := 20, version := 2, tag := 5, passes := true }
    effective := some .a }

theorem witness_ScanSettlesStore :
    (halfWritten.copy .a).passes = true ∧ (halfWritten.copy .a).tag ≠ 5 ∧ (halfWritten.copy (otherSide .a)).tag = 5 ∧
      (halfWritten.copy (otherSide .a)).passes = true ∧ (∀ z, some (4 : Count32) = some z → (halfWritten.copy .a).tag = z) :=
  ⟨rfl, by decide, rfl, rfl, fun z h => by cases h; rfl⟩

/-- A part without power whose group 5 wrote slot 0 and closed, and whose group 6 had written slot 1 and not closed. -/
def scanned : State :=
  let marker : CellPair CloseMarker := manufacturedCell { number := 5, cells := [.cred 0] }
  let closed : CellPair CredRecord := { manufacturedCell emptySlot with b := ⟨{ emptySlot with failures := 1 }, 2, 5, true⟩ }
  let begun : CellPair CredRecord := { manufacturedCell emptySlot with b := ⟨{ emptySlot with failures := 2 }, 2, 6, true⟩ }
  { State.reset with
    power := { State.reset.power with powered := false }
    store := { State.reset.store with marker := marker, creds := (State.reset.store.creds.set 0 closed).set 1 begun } }
/-- The same with copies decayed and repairs failing. -/
def scannedWith (decayed : List (Cell × Side)) (repairFails : List Cell) : State :=
  after (.powerOn { decayed := decayed, repairFails := repairFails }) scanned

theorem witness_ScanSettlesStore_scan :
    scanned.power.powered = false ∧
      ({ ready with power := { ready.power with part := .starting, restarting := true } } : State).restartDue = true ∧
      (∃ side, scanned.store.marker.found .marker quietScan side) := ⟨rfl, by decide +kernel, .a, rfl, by decide +kernel⟩

/-- R82, R83: the higher version is effective, the copy of group 6 is rolled back and repaired, and the part starts. -/
theorem test_scan_takes_higher_version_and_rolls_back :
    let t := scannedWith [] []
    (t.cred 0).failures = 1 ∧ (t.cred 1).failures = 0 ∧ t.store.creds[1].b = t.store.creds[1].a ∧ t.power.rollbackFound = true ∧
      t.events.pending = [.storeRollback] ∧ t.power.part = .starting ∧ t.store.lastClosed = 5 := by decide +kernel

/-- R82 step 4, R84: without group 5's own copy, with both copies lost, with a repair that fails and without the marker cell the part is in
FAILSAFE. -/
theorem test_scan_fails_cells :
    (let t := scannedWith [(.cred 0, .b)] []; t.store.failed = [.cred 0] ∧ t.power.part = .failsafe ∧ (t.cred 0).failures = 0) ∧
      (scannedWith [(.shadow, .a), (.shadow, .b)] []).events.pending = [.storeRollback, .storeFault] ∧
      (scannedWith [] [.cred 1]).store.failed = [.cred 1] ∧
      (let t := scannedWith [(.marker, .a), (.marker, .b)] [];
        t.store.failed = [.marker] ∧ t.store.lastClosed = 6 ∧ (t.cred 1).failures = 2 ∧ t.power.rollbackFound = false) := by decide +kernel

theorem witness_StartUpResetsVolatileState :
    ({ admin with power := { admin.power with powered := false } } : State).power.powered = false ∧
      ({ ready with power := { ready.power with part := .starting, restarting := true } } : State).restartDue = true := by
  decide +kernel

/-- A part whose counters hold the marker of an attempt at slot 2, which stands at its limit of 3 failures or below it. -/
def chargedAttempt (failures : Nat) : State :=
  let counters : Counters := { g := 40, marker := some { slot := 2, before := 39 }, idleLimit := 300 }
  let slot : CredRecord := { emptySlot with state := .active, policy := { e := 16, free := 3, base := 10, limit := 3 }, failures := failures }
  { State.reset with store := { State.reset.store with
    counters := manufacturedCell counters, creds := State.reset.store.creds.set 2 (manufacturedCell slot) } }
def chargeClosing (failures : Nat) : State :=
  closing (chargedAttempt failures) (chargeGroup 2 (decide (failures = 3)) ((chargedAttempt failures).settleRecords 2))

theorem witness_StartUpResetsVolatileState_charge :
    (∀ failures ∈ [2, 3],
      let s := chargedAttempt failures
      let t := after (.powerOn quietScan) { s with power := { s.power with powered := false } }
      t.power.part = .starting ∧ t.counters.marker.isSome = true ∧
        (chargeClosing failures).power.part = .starting ∧ (chargeClosing failures).triggers.gmax ≤ 40) ∧
    (after (.powerOn quietScan) { State.reset with power := { State.reset.power with powered := false } }).counters.marker = none := by
  decide +kernel
theorem witness_StartUpResetsVolatileState_close :
    ({ chargeClosing 3 with power := { (chargeClosing 3).power with stage := .charge } } : State).readyToClose
      (chargeGroup 2 true (.counters { g := 40, marker := none, idleLimit := 300 } ::
        (if true then [.cred 2 { (chargedAttempt 3).cred 2 with state := .lockedOut }] else []))) :=
  closing_ready { chargedAttempt 3 with power := { (chargedAttempt 3).power with stage := .charge } } _ rfl (by decide)

/-- R152: the group that settles an attempt found at start-up, and what its close leaves. -/
theorem test_charge_stage_settles_attempt :
    let s := chargedAttempt 3
    let t := after (.powerOn quietScan) { s with power := { s.power with powered := false } }
    t.power.stage = .charge ∧ t.store.writing.any (fun w => w.group.cells = [.counters, .cred 2]) = true := by decide +kernel

/-- The part at RESTORE, with range 1 locked and the shadow enabled or not. -/
theorem witness_RestoreMakesPartReady :
    (∀ s ∈ [State.reset, shadowed (withRange1 State.reset .active true) .off],
      s.power.powered = true ∧ s.restoreIsDue = true ∧ s.power.slp = false ∧ s.lockdownRecord = manufacturedLockdown ∧
        s.trigger.working = manufacturedLockdown ∧ s.plan = emptyPlan ∧ s.trigger.bayLevel = .closed ∧ s.trigger.held = [] ∧
        s.enrolled = false) ∧
      State.reset.shadowRecord.enabled = false ∧ (shadowed (withRange1 State.reset .active true) .off).shadowRecord.enabled = true ∧
      (shadowed (withRange1 State.reset .active true) .off).table[1].service ≠ .undefined ∧
      (shadowed (withRange1 State.reset .active true) .off).anyLock 1 = true := by
  refine ⟨fun s m => ?_, ?_⟩
  · simp only [List.mem_cons, List.not_mem_nil, or_false] at m
    rcases m with rfl | rfl <;> decide +kernel
  · decide +kernel

/-- The part at RESTORE as STARTING leaves it, with a lockdown record and a wipe plan. -/
def restoring (lockdown : LockdownRecord) (p : WipePlan) : State :=
  let s := planned (shadowed (withRange1 State.reset .active true) .off) p
  { s with store := { s.store with lockdown := manufacturedCell lockdown }, cache := s.cache.set 1 emptyKey }
def unboundLockdown : LockdownRecord := { device := .lockdown, causes := [.unbound] }
def range1Pending : WipePlan := { emptyPlan with items := [{ target := .range 1, step := .pending }] }

theorem witness_RestoreMakesPartReady_found :
    (∀ c ∈ [(manufacturedLockdown, emptyPlan), (manufacturedLockdown, { emptyPlan with full := true }), (unboundLockdown, range1Pending)],
      let s := restoring c.1 c.2
      s.power.powered = true ∧ s.restoreIsDue = true ∧ s.power.slp = false ∧ s.trigger.working = manufacturedLockdown ∧
        s.trigger.bayLevel = .closed ∧ s.trigger.held = [] ∧ s.enrolled = false ∧ s.executor = freeExecutor ∧
        (∀ tag : Tag, s.inflight[tag] = none) ∧ (∀ r : RangeId, s.table[r].service = if s.defined r then .active else .undefined) ∧
        s.shadowEntry = emptyKey ∧ (∀ r : RangeId, s.key (.range r) = emptyKey) ∧ s.presentsShadow = true ∧
        s.lockdownRecord = c.1 ∧ s.plan = c.2) ∧
    (restoring unboundLockdown range1Pending).restoreErases (.range 1) = true ∧
      (restoring unboundLockdown range1Pending).restoreErases (.range 0) = false ∧
      (∃ c ∈ (restoring unboundLockdown range1Pending).lockdownRecord.causes,
        ((restoring unboundLockdown range1Pending).triggers.entry c).autoResume = false) := by
  decide +kernel

/-- R153: RESTORE takes range 0 into the lockdown found and range 1 into the wipe found. -/
theorem test_restore_finds_lockdown_and_wipe :
    let t := after .restore (restoring unboundLockdown range1Pending)
    t.power.part = .ready ∧ t.table[0].service = .lockdown ∧ t.table[1].service = .erasing ∧ t.key (.range 0) = emptyKey ∧
      t.trigger.working = unboundLockdown := by decide +kernel

theorem witness_SleepEntryWaitsForExecutor :
    admin.power.slp = false ∧ admin.executor.status = .free ∧
      ({ admin with power := { admin.power with slp := true, hold := true } } : State).sleepEntryDue = true ∧
      (busy admin .immediate .working).executor.status ≠ .free := by decide +kernel

/-- SLEEP_ENTERING, before and after the sleep DROP. -/
def entering (drained : Bool) : State :=
  { enrolled (withDrop1 ready .active) .checking with
    power := { ready.power with part := .sleepEntering, slp := true, drained := drained } }

theorem witness_SleepDropThenAsleep :
    (entering false).sleepDropDue = true ∧ ((entering false).range 1).fields.sleep = .drop ∧ (entering false).anyLock 1 = true ∧
      (entering false).anyLock 0 = false ∧ (entering true).sleepReadyDue = true ∧
      ({ entering true with binding := { (entering true).binding with exchange := .check (.awaiting 0) } } : State).binding.exchange =
        .check (.awaiting 0) := by decide +kernel

theorem test_sleep_drop_and_ready : (after .sleepDrop (entering false)).power.part = .asleep ∧
    (after .sleepDrop (entering false)).table[1].readLocked = true ∧ (after .sleepDrop (entering false)).cache[1].state = .empty := by
  decide +kernel

/-- ASLEEP, enrolled or not. -/
def asleep (s : State) : State := { s with power := { s.power with part := .asleep, slp := true, drained := true, relocked := true } }

theorem witness_SlpReleaseByPartState :
    ({ ready with power := { ready.power with slp := true, hold := true } } : State).power.part = .ready ∧
      (entering false).power.part = .sleepEntering ∧ (entering false).power.slp = true ∧
      (asleep ready).enrolled = false ∧ (asleep (enrolled ready .bound)).enrolled = true ∧
      (asleep (enrolled ready .bound)).binding.exchange = .none ∧ (asleep ready).power.part = .asleep := by decide +kernel

/-- A RANGE-COMMIT of range 1 in its drain wait. -/
def draining : State :=
  busy (withRange1 admin .updating false) (.commit { affected := [(1, .active)], held := [], keys := [], newKeys := [], drainSince := 0 }) .working

theorem witness_DrainWaitEndsOrTimesOut :
    ∃ c, draining.executor.job = .commit c ∧ draining.executor.stage = .working ∧ draining.executor.status = .executing ∧
      (∀ p ∈ c.affected, (draining.key (.range p.1)).refs = 0) ∧ (c.affected.map (·.1)).Nodup ∧
      ((1, Service.active) ∈ c.affected ∧ draining.table[1].service = .updating) :=
  ⟨_, rfl, rfl, rfl, fun p m => by rw [List.mem_singleton] at m; rw [m]; rfl, by decide, by decide, rfl⟩

/-- An AUTHENTICATE of slot 0 in its derivation. -/
def derivingAttempt : Attempt := { slot := 0, secret := List.replicate 32 0, unlock := [], phase := .deriving, settledAt := 0 }
def deriving0 : State := { busy ready (.attempt derivingAttempt) .working with derivations := [.executor] }

theorem witness_DerivationReachesVerdict :
    deriving0.derivations = .executor :: [] ∧ deriving0.executor.job = .attempt derivingAttempt ∧ derivingAttempt.phase = .deriving :=
  ⟨rfl, rfl, rfl⟩

/-- The factory secret is the one slot 0 was set with (R50). -/
theorem test_factory_secret_is_judged_right : deriving0.judge 0 (List.replicate 32 0) = true := by
  simp [State.judge, State.derive, deriving0, busy, ready, State.cred, State.reset, manufacturedStore, tab8, CellPair.read, CellPair.copy,
    manufacturedCell, factorySlot, modelProfile]

/-- The BAY line has changed to a level and stays there. -/
def bayMoving (s : State) (level : BayLevel) (action : Action) : State :=
  let table : TriggerTable := { manufacturedTriggers with bayOpen := ⟨action, false⟩ }
  { s with
    trigger := { s.trigger with bayLine := level, candidate := level, stability := some 0 }
    store := { s.store with triggers := manufacturedCell table } }

theorem witness_BayLineIsDebounced :
    ((bayMoving admin .closed .note).power.part = .ready ∧ (bayMoving admin .closed .note).trigger.stability = some 0 ∧
      (bayMoving admin .closed .note).trigger.candidate = .closed ∧
      (bayMoving admin .closed .note).trigger.working = manufacturedLockdown) ∧
    ((bayMoving admin .open .relock).trigger.candidate = .open ∧ (bayMoving admin .open .relock).triggers.bayOpen.action = .relock ∧
      (bayMoving admin .open .relock).authority.isSome = true) ∧
    (bayMoving admin .open .note).triggers.bayOpen.action = .note := by decide +kernel

theorem test_bay_open_relocks :
    (after .bayStabilityExpiry (bayMoving (withRange1 admin .active false) .open .relock)).table[1].writeLocked = true ∧
      (after .bayStabilityExpiry (bayMoving (withRange1 admin .active false) .open .relock)).clock = 500 := by decide +kernel

theorem witness_BayOpenEntersLockdown :
    let s := bayMoving (withRange1 admin .active false) .open .lockdown
    s.power.part = .ready ∧ s.power.restarting = false ∧ s.trigger.stability = some 0 ∧ s.trigger.candidate = .open ∧
      s.triggers.bayOpen.action = .lockdown ∧ s.trigger.working = manufacturedLockdown ∧ s.commitDraining = false ∧
      s.table[1].service = .active ∧ (s.range 1).fields.response = .close ∧ s.table[2].service ≠ .active := by decide +kernel

/-- The action WIPE with no plan, and with a plan that holds it all already. -/
theorem witness_BayOpenEntersLockdown_wipe :
    let s := bayMoving (withRange1 admin .active false) .open .wipe
    let held := planned s { emptyPlan with items := allTargets.map (fun t => { target := t, step := .pending }), full := true }
    (s.trigger.stability = some 0 ∧ s.triggers.bayOpen.action = .wipe ∧ s.commitDraining = false ∧ s.authority.isSome = true ∧
      s.wipe.intended.accept allTargets false true ≠ s.wipe.intended ∧ s.defined 1 = true ∧ s.table[1].service = .active ∧
      s.table[2].service ≠ .active ∧ s.table[2].service ≠ .lockdown ∧ s.wipe.intended.item .shadow = none) ∧
    held.trigger.candidate = .open ∧ held.wipe.intended.accept allTargets false true = held.wipe.intended := by decide +kernel

/-- R116: the firing marks every range and ends authority. -/
theorem test_bay_open_wipes :
    let t := after .bayStabilityExpiry (bayMoving (withRange1 admin .active false) .open .wipe)
    t.table[1].service = .erasing ∧ t.table[0].service = .erasing ∧ t.authority = none ∧ t.wipe.intended.full = true := by decide +kernel

/-- The trigger idle timer runs. -/
def idling (action : Action) : State :=
  let table : TriggerTable := { manufacturedTriggers with idle := ⟨action, false⟩, idleLimit := 240 }
  let s := withRange1 admin .active false
  { s with trigger := { s.trigger with idle := .running 0 }, store := { s.store with triggers := manufacturedCell table } }

theorem witness_IdleExpiryFiresIdle :
    (idling .note).power.part = .ready ∧ (idling .note).trigger.idle = .running 0 ∧ (idling .note).triggers.idle.action = .note ∧
      (idling .relock).triggers.idle.action = .relock := by decide +kernel

theorem witness_ExchangesStart :
    (enrolled admin .bound).enrolled = true ∧ (enrolled admin .bound).binding.exchange = .none ∧
      ({ enrolled admin .bound with binding := { (enrolled admin .bound).binding with recheck := some 0 } } : State).binding.recheck =
        some 0 ∧ (enrolled admin .bound).admin = true ∧ (enrolled admin .bound).takesRequest :=
  ⟨rfl, rfl, rfl, rfl, rfl, rfl, rfl⟩

/-- A check in a phase after a number of failed rounds. -/
def checking (phase : ExchangePhase) (rounds : Nat) : State :=
  let s := enrolled admin .checking
  { s with binding := { s.binding with
      exchange := .check phase, rounds := rounds, challenge := some 1, firstHalf := some 2, reference := some .bound } }

/-- An enrolment exchange between two tries. -/
def enrolPausing : State :=
  let s := busy admin (.enrol none none) .working
  { s with binding := { s.binding with exchange := .enrol .pausing, freshSecret := some 1 } }

theorem witness_FailedRoundsAreRetried :
    (checking (.sending 0) 5).binding.exchange = .check (.sending 0) ∧ (checking (.sending 0) 5).binding.rounds + 1 < 7 ∧
      7 ≤ (checking (.awaiting 2) 6).binding.rounds + 1 ∧ (checking (.awaiting 2) 6).power.part = .ready ∧
      (checking (.awaiting 2) 6).binding.reference ≠ some .fault ∧ ExchangePhase.sending 0 ≠ .pausing ∧
      (checking .pausing 1).binding.exchange = .check .pausing ∧ enrolPausing.binding.exchange = .enrol .pausing ∧
      enrolPausing.binding.freshSecret = some 1 := by decide +kernel

/-- The module's acknowledgement of page 0, and its page RESPONSE 2, as bytes. -/
def ackPage : TetherPage := { kind := .ack, toggle := false, more := false, acknowledge := true, index := 0, payload := 0 }
def responsePage (payload : Word16) : TetherPage :=
  { kind := .response, toggle := true, more := false, acknowledge := false, index := 2, payload := payload }

theorem witness_TetherPageMovesRound_sending :
    readPage ackPage.bytes = .page ackPage ∧ readPage (List.replicate 20 1) = .badCheck ∧
      (checking (.sending 0) 0).binding.exchange = .check (.sending 0) ∧ (checking (.sending 0) 0).binding.challenge = some 1 ∧
      ackPage.toggle = (checking (.sending 0) 0).binding.toggle := by decide +kernel

theorem read_responsePage (payload : Word16) : readPage (responsePage payload).bytes = .page (responsePage payload) := by
  have sum := byteSum_page (responsePage payload)
  have value := page_payload (responsePage payload)
  have flags : (responsePage payload).flags = 0x01#8 := by simp [TetherPage.flags, responsePage]
  have head : ∃ rest, (responsePage payload).bytes = 0x02#8 :: 0x01#8 :: 0x02#8 :: rest :=
    ⟨_, by simp only [TetherPage.bytes, flags]; rfl⟩
  obtain ⟨rest, hr⟩ := head
  rw [hr] at sum value ⊢
  unfold readPage
  rw [if_neg (by simp [sum])]
  dsimp only
  rw [value]
  simp [pageKindOf, responsePage]

theorem halves_join (x : Word32) : firstHalfOf x ++ secondHalfOf x = x := by
  apply BitVec.eq_of_getLsbD_eq
  intro i h
  simp only [firstHalfOf, secondHalfOf, BitVec.getLsbD_append, BitVec.getLsbD_extractLsb']
  by_cases c : i < 128
  · simp [c]
  · have : i - 128 < 128 := by omega
    simp [c, this, show 128 + (i - 128) = i by omega]

/-- The right second half of the response completes it, whatever the response function is. -/
theorem witness_TetherPageMovesRound_bound :
    ∃ (s : State) (half payload : Word16) (page : Vector Byte 20), readPage page.toList = .page (responsePage payload) ∧
      s.binding.exchange = .check (.awaiting 2) ∧ s.binding.challenge = some 1 ∧ s.binding.firstHalf = some half ∧
      s.bindingRecord.enrolled = some { digest := 3, secret := 5 } ∧ (responsePage payload).toggle ≠ s.binding.toggle ∧
      half ++ (responsePage payload).payload = Config.response 1 5 ∧ s.binding.reference ≠ some .checking := by
  let half := firstHalfOf (Config.response 1 5)
  let payload := secondHalfOf (Config.response 1 5)
  let base := checking (.awaiting 2) 0
  let page : Vector Byte 20 := ⟨(responsePage payload).bytes.toArray, by rw [List.size_toArray]; exact page_length _⟩
  refine ⟨{ base with binding := { base.binding with firstHalf := some half } }, half, payload, page, ?_, rfl, rfl, rfl, rfl, ?_, ?_, ?_⟩
  · exact read_responsePage payload
  · decide
  · exact halves_join _
  · decide

/-- A page of the module with the toggle turned, and an enrolment exchange in a phase. -/
def modulePage (kind : PageKind) (index : Nat) (more : Bool) (payload : Word16) : TetherPage :=
  { kind := kind, toggle := true, more := more, acknowledge := false, index := index, payload := payload }
def enrolling (phase : ExchangePhase) : State :=
  { enrolPausing with binding := { enrolPausing.binding with exchange := .enrol phase } }

/-- The pages that move a check and an enrolment on, a page of no listed form, a repeat and a page out of sequence. -/
theorem witness_TetherPageMovesRound_pages :
    (∀ p ∈ [{ ackPage with index := 1 }, modulePage .response 0 true 3, modulePage .response 1 true 9, modulePage .enrol 2 false 4],
      readPage p.bytes = .page p) ∧
    readPage (List.replicate 20 0) = .unlisted ∧
    (checking (.awaiting 0) 0).bindingRecord.enrolled.map (·.digest) = some 3 ∧
    (∀ i, (checking (.sending i) 0).binding.exchange = .check (.sending i) ∧ (checking (.awaiting i) 5).binding.rounds < 6 ∧
      (enrolling (.awaiting i)).binding.exchange = .enrol (.awaiting i) ∧ (enrolling (.sending i)).binding.failures < 6) ∧
    (enrolling (.awaiting 2)).executor.job = .enrol none none ∧ (enrolling (.sending 0)).binding.freshSecret = some 1 ∧
    (checking (.awaiting 1) 0).binding.toggle = ackPage.toggle ∧ responsePage 0 ≠ ackPage ∧
    ready.binding.exchange = .none ∧ ready.binding.lastPage = none := by
  refine ⟨by decide +kernel, by decide +kernel, by decide +kernel, fun i => ⟨rfl, ?_, rfl, ?_⟩, rfl, rfl, rfl, by decide, rfl, rfl⟩
  · show 5 < 6; decide
  · show 0 < 6; decide

/-- A response whose first half is not the expected one, whatever the response function is; a wrong digest. -/
theorem witness_TetherPageMovesRound_mismatch :
    (∃ half : Word16, half ++ secondHalfOf (Config.response 1 5) ≠ Config.response 1 5) ∧
      (checking (.awaiting 0) 0).bindingRecord.enrolled = some { digest := 3, secret := 5 } ∧ (modulePage .response 0 true 9).payload ≠ 3 ∧
      (checking (.awaiting 0) 0).binding.reference ≠ some .mismatch ∧ (checking (.awaiting 0) 0).power.part = .ready ∧
      { checking (.awaiting 0) 0 with store := { (checking (.awaiting 0) 0).store with
          triggers := manufacturedCell { manufacturedTriggers with unbound := ⟨.note, false⟩ } } }.triggers.unbound.action = .note := by
  refine ⟨?_, by decide +kernel, by decide, by decide, rfl, rfl⟩
  have other : ∀ r : Word32, ~~~ firstHalfOf r ++ secondHalfOf r ≠ r := fun r h => by
    have top := congrArg (fun x => BitVec.getLsbD x 128) h
    simp only [firstHalfOf, BitVec.getLsbD_append, BitVec.getLsbD_not, BitVec.getLsbD_extractLsb'] at top
    simp at top
  exact ⟨_, other _⟩

theorem test_wrong_digest_ends_mismatch :
    let page : Vector Byte 20 := ⟨(modulePage .response 0 true 9).bytes.toArray, by decide +kernel⟩
    (after (.tetherPageReceived page) (checking (.awaiting 0) 0)).binding.state = .mismatch ∧
      (after (.tetherPageReceived page) (checking (.awaiting 0) 0)).events.detail = [.unbound] ∧
      (after (.tetherPageReceived page) (checking (.awaiting 1) 0)).binding.rounds = 1 := by decide +kernel

/-- A wipe of the shadow, and of range 1, at the key step. -/
def wipingShadow : State := planned ready { emptyPlan with items := [{ target := .shadow, step := .pending }] }
def wipingRange : State :=
  planned (withRange1 ready .erasing true) { emptyPlan with items := [{ target := .range 1, step := .pending }], overwrite := true }

theorem witness_WipeWorkBegins_shadow :
    wipingShadow.power.part = .ready ∧ wipingShadow.store.idle = true ∧ wipingShadow.wipe.stepInFlight = false ∧
      wipingShadow.plan.current = some { target := .shadow, step := .pending } ∧
      wipingShadow.wipe.intended.current = some { target := .shadow, step := .pending } ∧
      wipingShadow.wipe.intended.overwrite = false := by decide +kernel
theorem witness_WipeWorkBegins_range :
    wipingRange.plan.current = some { target := .range 1, step := .pending } ∧
      wipingRange.wipe.intended.current = some { target := .range 1, step := .pending } ∧ wipingRange.defined 1 = true ∧
      wipingRange.table[1].service = .erasing ∧ (wipingRange.range 1).fields.access.length ≤ 6 ∧ wipingRange.store.idle = true ∧
      wipingRange.wipe.intended.overwrite = true ∧
      (setRecord1 wipingRange { record1 with fields := { record1.fields with access := [0, 1, 2, 3, 4, 5] } } |>.range 1).fields.access.length
        ≤ 6 := by decide +kernel
/-- The key step of range 1 with a longer list or in another service state, and of range 2, which is UNDEFINED. -/
def wipingListed (access : List SlotId) : State := setRecord1 wipingRange { record1 with fields := { record1.fields with access := access } }
def wipingStill (service : Service) : State := { wipingRange with table := wipingRange.table.set 1 { wipingRange.table[1] with service := service } }
def wipingUndefined : State := planned ready { emptyPlan with items := [{ target := .range 2, step := .pending }] }

theorem witness_WipeWorkBegins_more :
    (∀ access ∈ [allSlots, allSlots.take 7], let s := wipingListed access;
      s.power.part = .ready ∧ s.store.idle = true ∧ s.wipe.stepInFlight = false ∧
        s.plan.current = some { target := .range 1, step := .pending } ∧
        s.wipe.intended.current = some { target := .range 1, step := .pending } ∧ s.defined 1 = true ∧ s.table[1].service = .erasing ∧
        7 ≤ (s.range 1).fields.access.length ∧ (s.range 1).fields.access.Pairwise (· < ·)) ∧
    (wipingUndefined.plan.current = some { target := .range 2, step := .pending } ∧
      wipingUndefined.wipe.intended.current = some { target := .range 2, step := .pending } ∧ wipingUndefined.defined 2 = false ∧
      wipingUndefined.table[2].service = .undefined ∧ wipingUndefined.store.idle = true) ∧
    ∀ service ∈ [Service.active, .lockdown], (wipingStill service).table[1].service = service ∧ (wipingStill service).defined 1 = true ∧
      (wipingStill service).plan.current = some { target := .range 1, step := .pending } := by decide +kernel

/-- R127: eight slots are trimmed to six first; the item of an UNDEFINED range is DONE with its plan group; an ACTIVE range is marked. -/
theorem test_key_step_trims_skips_and_marks :
    ((after .keyStep (wipingListed allSlots)).store.writing.map (fun w => w.group.cells)) = some [.range 1, .cred 6, .cred 7] ∧
      (after .keyStep wipingUndefined).wipe.intended = emptyPlan ∧ (after .keyStep (wipingStill .active)).table[1].service = .erasing := by
  decide +kernel

theorem witness_WipeWorkBegins_overwrite :
    overwriting.overwriteTarget = some .shadow ∧ overwriting.wipe.asked = false ∧ overwriting.overwriteLane = none ∧
      overwriting.abortsOver .shadow = true ∧ overwriting.extentNext .shadow overwriting.position = some 0 ∧
      (∃ key, overwriting.wipe.key.or (overwriting.rootKeyOf .shadow) = some key) :=
  ⟨by decide +kernel, rfl, by decide +kernel, by decide +kernel, by decide +kernel, _, rfl⟩

/-- The overwrite of the shadow may begin but for a write of the shadow that FRONT_RESET left in a stopping lane. -/
def overwritingBehindWrite : State :=
  { overwriting with lanes := ready.lanes.set 3 { idleLane with task := some (.cleared (some .shadow)), issued := [7], stopping := true } }

theorem witness_WipeWorkBegins_waits :
    overwritingBehindWrite.power.powered = true ∧ overwritingBehindWrite.overwriteTarget = some .shadow ∧
      overwritingBehindWrite.lanes[(3 : LaneId)].task = some (.cleared (some .shadow)) ∧
      (let s := carrying overwriting .write .aborting { segment0 3 1 .inLane with owner := .shadow };
        ∃ y, s.inflight[(31 : Tag)] = some y ∧ y.state = .aborting ∧ (∃ z ∈ y.segments, z.owner = .shadow) ∧
          s.overwriteTarget = some .shadow) := by
  refine ⟨rfl, by decide +kernel, rfl, _, rfl, rfl, ⟨_, List.mem_cons_self .., rfl⟩, by decide +kernel⟩

/-- R130: the overwrite begins only behind the answer of that write; R46: a cleared lane remembers whose write it stops in. -/
theorem test_overwrite_waits_for_cleared_write :
    (after .overwriteStart overwritingBehindWrite).overwriteLane = none ∧
      (after .overwriteStart (after (.mediaAcknowledge 3 (.answer [])) overwritingBehindWrite)).overwriteLane = some 0 ∧
      (after .frontReset (inLane3 (carrying ready .write .running (segment0 3 1 .inLane)) [101] [])).lanes[3].task =
        some (.cleared (some (segment0 3 1 .inLane).owner)) ∧
      (after .frontReset (inLane3 (carrying ready .read .running (segment0 3 1 .inLane)) [101] [])).lanes[3].task =
        some (.cleared none) := by decide +kernel

/-- An overwrite segment of the shadow in lane 3, at a block of it, with the answers the lane waits for. -/
def overwriteSegment (first count progress : Nat) (issued : List Nat) (failing : Option Nat) (stopping : Bool) : State :=
  let lane : Lane := { task := some (.overwrite first count progress), issued := issued, fetched := [], stopping := stopping
                       failing := failing }
  { overwriting with lanes := ready.lanes.set 3 lane, wipe := { overwriting.wipe with key := some 3, position := some first } }

/-- A block that is not the last; a segment that ends with the extent going on, at 4,096 blocks, at the end of the extent; the errors. -/
theorem witness_WipeWorkBegins_answers :
    (∀ c ∈ [(0, 4096, 0, [0]), (0, 4095, 4094, [4094]), (0, 4096, 4095, [4095]), (61440, 4096, 4095, [65535])],
      let s := overwriteSegment c.1 c.2.1 c.2.2.1 c.2.2.2 none false
      s.power.part = .ready ∧ s.power.restarting = false ∧ s.lanes[(3 : LaneId)].task = some (.overwrite c.1 c.2.1 c.2.2.1) ∧
        s.lanes[(3 : LaneId)].issued = [c.1 + c.2.2.1] ∧ s.overwriteTarget = some .shadow ∧ s.wipe.key = some 3) ∧
    overwriting.extentNext .shadow 4095 = some 4095 ∧ overwriting.extentNext .shadow 4096 = some 4096 ∧
      overwriting.extentNext .shadow 65536 = none ∧
    (overwriteSegment 0 4096 7 [8] (some 7) false).lanes[3].failing = some 7 ∧
      (overwriteSegment 0 4096 7 [7, 8] none false).lanes[3].issued = 7 :: 8 :: [] ∧
      (overwriteSegment 0 4096 7 [7] none true).lanes[3].stopping = true := by decide +kernel

/-- R131: the 4,096th block calls for a cursor group, and the last block of the extent for the group that ends the item. -/
theorem test_overwrite_segment_ends :
    (after (.mediaAcknowledge 3 (.answer [])) (overwriteSegment 0 4096 4095 [4095] none false)).wipe.intended.cursor = some 4096 ∧
      (after (.mediaError 3 7) (overwriteSegment 0 4096 7 [7] none false)).wipe.count = 8 ∧
      (after (.mediaAcknowledge 3 (.answer [])) (overwriteSegment 61440 4096 4095 [65535] none false)).wipe.intended = emptyPlan := by
  decide +kernel

theorem test_overwrite_starts_in_a_lane : (after .overwriteStart overwriting).lanes[0].issued = [0] := by decide +kernel

/-- A WIPE of range 1 and the shadow, and one of everything. -/
def wipe2 : WipeArgs := { scope := .targets [.range 1, .shadow], overwrite := false, credential := .absent }

theorem witness_WipeMarksAtOnce :
    let s := withRange1 admin .active false
    s.admin = true ∧ s.power.restarting = false ∧ wipe2.credential = .absent ∧ scopeOf wipe2.scope = some [.range 1, .shadow] ∧
      (s.planToAccept wipe2.overwrite).accept [.range 1, .shadow] wipe2.overwrite (wipe2.scope = .all) ≠ s.wipe.intended ∧
      s.wipe.intended.item (.range 1) = none ∧ s.wipe.intended.item .shadow = none ∧ s.table[1].service = .active ∧
      s.keyStepUnderWay = none ∧ scopeOf .all = some allTargets := by decide +kernel

theorem test_wipe_marks_range : (after (.wipe 0 (.fits wipe2)) (withRange1 admin .active false)).table[1].service = .erasing := by
  decide +kernel

/-- A plan whose only item, the shadow, has its new key. -/
def shadowKeysGone : WipePlan := { emptyPlan with items := [{ target := .shadow, step := .keysDestroyed }] }

/-- The key step of the shadow, the end of its plan, and the final commit of a full wipe, each at the close of its group. -/
def stepClosing : State :=
  closing { wipingShadow with wipe := { wipingShadow.wipe with stepInFlight := true } }
    (wipeGroup ([.shadow { enabled := false, size := 16384, rootWrap := 3 }] ++ [.plan shadowKeysGone])
      [.keyStep .shadow 3] true)
def doneClosing : State :=
  let s := planned ready shadowKeysGone
  closing { s with wipe := { s.wipe with intended := emptyPlan } } (wipeGroup [.plan emptyPlan] [.itemDone .shadow, .planEnded .shadow] false)
def finalClosing : State :=
  closing ready { submitter := .wipeEngine, records := ready.finalRecords 1 2 3, effects := [.finalCommit 2], rewrites := true, final := true }

theorem witness_WipeStepsClose :
    (stepClosing.readyToClose (wipeGroup ([.shadow { enabled := false, size := 16384, rootWrap := 3 }] ++ [.plan shadowKeysGone])
        [.keyStep .shadow 3] true) ∧ stepClosing.plan.item .shadow = some { target := .shadow, step := .pending } ∧
      shadowKeysGone.item .shadow = some { target := .shadow, step := .keysDestroyed }) ∧
    (doneClosing.readyToClose (wipeGroup [.plan emptyPlan] [.itemDone .shadow, .planEnded .shadow] false) ∧
      doneClosing.wipe.intended.unfinished .shadow = false ∧ doneClosing.wipe.intended.full = emptyPlan.full) :=
  ⟨⟨closing_ready _ _ rfl (by decide), by decide +kernel, by decide +kernel⟩,
    closing_ready _ _ rfl (by decide), by decide +kernel, rfl⟩

/-- The trim group of range 1, with slots 6 and 7 cut off, at its close. -/
def trimmedCreds : List (SlotId × CredRecord) := [(6, emptySlot), (7, emptySlot)]
def trimGroup : Group :=
  wipeGroup (.range 1 { record1 with fields := { record1.fields with access := allSlots.take 6 } } ::
    trimmedCreds.map (fun p => Record.cred p.1 p.2)) [.trimmed 1] true
def trimClosing : State := closing { wipingListed allSlots with wipe := { wipingRange.wipe with stepInFlight := true } } trimGroup

theorem witness_WipeStepsClose_trim : trimClosing.readyToClose trimGroup ∧ (trimClosing.plan.items.map (·.target)).Nodup :=
  ⟨closing_ready _ _ rfl (by decide), by decide +kernel⟩
theorem test_trim_closes :
    (after (.groupClose quietScan) trimClosing).wipe.stepInFlight = false ∧
      (after (.groupClose quietScan) trimClosing).staging[1].fields.access = allSlots.take 6 := by decide +kernel

/-- A key step group that writes its item DONE at once: of range 1 at the end of its plan, on a NORMAL device and in LOCKDOWN, with an item
behind it, and of the shadow with its window present. -/
def rangeRekeyed (device : Device) (p : WipePlan) (ended : List Effect) : State :=
  let s := planned (withRange1 ready .erasing true) { emptyPlan with items := [{ target := .range 1, step := .pending }], full := p.full }
  closing { s with
      wipe := { s.wipe with intended := p, stepInFlight := true }, trigger := { s.trigger with working := { device := device, causes := [] } } }
    (wipeGroup ([.range 1 (s.keyStepRecord 1 5)] ++ [.plan p]) (.keyStep (.range 1) 5 :: .itemDone (.range 1) :: ended) true)
def rangeFollowed (full : Bool) : WipePlan :=
  { emptyPlan with items := [{ target := .range 1, step := .done }, { target := .shadow, step := .pending }], full := full }
def shadowRekeyed : State :=
  let s := planned (shadowed ready .on) { emptyPlan with items := [{ target := .shadow, step := .pending }] }
  closing { s with wipe := { s.wipe with intended := emptyPlan, stepInFlight := true } }
    (wipeGroup ([.shadow { enabled := true, size := 16384, rootWrap := 3 }] ++ [.plan emptyPlan])
      (.keyStep .shadow 3 :: .itemDone .shadow :: [.planEnded .shadow]) true)

theorem witness_WipeStepsClose_atOnce (device : Device) :
    (rangeRekeyed device emptyPlan [.planEnded (.range 1)]).readyToClose
        (wipeGroup ([.range 1 ((withRange1 ready .erasing true).keyStepRecord 1 5)] ++ [.plan emptyPlan])
          (.keyStep (.range 1) 5 :: .itemDone (.range 1) :: [.planEnded (.range 1)]) true) ∧
      (rangeRekeyed device emptyPlan [.planEnded (.range 1)]).plan.item (.range 1) = some { target := .range 1, step := .pending } ∧
      emptyPlan.item (.range 1) = none ∧
      (rangeRekeyed device emptyPlan [.planEnded (.range 1)]).wipe.intended.unfinished (.range 1) = false ∧
      (rangeRekeyed device emptyPlan [.planEnded (.range 1)]).table[1].service = .erasing ∧
      (rangeRekeyed device emptyPlan [.planEnded (.range 1)]).trigger.working.device = device :=
  ⟨closing_ready _ _ rfl (by decide), rfl, rfl, rfl, rfl, rfl⟩
theorem witness_WipeStepsClose_atOnce_more :
    (∀ full : Bool, (rangeRekeyed .normal (rangeFollowed full) []).plan.item (.range 1) = some { target := .range 1, step := .pending } ∧
      (rangeFollowed full).item (.range 1) = some { target := .range 1, step := .done } ∧
      (rangeRekeyed .normal (rangeFollowed full) []).wipe.intended.unfinished (.range 1) = false ∧
      (rangeRekeyed .normal (rangeFollowed full) []).wipe.intended.full = (rangeFollowed full).full) ∧
    shadowRekeyed.plan.item .shadow = some { target := .shadow, step := .pending } ∧ emptyPlan.item .shadow = none ∧
      shadowRekeyed.wipe.intended.unfinished .shadow = false ∧ shadowRekeyed.shadow = .on := by decide +kernel

def finalDeriving : State := { ready with derivations := [.wipeEngine], wipe := { ready.wipe with final := .deriving 1 } }

theorem witness_FullWipeEndsInFinalGroup :
    (finalDeriving.power.part = .ready ∧ finalDeriving.power.restarting = false ∧ finalDeriving.store.idle = true ∧
      finalDeriving.executor = freeExecutor) ∧
    finalClosing.power.part = .ready ∧ finalClosing.readyToClose
      { submitter := .wipeEngine, records := finalClosing.finalRecords 1 2 3, effects := [.finalCommit 2], rewrites := true, final := true } :=
  ⟨⟨rfl, rfl, by decide +kernel, rfl⟩, rfl, by
    rw [show finalClosing.finalRecords 1 2 3 = ready.finalRecords 1 2 3 from closing_final ..]
    exact closing_ready _ _ rfl (by decide +kernel)⟩

theorem witness_BadFramesAreAnswered :
    (List.replicate 6 (0xA7 : Byte)).length < 7 ∧ 519 < (List.replicate 520 (0xA7 : Byte)).length ∧
      ([0xA6, 0, 2, 1, 0, 0, 0] : List Byte).head? ≠ some 0xA7#8 ∧
      bigEndian ((([0xA7, 0, 3, 1, 0, 0, 0] : List Byte).drop 1).take 2) ≠ ([0xA7, 0, 3, 1, 0, 0, 0] : List Byte).length - 5 ∧
      (crc16 ((([0xA7, 0, 2, 1, 0, 0, 0] : List Byte).drop 3).take 2)).toNat ≠
        bigEndian (([0xA7, 0, 2, 1, 0, 0, 0] : List Byte).drop 5) ∧
      (0x00 : Byte).toNat = 0 ∧ 24 < (0x19 : Byte).toNat ∧ (List.replicate 512 (0 : Byte)).length ≤ 512 := by decide +kernel

theorem test_short_record_is_answered :
    (after (.badFrame [0xA7, 0, 2, 1]) ready).sent = [.reply { kind := 0xFF, tag := 0, code := .badFrame, payload := .none }] := by
  decide +kernel
theorem test_unknown_kind_is_answered :
    (after (.unknownKind (frameBytes 25 7 [])) ready).sent =
      [.reply { kind := 0xFF, tag := 7, code := .unknownKind, payload := .none }] := by decide +kernel

theorem witness_StatusIsAnsweredAtOnce : State.reset.power.powered = true := rfl

theorem witness_RequestsAreGated :
    requestKind (.rangeDiscard 5 .misfit) = some 9 ∧ requestTag (.rangeDiscard 5 .misfit) = some 5 ∧ State.reset.power.part = .starting ∧
      (entering true).power.part = .sleepEntering ∧ (asleep ready).power.part = .asleep ∧
      (busy admin .immediate .working).power.part = .ready ∧ (busy admin .immediate .working).executor.status ≠ .free ∧
      ({ ready with power := { ready.power with part := .failsafe } } : State).power.part = .failsafe ∧ 9 ≠ 23 ∧
      (ready.power.powered = true ∧ ready.executor.status = .free) ∧ ready.admin = false ∧ (List.replicate 14 1).length ≤ 14 := by
  decide +kernel

theorem admin_takesRequest : admin.takesRequest := ⟨rfl, rfl, rfl⟩

theorem witness_EventRequestsChangeSets :
    State.reset.power.part = .starting ∧ (asleep ready).power.part = .asleep ∧
      ({ ready with power := { ready.power with part := .failsafe } } : State).power.part = .failsafe ∧
      ready.takesRequest ∧ ready.admin = false ∧ admin.takesRequest ∧ admin.admin = true ∧ (List.range' 1 14).length ≤ 14 ∧ (List.range' 1 14).Nodup ∧
      (∀ n ∈ List.range' 1 14, 1 ≤ n ∧ n ≤ 14) ∧ ¬ [3, 3].Nodup ∧ (∃ n ∈ [0], n < 1 ∨ 14 < n) ∧ (∃ n ∈ [15], n < 1 ∨ 14 < n) :=
  ⟨rfl, rfl, rfl, ⟨rfl, rfl, rfl⟩, rfl, admin_takesRequest, rfl, by decide, by decide, by decide, by decide, ⟨0, by decide, by decide⟩,
    ⟨15, by decide, by decide⟩⟩

theorem test_ack_lowers_alert :
    (after (.eventsAck 1 (.fits [9])) { alerted with authority := admin.authority }).events.alert = false := by decide +kernel

/-- AUTHENTICATE of slot 0 with a secret of a given length. -/
def authArgs (n : Nat) : AuthArgs := { slot := 0, secret := List.replicate n 0, unlock := [] }

theorem witness_AuthenticateChargesOrIsRefused :
    ready.store.idle = true ∧ (authArgs 8).slot = (0 : SlotId).val ∧ unlockSetOf (authArgs 8).unlock = some [] ∧
      (authArgs 8).unlock.length ≤ 16 ∧ 8 ≤ (authArgs 8).secret.length ∧ (authArgs 64).secret.length ≤ 64 ∧
      (ready.cred 0).state = .active ∧ ready.openAt[0] ≤ ready.clock ∧ ready.binding.state ≠ .checking ∧ (ready.cred 1).state ≠ .active ∧
      ({ ready with openAt := ready.openAt.set 0 101 } : State).clock < ({ ready with openAt := ready.openAt.set 0 101 } : State).openAt[0] := by
  decide +kernel

/-- R64: "1 ms to 100 ms remaining gives 1, and 101 ms gives 2". -/
theorem test_retry_after_rounds_up :
    ({ ready with openAt := ready.openAt.set 0 1 } : State).retryAfter 0 = 1 ∧
      ({ ready with openAt := ready.openAt.set 0 100 } : State).retryAfter 0 = 1 ∧
      ({ ready with openAt := ready.openAt.set 0 101 } : State).retryAfter 0 = 2 := by decide +kernel

theorem witness_ClosedPeriodDoublesToCap : (defaultPolicy.free < 13 ∧ 13 < defaultPolicy.free + 11) ∧ defaultPolicy.free + 11 ≤ 14 := by
  decide +kernel

theorem witness_AuthorityEndsOnRequestOrIdle :
    admin.takesRequest ∧ admin.authority.isSome = true ∧ ready.takesRequest ∧ ready.authority = none ∧
      ({ admin with authTimer := some 0 } : State).authTimer = some 0 := ⟨admin_takesRequest, rfl, ⟨rfl, rfl, rfl⟩, rfl, rfl⟩

/-- Slot 0 is on range 1's access list, and range 1's key is in hand. -/
theorem witness_CredSetStartsDerivation :
    let s := withRange1 admin .active false
    s.maySetCred 0 = true ∧ (∀ r, (0 : SlotId) ∈ (s.range r).fields.access → (s.credSetKey 0 r).isSome = true) ∧
      (0 : SlotId) ∈ (s.range 1).fields.access ∧ 8 ≤ (List.replicate 8 (0 : Byte)).length ∧ (List.replicate 64 (0 : Byte)).length ≤ 64 := by
  decide +kernel

/-- Slot 1 in a state. -/
def slot1 (state : SlotState) (failures : Nat) : State :=
  let creds := admin.store.creds.set 1
    (manufacturedCell { emptySlot with state := state, failures := failures, policy := { defaultPolicy with limit := 3 } })
  { admin with store := { admin.store with creds := creds } }

/-- Slot 7, a RECOVERY slot, holds authority. -/
def recovery : State := { ready with authority := some { slot := 7, unwrap := { secret := [], salt := 0, e := 16 } } }

theorem witness_CredPolicyAndStateBeginGroup_checks :
    recovery.takesRequest ∧ roleOf 7 = .recovery ∧ (0 : Nat) < 2 ∧ (6 : Nat) < 7 ∧ (6 : Nat) < 8 ∧ roleOf 0 = .admin ∧ roleOf 2 = .user ∧
      ready.takesRequest ∧ ready.authority = none := by
  refine ⟨⟨rfl, rfl, rfl⟩, ?_⟩; exact ⟨rfl, by decide, by decide, by decide, rfl, rfl, ⟨rfl, rfl, rfl⟩, rfl⟩

/-- R69, R70, R166: RECOVERY may not touch slot 0, 7 or 8, whatever the action; on slot 2 an unknown action is BAD_BODY. -/
theorem test_recovery_cred_state_checks :
    (∀ n ∈ [0, 7, 8], (after (.credStateEnable 3 (.fits { slot := n, actionKnown := false })) recovery).sent =
      [replyTo 14 3 .noAuthority .none]) ∧
    (after (.credStateEnable 3 (.fits { slot := 2, actionKnown := false })) recovery).sent = [replyTo 14 3 .badBody .none] := by
  decide +kernel

theorem witness_CredPolicyAndStateBeginGroup :
    admin.admin = true ∧ admin.store.idle = true ∧ ((slot1 .empty 0).cred 1).state = .empty ∧
      ((slot1 .disabled 2).cred 1).state = .disabled ∧ ((slot1 .disabled 2).cred 1).failures ≠ ((slot1 .disabled 2).cred 1).policy.limit ∧
      ((slot1 .active 0).cred 1).state = .active ∧ ((slot1 .lockedOut 3).cred 1).state = .lockedOut ∧
      (slot1 .lockedOut 3).store.idle = true := by decide +kernel

theorem test_policy_pulls_failures_down :
    (({ emptySlot with state := .active, failures := 5 } : CredRecord).withPolicy { e := 20, free := 3, base := 10, limit := 4 }).state =
        .lockedOut ∧
      (({ emptySlot with state := .active, failures := 5 } : CredRecord).withPolicy { e := 20, free := 3, base := 10, limit := 4 }).policy.e =
        16 := by decide +kernel

/-- An attempt of slot 0 with its verdict, at the close of its group. -/
def verdict (phase : AttemptPhase) : Attempt :=
  { slot := 0, secret := List.replicate 32 0, unlock := [{ range := 1, dirs := { read := true, write := true } }], phase := phase, settledAt := 0 }
def counters1 : Counters := { g := 1, marker := none, idleLimit := 300 }
def succeeding : State :=
  let s := busy (withRange1 ready .active true) (.attempt (verdict (.verdict true))) .submitted
  closing s (requestGroup [.cred 0 { s.cred 0 with failures := 0 }, .counters counters1])

theorem witness_SuccessOpensAndGrants :
    succeeding.power.part = .ready ∧ succeeding.executor.status = .executing ∧
      succeeding.executor.job = .attempt (verdict (.verdict true)) ∧
      succeeding.readyToClose (requestGroup [.cred 0 { succeeding.cred 0 with failures := 0 }, .counters counters1]) ∧
      Trigger.guessLimit ∉ succeeding.trigger.working.causes ∧ ((verdict (.verdict true)).unlock.map (·.range)).Nodup ∧
      succeeding.table[1].service = .active ∧ (succeeding.key (.range 1)).state ≠ .empty :=
  ⟨rfl, rfl, rfl, closing_ready _ _ rfl (by decide), by decide +kernel, by decide, by decide +kernel, by decide +kernel⟩

theorem test_success_opens_range : (after (.groupClose quietScan) succeeding).table[1].readLocked = false ∧
    (after (.groupClose quietScan) succeeding).authority.isSome = true := by decide +kernel

def failing (phase : AttemptPhase) (status : ExecStatus) (lockOut : List Record) : State :=
  let s := busy admin (.attempt (verdict phase)) .submitted
  closing { s with executor := { s.executor with status := status } } (requestGroup (.counters counters1 :: lockOut))

theorem witness_FailureBacksOff :
    (failing (.verdict false) .executing []).readyToClose (requestGroup [.counters counters1]) ∧
      (failing (.verdict false) .executing []).executor.job = .attempt (verdict (.verdict false)) ∧
      (failing .settling .abandoned []).readyToClose (requestGroup [.counters counters1]) ∧
      (failing .settling .abandoned []).executor.status = .abandoned ∧
      (failing (.verdict false) .executing [.cred 0 { admin.cred 0 with state := .lockedOut }]).readyToClose
        (requestGroup [.counters counters1, .cred 0 { admin.cred 0 with state := .lockedOut }]) ∧
      (failing .settling .abandoned []).power.part = .ready :=
  ⟨closing_ready _ _ rfl (by decide), rfl, closing_ready _ _ rfl (by decide), rfl,
    closing_ready _ _ rfl (by decide), rfl⟩

/-- An enrolment, and a CRED-SET of slot 0 in its derivation and at its close. -/
def enrolClosing : State :=
  closing (busy admin (.enrol none (some 3)) .submitted) (requestGroup [.binding { enrolled := some { digest := 3, secret := 5 }, recheck := 10 }])
def credJob : CredSetJob := { slot := 0, secret := List.replicate 8 1, policy := defaultPolicy, salt := 4, keys := [(1, 7)], dropped := [] }
def credDeriving : State := { busy admin (.credSet credJob) .working with derivations := [.executor] }
def newCred : CredRecord :=
  { state := .active, salt := some 4, verifier := some { madeFrom := { secret := List.replicate 8 1, salt := 4, e := 16 } }
    policy := defaultPolicy, failures := 0, wraps := [] }

theorem witness_EnrolmentAndCredSetClose :
    (enrolClosing.readyToClose (requestGroup [.binding { enrolled := some { digest := 3, secret := 5 }, recheck := 10 }]) ∧
      enrolClosing.executor.status = .executing ∧ enrolClosing.executor.job = .enrol none (some 3)) ∧
    (credDeriving.power.powered = true ∧ credDeriving.power.part = .ready ∧ credDeriving.store.idle = true ∧
      credDeriving.executor.stage = .working ∧ credDeriving.executor.job = .credSet credJob) ∧
    (closing (busy admin (.credSet credJob) .submitted) (requestGroup (.cred 0 newCred :: []))).readyToClose
      (requestGroup (.cred 0 newCred :: [])) :=
  ⟨⟨closing_ready _ _ rfl (by decide), rfl, rfl⟩, ⟨rfl, rfl, by decide +kernel, rfl, rfl⟩,
    closing_ready _ _ rfl (by decide)⟩

theorem test_enrolment_binds : (after (.groupClose quietScan) enrolClosing).binding.state = .bound := by decide +kernel

/-- Both directions of range 1. -/
def both1 : RangeDirs := { range := 1, dirs := [.value .read, .value .write] }

theorem witness_LocksOpenAndClose :
    let s := withRange1 admin .active true
    unlockOf both1 = some { range := 1, dirs := { read := true, write := true } } ∧
      (∃ a, s.authority = some a ∧ roleOf a.slot = .admin) ∧ s.trigger.working.device = .normal ∧ s.table[1].service = .active ∧
      (s.key (.range 1)).state ≠ .empty ∧ (withRange1 admin .erasing true).table[1].service = .erasing ∧
      admin.table[1].service = .undefined :=
  ⟨by decide +kernel, ⟨_, rfl, by decide⟩, rfl, rfl, by decide, rfl, by decide +kernel⟩

/-- Slot 3, which is not on the list of range 1, or slot 0 holds authority over range 1, whose entry is EMPTY. -/
def refusedUnlock (slot : SlotId) (device : Device) (service : Service) : State :=
  let s := withRange1 ready service true
  { s with
    authority := some { slot := slot, unwrap := { secret := [], salt := 0, e := 16 } }
    trigger := { s.trigger with working := { device := device, causes := [] } }, cache := s.cache.set 1 emptyKey }
/-- Slot 1, an ADMIN slot, is not on the list of range 1; slot 0 is on it and holds no wrap. -/
theorem witness_LocksOpenAndClose_refusals :
    (∀ slot ∈ [(0 : SlotId), 1], ∀ device ∈ [Device.normal, .lockdown], ∀ service ∈ [Service.active, .lockdown],
      let s := refusedUnlock slot device service;
      s.power.part = .ready ∧ s.executor.status = .free ∧ roleOf slot = .admin ∧ s.authority.map (·.slot) = some slot ∧
        s.trigger.working.device = device ∧ s.table[1].service = service ∧ (s.key (.range 1)).state = .empty) ∧
    (1 : SlotId) ∉ record1.fields.access ∧ (0 : SlotId) ∈ record1.fields.access ∧ ((refusedUnlock 0 .normal .active).cred 0).wraps = [] ∧
    roleOf 3 ≠ .admin ∧ (3 : SlotId) ∉ ((refusedUnlock 3 .normal .active).range 1).fields.access ∧ ready.authority = none ∧
    15 < 16 ∧ (¬ [Field.value Direction.read, .value .read].Nodup) ∧ Field.unknown ∈ [Field.value Direction.read, .unknown] := by
  decide +kernel
theorem test_unlock_is_refused :
    [refusedUnlock 1 .lockdown .lockdown, refusedUnlock 1 .normal .updating, refusedUnlock 1 .normal .active, refusedUnlock 0 .normal .active,
        refusedUnlock 3 .normal .active].map (fun s => (after (.rangeUnlock 1 (.fits both1)) s).sent) =
      [[replyTo 6 1 .lockdown .none], [replyTo 6 1 .slotState (.range (some 1))], [replyTo 6 1 .keyUnavailable (.range (some 1))],
        [replyTo 6 1 .keyUnavailable (.range (some 1))], [replyTo 6 1 .noAuthority .none]] ∧
      (after (.rangeLock 1 (.fits { range := 1, dirs := [] })) admin).sent = [replyTo 7 1 .badBody .none] := by decide +kernel

theorem test_unlock_and_lock :
    (after (.rangeUnlock 1 (.fits both1)) (withRange1 admin .active true)).table[1].readLocked = false ∧
      (after (.rangeLock 1 (.fits both1)) (withRange1 admin .active false)).table[1].writeLocked = true ∧
      (after (.rangeLock 1 (.fits both1)) (withRange1 admin .active false)).cache[1].state = .empty := by decide +kernel

/-- A RANGE-STAGE of a unit size alone. -/
def stageUnit (range : Nat) (unitSize : Option Nat) : StageArgs := ⟨range, none, none, none, none, none, unitSize, none, none, none, true⟩

theorem witness_StagingIsWrittenDiscardedAndRead :
    ready.takesRequest ∧ ready.admin = false ∧ ((stageUnit 16 none).access.getD []).length ≤ 8 ∧ admin.takesRequest ∧
      admin.admin = true ∧ stageMisnamed (stageUnit 16 none) ∧ stageMisnamed (stageUnit 1 (some 4095)) ∧
      ¬ stageMisnamed (stageUnit 15 (some 4096)) ∧ (∀ u, (stageUnit 15 (some 4096)).unitSize = some u → u ≤ admin.profile.blockSize) ∧
      (stageUnit 15 (some 4096)).range = (15 : RangeId).val ∧
      (∃ u, (stageUnit 15 (some 4096)).unitSize = some u ∧ worked232.profile.blockSize < u) ∧ 15 < 16 :=
  ⟨⟨rfl, rfl, rfl⟩, rfl, by decide, admin_takesRequest, rfl, by simp [stageMisnamed, stageUnit], by simp [stageMisnamed, stageUnit], by simp [stageMisnamed, stageUnit],
    fun u h => by cases h; decide +kernel, rfl, ⟨4096, rfl, by decide +kernel⟩, by decide⟩

/-- R15: a staged access list is ascending, whatever the order given. -/
theorem test_staged_access_is_ascending :
    (after (.rangeStage 1 (.fits { stageUnit 1 none with access := some [5, 0, 3] })) admin).staging[1].fields.access = [0, 3, 5] := by
  decide +kernel

theorem test_stage_sets_mark :
    (after (.rangeStage 1 (.fits (stageUnit 1 (some 512)))) admin).staging[1] =
      { fields := { admin.staging[1].fields with unitSize := 512 }, newKey := true } := by decide +kernel

/-- Range 1 staged with a single block. -/
def shrinking : State :=
  let s := withRange1 admin .active false
  { s with staging := s.staging.set 1 { fields := { record1.fields with length := 1 }, newKey := false } }

theorem witness_CommitStartsDrainWait :
    shrinking.admin = true ∧ shrinking.commitRefusal = none ∧ shrinking.staging[1].fields ≠ (shrinking.range 1).fields ∧
      shrinking.affects 1 = true ∧ shrinking.affects 0 = false ∧ admin.commitRefusal = none ∧
      (∀ r : RangeId, admin.staging[r].fields = (admin.range r).fields ∧ admin.staging[r].newKey = false) := by decide +kernel

theorem test_commit_takes_range_to_updating :
    (after (.rangeCommit 1 (.fits ())) shrinking).table[1].service = .updating ∧
      (after (.rangeCommit 1 (.fits ())) shrinking).executor.stage = .submitted := by decide +kernel

/-- The commit of that range in execution, with a root wrap of range 0 that can be compared, and at the close of its group. -/
def commit1 : Commit := { affected := [(1, .active)], held := [], keys := [(1, 7)], newKeys := [], drainSince := 0 }
def committing : State :=
  busy { shrinking with
    table := shrinking.table.set 1 { shrinking.table[1] with service := .updating }
    store := { shrinking.store with ranges := shrinking.store.ranges.set 0 (manufacturedCell (manufacturedRange 5 0)) } }
    (.commit commit1) .submitted
def switching : State := closing committing (requestGroup (committing.commitRecords commit1))

theorem witness_CommitSwitchesAtClose :
    switching.executor.status = .executing ∧ switching.executor.job = .commit commit1 ∧ commit1.held = [] ∧
      switching.readyToClose (requestGroup (switching.commitRecords commit1)) :=
  ⟨rfl, rfl, rfl, by rw [switching, closing_commit]; exact closing_ready committing _ rfl (by decide +kernel)⟩

/-- Range 1 loses both locks at the switch, with its key in hand at the checks and its entry EMPTY since (R12). -/
def unlocking : State :=
  let s := committing
  busy { s with
      table := s.table.set 1 { s.table[1] with service := .active }
      staging := s.staging.set 1 { fields := { record1.fields with readLock := false, writeLock := false }, newKey := false }
      cache := s.cache.set 1 emptyKey }
    (.commit { commit1 with affected := [] }) .submitted
def unlockSwitching : State := closing unlocking (requestGroup (unlocking.commitRecords { commit1 with affected := [] }))

theorem unlocking_records :
    unlockSwitching.commitRecords { commit1 with affected := [] } = unlocking.commitRecords { commit1 with affected := [] } := by
  decide +kernel

theorem witness_CommitSwitchesAtClose_locks :
    unlockSwitching.executor.status = .executing ∧ unlockSwitching.executor.job = .commit { commit1 with affected := [] } ∧
      unlockSwitching.readyToClose (requestGroup (unlockSwitching.commitRecords { commit1 with affected := [] })) ∧
      unlockSwitching.defined 1 = true ∧ unlockSwitching.removes 1 = false ∧ unlockSwitching.receivesKey 1 = false ∧
      (unlockSwitching.range 1).fields.readLock = true :=
  ⟨rfl, rfl, by rw [unlocking_records]; exact closing_ready unlocking _ rfl (by decide +kernel), by decide +kernel, by decide +kernel,
    by decide +kernel, by decide +kernel⟩

/-- R22: the entry is loaded from the new root wrap, which holds the key of the checks. -/
theorem test_switch_unlocks : (after (.groupClose quietScan) unlockSwitching).key (.range 1) =
    { state := .live, material := some 7, generation := some 1, refs := 0 } := by decide +kernel

theorem test_switch_takes_effect : ((after (.groupClose quietScan) switching).range 1).fields.length = 1 ∧
    (after (.groupClose quietScan) switching).table[1].service = .active := by decide +kernel

theorem witness_ConfigurationRequestsBeginGroup :
    admin.admin = true ∧ admin.store.idle = true ∧ (some 65537 : Option Nat).isSome = true ∧ (List.replicate 32 (0 : Byte)).length = 32 ∧
      (List.replicate 33 (0 : Byte)).length ≠ 32 ∧
      (Trigger.idle = .idle → Action.wipe = .lockdown ∨ Action.wipe = .wipe ∨ false = true) ∧
      (Trigger.idle = .idle → (Action.relock = .note ∨ Action.relock = .relock) ∧ false = false) ∧
      (Trigger.bayOpen = .idle → (Action.wipe = .note ∨ Action.wipe = .relock) ∧ true = false) := by decide +kernel

theorem witness_ShadowWindowOpensAndCloses :
    (shadowed admin .off).shadowRecord.enabled = true ∧ (shadowed admin .off).shadowErasing = false ∧
      (shadowed admin .on).shadow = .on ∧ admin.shadowRecord.enabled = false ∧ (shadowed admin .off).admin = true ∧
      (shadowed admin .loading).authority.isSome = true ∧ (shadowed admin .loading).shadow ≠ .off ∧ admin.shadow = .off ∧
      (shadowed ready .on).authority = none := by decide +kernel

theorem test_shadow_done : (after (.shadowDone 1 (.fits ())) (shadowed admin .on)).shadow = .off ∧
    (after (.shadowDone 1 (.fits ())) (shadowed admin .on)).events.pending = [.mediaViewChanged] := by decide +kernel

/-- The device in LOCKDOWN for an open bay. -/
def lockedDown (bay : BayLevel) : State :=
  let s := withRange1 admin .lockdown true
  { s with trigger := { s.trigger with working := { device := .lockdown, causes := [.bayOpen] }, bayLevel := bay, bayLine := bay } }

theorem witness_LockdownClearLeaves :
    admin.trigger.working.device = .normal ∧ (lockedDown .open).trigger.working.device = .lockdown ∧
      (∃ c ∈ (lockedDown .open).trigger.working.causes, (lockedDown .open).causeActive c = true) ∧
      (∀ c ∈ (lockedDown .closed).trigger.working.causes, (lockedDown .closed).causeActive c = false) ∧
      (lockedDown .closed).store.idle = true ∧ (lockedDown .closed).table[1].service = .lockdown ∧ (lockedDown .closed).admin = true := by
  decide +kernel

/-- The bay closes on a device whose cause was the bay alone, with the auto-resume flag on or off. -/
def bayResumes (autoResume : Bool) : State :=
  let table : TriggerTable := { manufacturedTriggers with bayOpen := ⟨.lockdown, autoResume⟩ }
  let s := lockedDown .open
  { s with
    trigger := { s.trigger with bayLine := .closed, candidate := .closed, stability := some 0 }
    store := { s.store with triggers := manufacturedCell table } }

theorem witness_LockdownClearLeaves_autoResume :
    (∀ flag : Bool, (bayResumes flag).power.part = .ready ∧ (bayResumes flag).power.restarting = false ∧
      (bayResumes flag).trigger.stability = some 0 ∧ (bayResumes flag).trigger.candidate = .closed ∧
      (bayResumes flag).trigger.working = { device := .lockdown, causes := [.bayOpen] } ∧
      ((bayResumes flag).triggers.entry .bayOpen).autoResume = flag ∧ (bayResumes flag).table[1].service = .lockdown) := by
  decide +kernel

/-- R118: with the flag on the device leaves at the taken change to CLOSED, with it off it stays. -/
theorem test_auto_resume_leaves :
    (after .bayStabilityExpiry (bayResumes true)).table[1].service = .active ∧
      (after .bayStabilityExpiry (bayResumes true)).trigger.working = manufacturedLockdown ∧
      (after .bayStabilityExpiry (bayResumes false)).table[1].service = .lockdown := by decide +kernel

theorem test_lockdown_clear : (after (.lockdownClear 1 (.fits ())) (lockedDown .closed)).table[1].service = .active ∧
    (after (.lockdownClear 1 (.fits ())) (lockedDown .closed)).trigger.working = manufacturedLockdown := by decide +kernel

theorem witness_ResetPartBeginsRestart :
    let s := carrying admin .read .running (segment0 1 0 .waiting)
    s.admin = true ∧ s.inflight[(31 : Tag)].isSome = true ∧ s.laneOf 31 = none ∧ s.takesRequest :=
  ⟨rfl, rfl, by decide +kernel, rfl, rfl, rfl⟩

theorem test_reset_part_answers_first :
    (after (.resetPart 5 (.fits ())) (carrying admin .read .running (segment0 1 0 .waiting))).sent =
      [replyTo 24 5 .ok .none, .completion 31 .aborted (some .reset) none] := by decide +kernel

/-- The fields' hypotheses: fourteen codes of a byte, and a number below 256, which every width holds. -/
theorem witness_PortLayoutsAreExact_fields :
    ([1, 14] : List Nat).length ≤ 14 ∧ (∀ n ∈ ([1, 14] : List Nat), n < 256) ∧ (0x01 : Byte) ≠ 0 ∧ 65537 < 256 ^ fieldWidth 15 1 65537 ∧ 32 ≤ 32 ∧
      2 ^ 40 - 1 < 2 ^ 40 := ⟨by decide, by decide, by decide, lt_width 15 1 65537 65537 (by decide), by decide, by decide⟩

/-- The owner at the boundaries: the window ends at S − 1 = 16,383, range 1 is 10,000 to 19,999. -/
theorem witness_SplitCoversTransfer_owners :
    let s := withRange1 ready .active false
    (∀ x ∈ [10000, 19999], s.owns 1 x ∧ ∀ q, s.owns q x → q = 1) ∧ (∀ x ∈ [9999, 20000], ∀ q, ¬ s.owns q x) ∧
      [9999, 10000, 19999, 20000].map s.ownerOf = [.range 0, .range 1, .range 1, .range 0] ∧
      [16383, 16384].map (shadowed s .on).ownerOf = [.shadow, .range 1] ∧ (shadowed s .on).shadowRecord.size = 16384 := by
  simp only [State.owns]
  decide +kernel

theorem witness_LaneAnswerEndsTransfer_others_unanswered :
    (let s := inLane3 (carrying ready .read .running (segment0 3 1 .inLane)) [101, 102] [];
      s.power.powered = true ∧ s.lanes[(3 : LaneId)].issued = 101 :: [102] ∧
        (after (.mediaError 3 101) s).sent = [.completion 31 .mediaError none (some 101)]) ∧
    (let s := inLane3 (carrying ready .write .running (segment0 3 1 .inLane)) [101, 102] [];
      s.lanes[(3 : LaneId)].issued = 101 :: 102 :: [] ∧ s.lanes[(3 : LaneId)].failing = none ∧ (after (.mediaError 3 101) s).sent = [] ∧
        (afterAll [.mediaError 3 101, .mediaAcknowledge 3 (.answer [])] s).sent = [.completion 31 .mediaError none (some 101)]) ∧
    (let s := after (.mediaError 3 101) (inLane3 (carrying ready .write .running (segment0 3 1 .inLane)) [101, 102] []);
      s.lanes[(3 : LaneId)].issued = [102] ∧ s.lanes[(3 : LaneId)].failing = some 101 ∧
        s.inflight[(31 : Tag)].any (fun y => y.direction = .write ∧ y.state = .running ∧
          y.segments[0]?.any (fun g => g.first + g.progress = 101)) = true) := by decide +kernel

/-- The final group closes while an attempt derives. -/
def finalOverAttempt : State :=
  closing (busy ready (.attempt derivingAttempt) .working)
    { submitter := .wipeEngine, records := ready.finalRecords 1 2 3, effects := [.finalCommit 2], rewrites := true, final := true }

theorem witness_FullWipeEndsInFinalGroup_attempt :
    finalOverAttempt.power.part = .ready ∧ finalOverAttempt.executor.status = .executing ∧ finalOverAttempt.executor.stage ≠ .submitted ∧
      finalOverAttempt.executor.job = .attempt derivingAttempt ∧ finalOverAttempt.readyToClose
        { submitter := .wipeEngine, records := finalOverAttempt.finalRecords 1 2 3, effects := [.finalCommit 2], rewrites := true
          final := true } :=
  ⟨rfl, rfl, by decide, rfl, by
    rw [show finalOverAttempt.finalRecords 1 2 3 = ready.finalRecords 1 2 3 from closing_final ..]
    exact closing_ready _ _ rfl (by decide +kernel)⟩

/-- A CRED-SET derives while the key step of range 1 closes, with the key of range 1 in hand until then (R127). -/
def rekeyedBehindCredSet : State :=
  closing (planned (busy (withRange1 ready .erasing true) (.credSet { slot := 0, secret := [], policy := defaultPolicy, salt := 4
                                                                      keys := [(1, 7), (2, 8)], dropped := [] }) .working) range1Pending)
    (wipeGroup ([.range 1 ((withRange1 ready .erasing true).keyStepRecord 1 5)] ++
      [.plan { range1Pending with items := [{ target := .range 1, step := .keysDestroyed }] }]) [.keyStep (.range 1) 5] true)

theorem witness_WipeStepsClose_forgets :
    rekeyedBehindCredSet.readyToClose (wipeGroup ([.range 1 ((withRange1 ready .erasing true).keyStepRecord 1 5)] ++
        [.plan { range1Pending with items := [{ target := .range 1, step := .keysDestroyed }] }]) [.keyStep (.range 1) 5] true) ∧
      rekeyedBehindCredSet.plan.item (.range 1) = some { target := .range 1, step := .pending } :=
  ⟨closing_ready _ _ rfl (by decide +kernel), rfl⟩

theorem test_key_step_takes_key_from_request :
    ∃ j, (after (.groupClose quietScan) rekeyedBehindCredSet).executor.job = .credSet j ∧ j.keys = [(2, 8)] := ⟨_, rfl, rfl⟩

/-- SHADOW-CONFIG at the close of its group: the window ON, disabled or given another size. -/
def shadowClosing (enabled : Option Bool) (size : Option Nat) (r : ShadowRecord) : State :=
  closing (busy { shadowed admin .on with shadowEntry := { state := .live, material := some 9, generation := none, refs := 0 } }
    (.shadowConfig enabled size) .submitted) (requestGroup [.shadow r])

theorem witness_CloseMakesRecordsEffective_shadow (enabled : Option Bool) (size : Option Nat) (r : ShadowRecord) :
    (shadowClosing enabled size r).readyToClose (requestGroup [.shadow r]) ∧
      (shadowClosing enabled size r).executor.status = .executing ∧
      (shadowClosing enabled size r).executor.job = .shadowConfig enabled size ∧ (shadowClosing enabled size r).shadow ≠ .off ∧
      (shadowClosing enabled size r).shadowEntry.state = .live :=
  ⟨closing_ready _ _ rfl (by simp [requestGroup, Group.cells]), rfl, rfl, by simp [shadowClosing, closing, busy, shadowed], rfl⟩

theorem test_shadow_config_closes :
    (after (.groupClose quietScan) (shadowClosing (some false) none { enabled := false, size := 16384, rootWrap := 9 })).shadow = .off ∧
      (after (.groupClose quietScan) (shadowClosing none (some 1) { enabled := true, size := 1, rootWrap := 9 })).events.pending =
        [.mediaViewChanged] ∧
      (after (.groupClose quietScan) (shadowClosing none (some 1) { enabled := true, size := 1, rootWrap := 9 })).sent =
        [replyTo 4 9 .ok (.shadowConfig true 1)] := by decide +kernel

/-- Other requests at the close of their groups. -/
def clearClosing : State := closing (busy admin .lockdownClear .submitted) (requestGroup [.lockdown manufacturedLockdown])
def planClosing : State := closing (busy admin .wipe .submitted) (wipeGroup [.plan range1Pending] [.planAccepted] false)
def lockedCred : CredRecord := { ready.cred 0 with state := .lockedOut, failures := 3 }
def policyClosing (more : List Record) : State :=
  closing (busy admin (.credPolicy 0 defaultPolicy none) .submitted) (requestGroup (.cred 0 lockedCred :: more))
def stateClosing (action : CredAction) (c : CredRecord) : State :=
  closing (busy admin (.credState 0 action) .submitted) (requestGroup [.cred 0 c])
def triggersClosing (s : State) (auto : Bool) : State :=
  let t : TriggerTable := { manufacturedTriggers with bayOpen := ⟨.lockdown, auto⟩, idleLimit := 5 }
  closing (busy s (.triggerSet none none (some 5)) .submitted) (requestGroup [.triggers t])

theorem witness_CloseMakesRecordsEffective_requests :
    clearClosing.readyToClose (requestGroup [.lockdown manufacturedLockdown]) ∧ clearClosing.executor.job = .lockdownClear ∧
      planClosing.readyToClose (wipeGroup [.plan range1Pending] [.planAccepted] false) ∧ planClosing.executor.job = .wipe ∧
      (policyClosing []).readyToClose (requestGroup [.cred 0 lockedCred]) ∧
      (policyClosing [.counters manufacturedCounters]).readyToClose (requestGroup [.cred 0 lockedCred, .counters manufacturedCounters]) ∧
      ((policyClosing []).cred 0).state ≠ .lockedOut ∧
      (∀ action, (stateClosing action lockedCred).readyToClose (requestGroup [.cred 0 lockedCred]) ∧
        (stateClosing action lockedCred).executor.job = .credState 0 action) ∧
      (∀ auto, ∃ t, (triggersClosing (lockedDown .closed) auto).readyToClose (requestGroup [.triggers t]) ∧
        (t.entry .bayOpen).autoResume = auto) ∧
      (triggersClosing (lockedDown .closed) true).trigger.working = { device := .lockdown, causes := [.bayOpen] } ∧
      (triggersClosing (lockedDown .closed) true).trigger.bayLevel = .closed ∧
      (triggersClosing admin true).trigger.working.device = .normal :=
  ⟨closing_ready _ _ rfl (by decide), rfl, closing_ready _ _ rfl (by decide), rfl, closing_ready _ _ rfl (by decide +kernel),
    closing_ready _ _ rfl (by decide +kernel), by decide +kernel, fun _ => ⟨closing_ready _ _ rfl (by decide +kernel), rfl⟩,
    fun auto => ⟨_, closing_ready _ _ rfl (by simp [requestGroup, Group.cells]), rfl⟩, rfl, rfl, rfl⟩

theorem test_requests_are_answered_at_their_close :
    (after (.groupClose quietScan) clearClosing).sent = [replyTo 4 9 .ok .none] ∧
      (after (.groupClose quietScan) planClosing).sent = [replyTo 4 9 .ok (.items 1)] ∧
      (after (.groupClose quietScan) (policyClosing [])).events.pending = [.slotLockedOut] ∧
      (after (.groupClose quietScan) (stateClosing .reopen (ready.cred 0))).events.pending = [] ∧
      (after (.groupClose quietScan) (stateClosing .enable lockedCred)).events.pending = [.slotLockedOut] ∧
      (after (.groupClose quietScan) (triggersClosing (lockedDown .closed) true)).trigger.working = manufacturedLockdown ∧
      (after (.groupClose quietScan) (triggersClosing (lockedDown .closed) false)).trigger.working.device = .lockdown := by
  decide +kernel

/-! ### The checks of RANGE-COMMIT (R18) -/

/-- Range 1 and a second range staged; the first failing check refuses. -/
def staging (one : RangeFields) (two : RangeFields) (service : Service) (empty : Bool) : State :=
  let s := withRange1 admin service false
  { s with
    staging := (s.staging.set 1 { fields := one, newKey := false }).set 2 { fields := two, newKey := false }
    cache := if empty then s.cache.set 1 emptyKey else s.cache }
def bare1 : RangeFields := { record1.fields with readLock := false, writeLock := false }
def block1 : RangeFields := { defaultFields with length := 1 }
def two1 : RangeFields := { record1.fields with access := [0, 1, 2] }

/-- Check 7 and the checks before it as the model's validation finds them. -/
theorem witness_CommitStartsDrainWait_refusals :
    (lockedDown .open).trigger.working.device = .lockdown ∧ (lockedDown .open).admin = true ∧
      lowestRange (staging { record1.fields with start := 0 } block1 .active false).stagesOverlap 1 ∧
      (staging { record1.fields with start := 250000000 } defaultFields .active false).stagesBeyond 1 ∧
      lowestRange (staging { record1.fields with start := 1 } defaultFields .erasing false).stagesErasing 1 ∧
      lowestRange (staging two1 defaultFields .active false).stagesEmptySlot 1 ∧
      lowestRange (staging bare1 defaultFields .active true).stagesWithoutKey 1 := by
  refine ⟨rfl, rfl, ⟨⟨2, 0, by decide, ⟨by decide, by decide +kernel, by decide +kernel⟩, by decide, by decide +kernel, by decide +kernel⟩,
    fun q h => ?_⟩, ?_, ?_, ?_, ?_⟩
  · rw [Fin.lt_one_iff] at h
    subst h; rintro ⟨_, _, _, ⟨h, _⟩, _⟩; exact h rfl
  · unfold State.stagesBeyond; decide +kernel
  · unfold lowestRange State.stagesErasing; decide +kernel
  · unfold lowestRange State.stagesEmptySlot State.stagesSlot; decide +kernel
  · refine ⟨?_, fun q h => ?_⟩
    · unfold State.stagesWithoutKey State.stagesFreshKey State.stagesGrowth State.stagesUnlocked State.stagesSlot State.stagesRange
      decide +kernel
    · rw [Fin.lt_one_iff] at h
      subst h
      unfold State.stagesWithoutKey State.stagesFreshKey State.stagesGrowth State.stagesUnlocked State.stagesSlot State.stagesRange
      decide +kernel

theorem test_commit_refusals :
    (after (.rangeCommit 1 (.fits ())) (lockedDown .open)).sent = [replyTo 10 1 .lockdown .none] ∧
      (after (.rangeCommit 1 (.fits ())) (staging { record1.fields with start := 0 } block1 .active false)).sent =
        [replyTo 10 1 .overlap (.range (some 1))] ∧
      (after (.rangeCommit 1 (.fits ())) (staging { record1.fields with start := 250000000 } defaultFields .active false)).sent =
        [replyTo 10 1 .outOfRange .none] ∧
      (after (.rangeCommit 1 (.fits ())) (staging { record1.fields with start := 1 } defaultFields .erasing false)).sent =
        [replyTo 10 1 .slotState (.range (some 1))] ∧
      (after (.rangeCommit 1 (.fits ())) (staging two1 defaultFields .active false)).sent =
        [replyTo 10 1 .slotState (.range (some 1))] ∧
      (after (.rangeCommit 1 (.fits ())) (staging bare1 defaultFields .active true)).sent =
        [replyTo 10 1 .keyUnavailable (.range (some 1))] := by decide +kernel

/-- Nine records: eight ranges change with range 0's generation. -/
def nineChanged : State :=
  { admin with staging := tab16 fun r => { fields := { (admin.range r).fields with lockedRead := .zero }, newKey := false } }

theorem witness_CommitStartsDrainWait_size : 8 < nineChanged.commitSize ∧ nineChanged.trigger.working.device = .normal ∧
    (∀ r, ¬ nineChanged.stagesOverlap r) ∧ (∀ r, ¬ nineChanged.stagesBeyond r) ∧ (∀ r, ¬ nineChanged.stagesErasing r) ∧
    (∀ r, ¬ nineChanged.stagesEmptySlot r) ∧ (∀ r, ¬ nineChanged.stagesWithoutKey r) ∧ shrinking.commitSize ≤ 8 := by
  have empties : ∀ r : RangeId, nineChanged.staging[r].fields.start = 0 ∧ nineChanged.staging[r].fields.length = 0 := by decide +kernel
  refine ⟨by decide +kernel, rfl, fun r => ?_, ?_, ?_, ?_, ?_, by decide +kernel⟩
  · rintro ⟨_, x, _, ⟨_, low, high⟩, _⟩
    have := empties r
    omega
  · unfold State.stagesBeyond; decide +kernel
  · unfold State.stagesErasing; decide +kernel
  · unfold State.stagesEmptySlot State.stagesSlot; decide +kernel
  · unfold State.stagesWithoutKey State.stagesFreshKey State.stagesGrowth State.stagesUnlocked State.stagesSlot State.stagesRange
    decide +kernel

/-! ### The credentials of WIPE (R124, R136) -/

/-- The wipe token set, and a device in FAILSAFE. -/
def tokenSet (token : Option (List Byte)) : State :=
  let s := withRange1 ready .active false
  { s with store := { s.store with token := manufacturedCell token } }
def token1 : List Byte := List.replicate 32 1
def withToken : WipeArgs := { wipe2 with credential := .token token1 }
def failsafe (s : State) : State := { s with power := { s.power with part := .failsafe } }
def withSecret (scope : WipeScope) (f : List Byte) : WipeArgs := { scope := scope, overwrite := false, credential := .factorySecret f }

theorem witness_WipeMarksAtOnce_token :
    (tokenSet (some token1)).token = some token1 ∧ (tokenSet none).token ≠ some token1 ∧ token1.length = 32 ∧
      (tokenSet none).store.idle = true ∧ scopeOf withToken.scope = some [.range 1, .shadow] ∧
      (tokenSet (some token1)).power.restarting = false ∧
      ((tokenSet (some token1)).planToAccept false).accept [.range 1, .shadow] false false ≠ (tokenSet (some token1)).wipe.intended ∧
      (after (.wipe 1 (.fits withToken)) (tokenSet (some token1))).table[1].service = .erasing := by decide +kernel

theorem witness_WipeMarksAtOnce_failsafe :
    let s := failsafe (withRange1 ready .active false)
    s.power.part = .failsafe ∧ s.profileLost = false ∧ s.profile.factorySecret.length = 32 ∧ token1.length = 32 ∧
      token1 ≠ s.profile.factorySecret ∧ (s.planToAccept false).accept allTargets false true ≠ s.wipe.intended ∧
      { s with store := { s.store with failed := [.profile] } }.profileLost = true ∧
      (after (.wipe 1 (.fits (withSecret .all s.profile.factorySecret))) s).table[1].service = .erasing ∧
      (after (.wipe 1 (.fits (withSecret .all token1))) s).sent = [replyTo 23 1 .failed (.failed none none)] ∧
      (after (.wipe 1 (.fits wipe2)) s).sent = [replyTo 23 1 .storeFault .none] := by decide +kernel

/-- The counters group of a wrong token at its close, below Gmax and at it. -/
def wrongTokenClosing (g : Nat) : State :=
  closing (busy admin .wrongToken .submitted) (requestGroup [.counters { manufacturedCounters with g := g }])

theorem witness_WipeMarksAtOnce_wrongToken (g : Nat) :
    (wrongTokenClosing g).readyToClose (requestGroup [.counters { manufacturedCounters with g := g }]) ∧
      (wrongTokenClosing g).executor.job = .wrongToken ∧ (wrongTokenClosing g).power.part = .ready ∧
      (wrongTokenClosing g).triggers.gmax = manufacturedTriggers.gmax :=
  ⟨closing_ready _ _ rfl (by simp [requestGroup, Group.cells]), rfl, rfl, rfl⟩

theorem test_wrong_token_closes :
    (after (.groupClose quietScan) (wrongTokenClosing 1)).sent = [replyTo 4 9 .failed (.failed none none)] ∧
      (after (.groupClose quietScan) (wrongTokenClosing 255)).events.detail = [.guessLimit] := by decide +kernel

/-! ### The restart after a repair (R156) -/

/-- The final group closes in FAILSAFE with every failed cell rewritten, and with a second WIPE's plan group held behind it or not. -/
def repairing (held : List Group) : State :=
  let final : Group :=
    { submitter := .wipeEngine, records := ready.finalRecords 1 2 3, effects := [.finalCommit 2], rewrites := true, final := true }
  let s := closing (failsafe ready) final
  let waiting := { s with store := { s.store with held := held, wipeAccepted := true } }
  if held = [] then waiting else busy waiting .wipe .submitted

/-- R156, R162, R164: the second WIPE is answered at its close, before the restart; without one the restart is at once. -/
theorem test_repair_restarts :
    (after (.groupClose quietScan) (repairing [])).power.cause = .partReset ∧
      (after (.groupClose quietScan) (repairing [])).power.restarting = false ∧
      (let s := after (.groupClose quietScan) (repairing [wipeGroup [.plan range1Pending] [.planAccepted] false]);
        s.power.restarting = true ∧ s.power.part = .starting ∧ s.executor.status = .executing ∧
          (let t := afterAll [.copyWriteDone true, .groupClose quietScan] s;
            t.sent = [replyTo 4 9 .ok (.items 1)] ∧ t.executor = freeExecutor ∧ t.power.restarting = true ∧
              (after (.partRestart quietScan) t).power.restarting = false ∧ (after (.partRestart quietScan) t).plan = range1Pending)) := by
  decide +kernel

/-! ### Ill-formed starts, and the size of a reply (R15, R162) -/

theorem test_start_of_seven_bytes_is_ill_formed :
    wellFormed (.rangeStage 0 (.fits ⟨1, some (2 ^ 48), none, none, none, none, none, none, none, none, false⟩)) = false ∧
      wellFormed (.rangeStage 0 (.fits ⟨1, none, some (2 ^ 48), none, none, none, none, none, none, none, false⟩)) = false ∧
      wellFormed (.rangeStage 0 (.fits ⟨1, some (2 ^ 48 - 1), none, none, none, none, none, none, none, none, false⟩)) = true := by
  decide +kernel

/-- The STATUS of the part keeps within its lists, and so does a RANGE-READ of a start above the media. -/
def wideStart : State :=
  { admin with staging := admin.staging.set 1 { fields := { defaultFields with start := 2 ^ 48 - 1, length := 2 ^ 48 - 1 }, newKey := false } }
theorem witness_PortLayoutsAreExact_bounded :
    (Payload.status ready.statusReport).bounded ∧ (Payload.rangeRead (wideStart.readReport 1)).bounded ∧
      (wideStart.readReport 1).number ≠ 0 ∧ (wideStart.readReport 1).staged.fields.start < 2 ^ 48 ∧
      (wideStart.readReport 1).staged.fields.length < 2 ^ 48 := by
  unfold Payload.bounded
  decide +kernel

/-! ### FRONT_RESET and an overwrite (R131, R136, R137) -/

/-- An overwrite of the shadow in lane 3, unanswered or answered, at a persisted cursor of 4096. -/
def overwriteReset (issued : List Nat) (key : Option Key) (cursor : Nat) : State :=
  let s := planned overwriting { overwriting.plan with items := [{ target := .shadow, step := .overwriting }], cursor := some cursor };
  { s with
    lanes := s.lanes.set 3 { idleLane with task := some (.overwrite 8192 4096 1), issued := issued }
    wipe := { s.wipe with key := key, position := some 8192, count := 4000 } }

theorem witness_FrontResetClearsTransfers_overwrite :
    (∀ c ∈ [([8193], some 3, 4096), ([], some 3, 4096), ([8193], none, 65536)],
      let s := overwriteReset c.1 c.2.1 c.2.2;
      s.overwriteLane = some 3 ∧ s.overwriteTarget = some .shadow ∧ s.overwriteAllowed = true ∧ s.power.restarting = false ∧
        (∀ l : LaneId, s.overwriteLane ≠ some l → s.lanes[l].task = none)) ∧
      (overwriteReset [] none 4096).extentNext .shadow 4096 = some 4096 ∧ (overwriteReset [] none 65536).extentNext .shadow 65536 = none ∧
      ready.overwriteTarget = none ∧ ready.wipe.asked = false ∧ ready.overwriteLane = none ∧ ready.wipe.position = none ∧
      { overwriteReset [] none 0 with power := { ready.power with part := .asleep } }.overwriteAllowed = false := by decide +kernel

/-- R131, R136: also with the key gone with the entry into FAILSAFE and the old lane still stopping, the overwrite begins again from the
cursor, and its first segment writes. -/
theorem test_front_reset_restarts_overwrite :
    (let t := after .frontReset (overwriteReset [8193] (some 3) 4096);
      t.wipe.position = some 4096 ∧ t.wipe.count = 0 ∧ t.lanes[3].stopping = true ∧ t.lanes[0].task = none) ∧
    (let s := overwriteReset [8193] none 4096;
      let failed := { s with
        power := { s.power with part := .failsafe }, wipe := { s.wipe with position := none, count := 0 }
        store := { s.store with wipeAccepted := true }
        lanes := s.lanes.set 3 { s.lanes[3] with stopping := true } };
      let t := afterAll [.frontReset, .mediaAcknowledge 3 (.answer [])] failed;
      t.wipe.key.isSome = true ∧ t.lanes[0].issued = [4096]) := by decide +kernel

/-! ### Failed writes and the restore (R81, R85) -/

/-- A group of two records of the Trigger Unit's or the executor's cells at a stage, with a request in execution. -/
def pairWriting (submitter : Submitter) (stage : WriteStage) (job : Job) : State :=
  let s := withRange1 (busy ready job .working) .updating false;
  let group : Group :=
    { submitter := submitter, records := [.lockdown manufacturedLockdown, .token (some [1])], effects := [], rewrites := false, final := false }
  { s with store := { s.store with writing := some { group := group, number := 1, stage := stage } } }

theorem witness_ThirdFailedWriteEntersFailsafe_later :
    (∀ k ∈ [1, 2], (pairWriting .triggerUnit (.copies 1 k) .immediate).store.writing.any (fun w =>
        w.stage = .copies 1 k ∧ w.group.records[1]?.isSome) = true ∧
      (pairWriting .triggerUnit (.marker k) .immediate).store.writing.any (fun w => w.stage = .marker k ∧ w.group.records ≠ []) = true ∧
      (pairWriting .triggerUnit (.restoring [.lockdown, .token] k [.marker]) .immediate).store.writing.any (fun w =>
        w.stage = .restoring [.lockdown, .token] k [.marker]) = true) ∧
    (pairWriting .triggerUnit (.restoring [.lockdown, .token] 1 [.marker]) .immediate).store.effectiveSide .lockdown = some .a ∧
    (let s := pairWriting .triggerUnit (.restoring [.token] 2 [.marker]) .immediate;
      s.power.part = .ready ∧ s.power.restarting = false ∧ s.store.queue = [] ∧ s.store.held = []) := by decide +kernel

/-- R85: requests that wait meet the entry into FAILSAFE: a RANGE-COMMIT in its drain wait and a BIND-ENROLL in its exchange. -/
def waitingCommit : Commit := { affected := [(1, .active)], held := [], keys := [], newKeys := [], drainSince := 0 }
theorem witness_ThirdFailedWriteEntersFailsafe_waiting :
    (let s := pairWriting .triggerUnit (.copies 0 2) (.commit waitingCommit);
      s.executor.status = .executing ∧ s.executor.stage = .working ∧ s.executor.job = .commit waitingCommit ∧
        (waitingCommit.affected.map (·.1)).Nodup ∧ s.table[1].service = .updating) ∧
    (let s := pairWriting .triggerUnit (.copies 0 2) (.enrol none none);
      { s with binding := { s.binding with exchange := .enrol (.sending 0) } }.binding.exchange = .enrol (.sending 0)) := by
  decide +kernel

theorem test_failed_writes :
    (after (.copyWriteDone false) (pairWriting .triggerUnit (.copies 1 2) .immediate)).store.writing.any (fun w =>
        w.stage = .restoring [.lockdown] 0 [.token]) = true ∧
      (after (.copyWriteDone false) (pairWriting .triggerUnit (.marker 2) .immediate)).store.writing.any (fun w =>
        w.stage = .restoring [.lockdown, .token] 0 [.marker]) = true ∧
      (let t := after (.copyWriteDone false) (pairWriting .triggerUnit (.restoring [.token] 2 [.marker]) .immediate);
        t.power.part = .failsafe ∧ t.store.failed = [.marker, .token] ∧ t.table[1].readLocked = true ∧ t.key (.range 1) = emptyKey) ∧
      (let t := after (.copyWriteDone false) (pairWriting .triggerUnit (.copies 0 2) (.commit waitingCommit));
        t.table[1].service = .active ∧ t.sent = [replyTo 4 9 .storeFault .none] ∧ t.executor = freeExecutor) := by decide +kernel

/-! ### RESTORE with a binding, SLP, an open bay and held firings (R109, R113, R154, R155) -/

/-- The part at RESTORE with these additions: enrolled, SLP asserted, the bay open, firings held, and an action for BAY_OPEN. -/
def restoreWith (bound slp : Bool) (bay : BayLevel) (held : List Trigger) (action : Action) : State :=
  let s := withRange1 State.reset .active true;
  let e := if bound then enrolled s .checking else s
  { e with
    power := { e.power with slp := slp }
    trigger := { e.trigger with bayLevel := bay, bayLine := bay, held := held }
    store := { e.store with triggers := manufacturedCell { manufacturedTriggers with bayOpen := ⟨action, true⟩ } } }

theorem witness_RestoreMakesPartReady_stages :
    (let s := restoreWith true true .closed [] .note;
      s.power.powered = true ∧ s.restoreIsDue = true ∧ s.lockdownRecord = manufacturedLockdown ∧ s.trigger.working = manufacturedLockdown ∧
        s.plan = emptyPlan ∧ s.trigger.bayLevel = .closed ∧ s.trigger.held = [] ∧ s.enrolled = true ∧ s.binding.exchange = .none ∧
        s.power.slp = true ∧ s.executor.status = .free) ∧
    ∀ action ∈ [Action.note, .relock, .lockdown],
      let s := restoreWith false false .open [.idle] action;
      s.restoreIsDue = true ∧ s.lockdownRecord = manufacturedLockdown ∧ s.trigger.working = manufacturedLockdown ∧ s.plan = emptyPlan ∧
        s.executor = freeExecutor ∧ s.trigger.bayTaken = false ∧ (s.triggers.entry .idle).action = .note ∧
        (s.triggers.entry .bayOpen).action = action ∧ s.causeActive .bayOpen = true ∧ s.table[1].service = .active := by decide +kernel

theorem test_restore_takes_open_bay :
    (let t := after .restore (restoreWith false false .open [.idle] .lockdown);
      t.power.part = .ready ∧ t.trigger.working = { device := .lockdown, causes := [.bayOpen] } ∧ t.events.detail = [.bayOpen, .idle] ∧
        t.events.latchedOpen = true ∧ t.trigger.held = [] ∧ t.table[1].service = .lockdown) ∧
    (after .restore (restoreWith true true .closed [] .note)).power.part = .asleep ∧
    (after .restore (restoreWith true false .closed [] .note)).binding.exchange = .check (.sending 0) := by decide +kernel

/-! ### Firings by part state, and the aborts they call for (R37, R113, R114, R144) -/

/-- BAY_OPEN in a part state, with range 1 open and its entry LIVE. -/
def firingIn (part : PartState) (action : Action) : State :=
  let s := bayMoving (withRange1 ready .active false) .open action;
  { s with power := { s.power with part := part, stage := if part = .starting then .restoreDue else .ended } }

theorem witness_BayLineIsDebounced_parts :
    (∀ part ∈ [PartState.starting, .failsafe, .sleepEntering, .asleep, .ready],
      let s := firingIn part .relock;
      s.power.powered = true ∧ s.trigger.stability = some 0 ∧ s.trigger.candidate = .open ∧ s.power.part = part ∧
        (part = .starting → s.power.stage ≠ .ended) ∧ s.triggers.bayOpen.action = .relock ∧ s.openEnabled 1 = true ∧
        (s.key (.range 1)).state = .live ∧ (s.key (.range 1)).refs = 0) ∧
    ∀ part ∈ [PartState.sleepEntering, .asleep],
      let s := firingIn part .lockdown;
      s.power.restarting = false ∧ s.triggers.bayOpen.action = .lockdown ∧ s.trigger.working = manufacturedLockdown ∧
        s.commitDraining = false := by decide +kernel

theorem test_firings_by_part_state :
    (after .bayStabilityExpiry (firingIn .starting .relock)).trigger.held = [.bayOpen] ∧
      (let t := after .bayStabilityExpiry (firingIn .failsafe .relock); t.events.detail = [.bayOpen] ∧ t.table[1].readLocked = false) ∧
      (let t := after .bayStabilityExpiry (firingIn .asleep .relock); t.power.relocked = true ∧ t.key (.range 1) = emptyKey) ∧
      (let t := after .bayStabilityExpiry (firingIn .asleep .lockdown); t.power.relocked = true ∧ t.table[1].service = .lockdown) := by
  decide +kernel

/-- A transfer of range 1, waiting, or in lane 3 with or without a write unanswered. -/
def carrying1 (s : State) (step : SegStep) (issued : List Nat) : State :=
  let g := { segment0 2 0 step with owner := .range 1, first := 10000, keyRef := some (.range 1) }
  let carried := carrying s .write .running g
  let held := { carried with cache := carried.cache.set 1 { carried.cache[1] with refs := 1 } }
  if step = .inLane then inLane3 held issued [] else held

/-- The three ways an abort finds a transfer, and a transfer of range 0 that it does not reach. -/
theorem witness_BayOpenEntersLockdown_aborts :
    (∀ c ∈ [(SegStep.waiting, []), (.inLane, []), (.inLane, [10000])],
      let s := carrying1 (firingIn .ready .lockdown) c.1 c.2;
      s.inflight[(31 : Tag)].any (fun y => y.hitBy (fun o => o = .range 1) ∧ y.holds (.range 1) (fun _ => true) = 1) = true ∧
        s.laneOf 31 = (if c.1 = .inLane then some 3 else none) ∧ (s.range 1).fields.response = .close ∧ s.commitDraining = false) ∧
    (carrying (firingIn .ready .lockdown) .read .running (segment0 1 0 .waiting)).inflight[(31 : Tag)].any (fun y =>
      y.hitBy (fun o => o = .range 1) = false) = true := by decide +kernel

theorem test_aborts_end_or_stop :
    (after .bayStabilityExpiry (carrying1 (firingIn .ready .lockdown) .waiting [])).sent =
        [.completion 31 .aborted (some .lockdown) none] ∧
      (let t := after .bayStabilityExpiry (carrying1 (firingIn .ready .lockdown) .inLane [10000]);
        t.lanes[3].stopping = true ∧ t.key (.range 1) = emptyKey ∧ t.inflight[(31 : Tag)].any (fun y => y.state = .aborting) = true) ∧
      (let t := after .bayStabilityExpiry (carrying1 (firingIn .ready .wipe) .inLane [10000]);
        t.inflight[(31 : Tag)].any (fun y => y.abortReason = some .erase) = true) ∧
      (after (.wipe 1 (.fits wipe2)) (carrying1 (withRange1 admin .active false) .waiting [])).sent =
        [.completion 31 .aborted (some .erase) none] := by decide +kernel

/-- The bay opens on a RANGE-COMMIT of range 1 and of range 2, which it creates: in its drain wait, with a transfer of range 1, or with its
group submitted. -/
def drainCommit : Commit := { commit1 with affected := [(1, .active), (2, .undefined)] }
def stateOf (first : Service) : RangeId → Service := fun r => if r = 0 then .active else if r = 1 then first else .undefined
def drainingCommit (action : Action) (stage : JobStage) (issued : List Nat) : State :=
  let s := busy (carrying1 (firingIn .ready action) .inLane issued) (.commit drainCommit) stage
  { s with table := (s.table.set 1 { s.table[1] with service := .updating }).set 2 { s.table[2] with service := .updating } }

theorem witness_BayOpenEntersLockdown_draining :
    ∀ action ∈ [Action.lockdown, .wipe], let s := drainingCommit action .working [10000];
      (s.power.part = .ready ∧ s.power.restarting = false ∧ s.trigger.stability = some 0 ∧ s.trigger.candidate = .open ∧
        s.trigger.working = manufacturedLockdown ∧ s.triggers.bayOpen.action = action ∧ s.wipe.intended = emptyPlan) ∧
      (s.executor.status = .executing ∧ s.executor.job = .commit drainCommit ∧ s.executor.stage = .working ∧
        (drainCommit.affected.map (·.1)).Nodup ∧ (∀ p ∈ drainCommit.affected, p.2 = .active ∨ p.2 = .undefined)) ∧
      ((∀ p ∈ drainCommit.affected, s.table[p.1].service = .updating → stateOf .active p.1 = p.2) ∧
        ∀ r : RangeId, r ∉ drainCommit.affected.map (·.1) ∨ s.table[r].service ≠ .updating → stateOf .active r = s.table[r].service) ∧
      s.table[(0 : RangeId)].service ≠ .updating ∧ s.table[1].service = .updating ∧
      (drainingCommit action .submitted []).executor.stage ≠ .working := by decide +kernel

/-- R20: the reply, the states the ranges take, and what a submitted commit holds instead. -/
theorem test_action_ends_drain_wait :
    (let t := after .bayStabilityExpiry (drainingCommit .lockdown .working []);
      t.sent.head? = some (replyTo 4 9 .lockdown .none) ∧ t.table[1].service = .lockdown ∧ t.table[2].service = .undefined ∧
        t.executor = freeExecutor ∧ t.key (.range 1) = emptyKey ∧ t.inflight[(31 : Tag)] = none) ∧
    (let t := after .bayStabilityExpiry (drainingCommit .wipe .working []);
      t.sent = [replyTo 4 9 .slotState (.range (some 1)), .completion 31 .aborted (some .erase) none] ∧ t.table[1].service = .erasing ∧
        t.table[2].service = .undefined ∧ t.table[0].service = .erasing) ∧
    [Action.lockdown, .wipe].map (fun action => (after .bayStabilityExpiry (drainingCommit action .submitted [])).executor.job) =
      [.commit { drainCommit with held := [(1, .lockdown), (2, .lockdown)] }, .commit { drainCommit with held := [(1, .erasing), (2, .erasing)] }] := by
  decide +kernel

/-! ### Failed enrolment exchanges (R101) -/

/-- An enrolment exchange in its first phase after a number of failed ones. -/
def enrolTrying (failures : Nat) : State :=
  let s := busy admin (.enrol none none) .working;
  { s with binding := { s.binding with exchange := .enrol (.sending 0), freshSecret := some 1, failures := failures } }

theorem witness_FailedRoundsAreRetried_enrolment :
    (∀ failures ∈ [5, 6], (enrolTrying failures).power.powered = true ∧ (enrolTrying failures).binding.exchange = .enrol (.sending 0) ∧
      (enrolTrying failures).binding.failures = failures ∧ (enrolTrying failures).executor.status = .executing) ∧
    ExchangePhase.sending 0 ≠ .pausing ∧ readPage (List.replicate 20 0) = .unlisted := by decide +kernel

theorem test_seventh_enrolment_fails :
    (after .tetherFault (enrolTrying 5)).binding.exchange = .enrol .pausing ∧
      (let t := after .pageTimeout (enrolTrying 6);
        t.sent = [replyTo 4 9 .failed (.failed none none)] ∧ t.binding.freshSecret = none ∧ t.executor = freeExecutor ∧
          t.binding.failures = 7) := by decide +kernel

/-! ### Wraps and held requests at the switch (R20 to R22) -/

/-- Range 1 staged with slot 2 taken from its list and slot 1 added, without a lock, or with a new key; at the close of its commit. -/
def wrapCommit (held : List (RangeId × Held)) : Commit := { commit1 with held := held, newKeys := [(1, 9)] }
def wrapStaged (newKey : Bool) (f : RangeFields) (held : List (RangeId × Held)) : State :=
  let c := fun (i : SlotId) => { committing.cred i with
    state := .active, verifier := some { madeFrom := { secret := [i.val], salt := 0, e := 16 } }
    wraps := if i = 1 then [] else [{ range := 1, generation := 1, key := 7, verifier := { madeFrom := { secret := [], salt := 0, e := 16 } } }] }
  let s := busy { committing with staging := committing.staging.set 1 { fields := f, newKey := newKey } } (.commit (wrapCommit held)) .submitted;
  { s with store := { s.store with creds := tab8 fun i => manufacturedCell (c i) } }
def wrapSwitching (newKey : Bool) (f : RangeFields) (held : List (RangeId × Held)) : State :=
  closing (wrapStaged newKey f held) (requestGroup ((wrapStaged newKey f held).commitRecords (wrapCommit held)))
def relisted : RangeFields := { record1.fields with access := [0, 1] }

/-- A slot stays, one leaves and one joins; the same with a new key; the range is removed; with nothing, LOCKDOWN or ERASING held. -/
theorem witness_CommitSwitchesAtClose_wraps :
    ∀ held ∈ [[], [((1 : RangeId), Held.lockdown)], [(1, .erasing)]], ∀ f, f = relisted ∨ f = defaultFields → ∀ newKey : Bool,
      let s := wrapSwitching newKey f held;
      s.executor.status = .executing ∧ s.executor.job = .commit (wrapCommit held) ∧ ((wrapCommit held).held.map (·.1)).Nodup ∧
        s.readyToClose (requestGroup (s.commitRecords (wrapCommit held))) ∧ s.table[1].service = .updating ∧
        (1 : RangeId) ∈ (wrapCommit held).affected.map (·.1) ∧ s.rangeChanges 1 = true ∧ (s.range 1).fields.access = [0, 2] ∧
        (s.cred 1).verifier.isSome = true := by
  intro held m f h newKey
  dsimp only
  rw [show (wrapSwitching newKey f held).commitRecords _ = _ from closing_commit ..]
  simp only [List.mem_cons, List.not_mem_nil, or_false] at m
  refine ⟨rfl, rfl, ?_, closing_ready _ _ rfl ?_, ?_, ?_, ?_, ?_, ?_⟩ <;> rcases m with rfl | rfl | rfl <;> rcases h with rfl | rfl <;>
    cases newKey <;> decide +kernel

theorem test_switch_makes_wraps_and_takes_held :
    (let t := after (.groupClose quietScan) (wrapSwitching false relisted []);
      (t.cred 0).wraps.map (fun w => (w.generation, w.key)) = [(1, 7)] ∧ (t.cred 1).wraps.map (fun w => (w.generation, w.key)) = [(1, 7)] ∧
        (t.cred 2).wraps = [] ∧ (t.range 1).rootWrap = none) ∧
    (let t := after (.groupClose quietScan) (wrapSwitching true relisted [(1, .lockdown)]);
      (t.cred 0).wraps.map (fun w => (w.generation, w.key)) = [(2, 9)] ∧ t.table[1].service = .lockdown ∧ t.key (.range 1) = emptyKey ∧
        t.sent = [replyTo 4 9 .ok (.generation 1)]) ∧
    (after (.groupClose quietScan) (wrapSwitching false relisted [(1, .erasing)])).table[1].service = .erasing ∧
    (after (.groupClose quietScan) (wrapSwitching false defaultFields [(1, .erasing)])).table[1].service = .undefined := by decide +kernel

/-! ### What a lane issues (R38, R31) -/

/-- A lane whose window takes two operations, with one unanswered, of a segment of three blocks of range 0 or of the shadow. -/
def lane3 (d : Direction) (o : Owner) (issued : List Nat) (fetched : List (Nat × List Byte)) : State :=
  let g := match o with
    | .range _ => segment0 3 0 .inLane
    | .shadow => { segment0 3 0 .inLane with owner := .shadow, disposition := .shadow, tweak := none, keyRef := some .shadow }
  { inLane3 (carrying ready d .running g) issued fetched with laneWindow := 2 }
/-- The lane and media LBA of each media operation sent, reads as 0 and writes as 1. -/
def mediaSent (s : State) : List (Nat × Nat × Nat) :=
  s.sent.filterMap fun m => match m with
    | .mediaRead l x => some (0, l.val, x)
    | .mediaWrite l x _ => some (1, l.val, x)
    | _ => none

theorem witness_DeliveredBlockIsDeciphered_answer :
    ∀ d ∈ [Direction.read, .write], let s := lane3 d (.range 0) [100] []
      s.power.powered = true ∧ s.lanes[(3 : LaneId)].task = some (.transfer 31 0) ∧ s.lanes[(3 : LaneId)].issued = 100 :: [] ∧
        s.lanes[(3 : LaneId)].stopping = false ∧ s.lanes[(3 : LaneId)].failing = none ∧
        s.inflight[(31 : Tag)].any (fun y => y.direction = d ∧ y.segments[0]?.any (fun g => g.progress + 1 < g.count)) = true ∧
        (ready.key (.range 0)).material.isSome = false ∧ (s.key (.range 0)).material.isSome = false := by decide +kernel

/-- R31: with C = 250,000,000, shadow block 101 lies at media LBA 250,000,101, and block 101 of range 0 at 101. -/
theorem test_lane_issues_next_blocks :
    mediaSent (after (.mediaAcknowledge 3 (.answer [])) (lane3 .write (.range 0) [100] [])) = [(1, 3, 101), (1, 3, 102)] ∧
      mediaSent (after (.mediaAcknowledge 3 (.answer [])) (lane3 .write .shadow [100] [])) = [(1, 3, 250000101), (1, 3, 250000102)] ∧
      mediaSent (after (.mediaAcknowledge 3 (.answer [])) (lane3 .read .shadow [100] [])) = [] ∧
      mediaSent (after (.mediaAcknowledge 3 .delivered) (lane3 .read .shadow [101] [(100, [])])) = [(0, 3, 250000102)] ∧
      mediaSent (after .restore { lane3 .read .shadow [] [] with lanes := ready.lanes }) = [] := by decide +kernel

/-! ### A request that FRONT_RESET abandons (R62, R167) -/

/-- An AUTHENTICATE in a phase, with its group submitted or not. -/
def attempting (phase : AttemptPhase) (stage : JobStage) : State := busy ready (.attempt { derivingAttempt with phase := phase }) stage

theorem witness_FrontResetClearsTransfers_requests :
    (∀ stage ∈ [JobStage.wanted, .submitted], (attempting .charging stage).executor.status = .executing ∧
      (attempting .charging stage).executor.stage = stage) ∧
    (attempting (.verdict true) .submitted).executor.job = .attempt { derivingAttempt with phase := .verdict true } ∧
    deriving0.executor.job = .attempt derivingAttempt ∧ derivingAttempt.phase = .deriving ∧ deriving0.power.part = .ready ∧
    deriving0.store.waitingGroups = [] ∧ (∃ c, draining.executor.job = .commit c) ∧ draining.executor.stage = .working ∧
    draining.executor.status = .executing ∧ draining.store.waitingGroups = [] ∧
    (∃ j, credDeriving.executor.job = .credSet j) ∧ credDeriving.executor.stage ≠ .submitted ∧
    (busy ready .wrongToken .wanted).executor.stage ≠ .submitted ∧ ready.executor.status ≠ .executing ∧
    (∀ s ∈ [deriving0, draining], s.submitsAtOnce) := by
  refine ⟨by decide +kernel, rfl, rfl, rfl, rfl, rfl, ⟨_, rfl⟩, rfl, rfl, rfl, ⟨_, rfl⟩, by decide +kernel, by decide +kernel, by decide +kernel,
    fun s m => ?_⟩
  simp only [List.mem_cons, List.not_mem_nil, or_false] at m
  rcases m with rfl | rfl <;> exact fun _ m => nomatch m

/-- The executor's status and stage, whether the settlement is to follow, and the groups in the store. -/
def leftBy (s : State) : ExecStatus × JobStage × Bool × Nat :=
  (s.executor.status, s.executor.stage, (match s.executor.job with
    | .attempt a => a.phase = .settling
    | _ => false), s.store.waitingGroups.length)

/-- A wrong token's counters group that waits behind a final group is carried on, and is submitted once that has closed (log 81). -/
theorem test_front_reset_abandons :
    leftBy (after .frontReset deriving0) = (.abandoned, .submitted, true, 1) ∧ (after .frontReset deriving0).derivations = [] ∧
      leftBy (after .frontReset (attempting .charging .submitted)) = (.abandoned, .submitted, false, 0) ∧
      leftBy (after .frontReset draining) = (.abandoned, .submitted, false, 1) ∧ (after .frontReset draining).sent = [] ∧
      (let s := busy finalClosing .wrongToken .wanted
       leftBy (after .frontReset s) = (.abandoned, .wanted, false, 1) ∧
        (let t := after (.groupClose quietScan) (after .frontReset s);
          leftBy t = (.abandoned, .submitted, false, 1) ∧ t.counters.g = 0 ∧
            (afterAll [.copyWriteDone true, .groupClose quietScan] t).counters.g = 1 ∧
            (afterAll [.copyWriteDone true, .groupClose quietScan] t).executor = freeExecutor)) := by decide +kernel

/-- The charge of an attempt closes, of a request that executes or is abandoned. -/
def chargeOf (status : ExecStatus) : State :=
  let s := attempting .charging .submitted
  closing { s with executor := { s.executor with status := status } }
    (requestGroup [.cred 0 { ready.cred 0 with failures := 1 }, .counters { counters1 with marker := some { slot := 0, before := 0 } }])

theorem witness_DerivationReachesVerdict_charge (status : ExecStatus) :
    (chargeOf status).executor.status = status ∧ (chargeOf status).power.part = .ready ∧
      (chargeOf status).executor.job = .attempt { derivingAttempt with phase := .charging } ∧
      (chargeOf status).store.queue ++ (chargeOf status).store.held = [] ∧
      (chargeOf status).readyToClose
        (requestGroup [.cred 0 { ready.cred 0 with failures := 1 }, .counters { counters1 with marker := some { slot := 0, before := 0 } }]) :=
  ⟨rfl, rfl, rfl, rfl, closing_ready _ _ rfl (by decide)⟩

theorem test_charge_closes :
    leftBy (after (.groupClose quietScan) (chargeOf .executing)) = (.executing, .working, false, 0) ∧
      (after (.groupClose quietScan) (chargeOf .executing)).derivations = [.executor] ∧
      leftBy (after (.groupClose quietScan) (chargeOf .abandoned)) = (.abandoned, .submitted, true, 1) := by decide +kernel

/-- The same close, of a request that FRONT_RESET has abandoned. -/
def abandoned (s : State) : State := { s with executor := { s.executor with status := .abandoned } }

theorem witness_closes_of_abandoned :
    (abandoned succeeding).executor.status = .abandoned ∧ (abandoned succeeding).executor.job = .attempt (verdict (.verdict true)) ∧
      (abandoned succeeding).readyToClose (requestGroup [.cred 0 { succeeding.cred 0 with failures := 0 }, .counters counters1]) ∧
      (failing (.verdict false) .abandoned []).readyToClose (requestGroup [.counters counters1]) ∧
      (failing (.verdict false) .abandoned []).executor.status ≠ .free ∧ (abandoned switching).executor.job = .commit commit1 ∧
      (abandoned switching).readyToClose (requestGroup ((abandoned switching).commitRecords commit1)) :=
  ⟨rfl, rfl, closing_ready (abandoned (busy (withRange1 ready .active true) (.attempt (verdict (.verdict true))) .submitted)) _ rfl (by decide),
    closing_ready _ _ rfl (by decide), by decide, rfl, by
      rw [show (abandoned switching).commitRecords commit1 = switching.commitRecords commit1 from rfl, switching, closing_commit]
      exact closing_ready (abandoned committing) _ rfl (by decide +kernel)⟩

theorem test_abandoned_closes_open_nothing :
    (let t := after (.groupClose quietScan) (abandoned succeeding);
      t.table[1].readLocked = true ∧ t.authority = none ∧ t.executor = freeExecutor ∧ t.sent = []) ∧
    (let t := after (.groupClose quietScan) (failing (.verdict false) .abandoned []);
      t.executor = freeExecutor ∧ t.sent = [] ∧ EventKind.attemptCharged ∉ t.events.pending) ∧
    (let t := after (.groupClose quietScan) (abandoned switching);
      (t.range 1).fields.length = 1 ∧ t.executor = freeExecutor ∧ t.sent = []) := by decide +kernel

/-! ### Permissions and forms (R66, R70, R124, R166) -/

def credArgs (slot n : Nat) (drop : Bool) : CredSetArgs := { slot := slot, secret := List.replicate n 0, policy := none, dropUnavailable := drop }
/-- Slot 2, a USER slot, holds authority. -/
def user : State := { ready with authority := some { slot := 2, unwrap := { secret := [], salt := 0, e := 16 } } }
/-- The ranges below `n` list slot 2, with their entries EMPTY. -/
def listing (n : Nat) : State :=
  let cell := fun r : RangeId => if r.val < n then manufacturedCell record1 else ready.store.ranges[r]
  { admin with store := { admin.store with ranges := tab16 cell }, cache := tab16 fun _ => emptyKey }

theorem witness_RequestsAreGated_permissions :
    (scopeOf wipe2.scope).isSome = true ∧ wipe2.credential = .absent ∧ ready.authority = none ∧ ready.admin = false ∧ user.admin = false ∧
      recovery.admin = false ∧ roleOf 2 = .user ∧ (2 : SlotId).val ≠ (credArgs 3 8 false).slot ∧ roleOf 7 = .recovery ∧
      (credArgs 1 8 false).slot < 2 ∧ (credArgs 7 64 false).slot ≤ 7 ∧ token1.length = 32 := by decide +kernel

theorem witness_CredSetStartsDerivation_checks :
    (∀ n ∈ [1, 7, 8, 16], (listing n).maySetCred 2 = true ∧ lowestRange ((listing n).keyMissing 2) 0) ∧ user.maySetCred 3 = false ∧
      7 < (credArgs 8 8 false).slot ∧ (credArgs 0 7 false).secret.length < 8 ∧ 64 < (credArgs 0 65 false).secret.length ∧
      ((∀ r ∈ List.finRange 8, (listing 8).keyMissing 2 (r.castLE (by decide))) ∧
        ∀ r : RangeId, (listing 7).keyMissing 2 r → r ∈ (List.finRange 7).map (fun r => r.castLE (by decide))) ∧
      (withRange1 admin .active false).credSetKey 2 1 = some 7 := by
  refine ⟨fun n m => ?_, by decide +kernel, by decide, by decide, by decide, ⟨by decide +kernel, by decide +kernel⟩, by decide +kernel⟩
  simp only [List.mem_cons, List.not_mem_nil, or_false] at m
  rcases m with rfl | rfl | rfl | rfl <;> exact ⟨by decide +kernel, by decide +kernel, fun q h => absurd h (Fin.not_lt_zero q)⟩

theorem test_cred_set_checks :
    (after (.credSet 1 (.fits (credArgs 2 8 false))) (listing 8)).sent = [replyTo 12 1 .keyUnavailable (.range (some 0))] ∧
      (after (.credSet 1 (.fits (credArgs 2 8 true))) (listing 8)).sent = [replyTo 12 1 .outOfRange .none] ∧
      (after (.credSet 1 (.fits (credArgs 2 8 true))) (listing 7)).derivations = [.executor] ∧
      (after (.credSet 1 (.fits (credArgs 3 8 false))) user).sent = [replyTo 12 1 .noAuthority .none] ∧
      (after (.credSet 1 (.fits (credArgs 1 8 false))) recovery).sent = [replyTo 12 1 .noAuthority .none] := by decide +kernel

theorem witness_WipeMarksAtOnce_refusals :
    scopeOf (.targets [.range 16]) = none ∧ scopeOf (.targets [.shadow, .shadow]) = none ∧ (List.replicate 31 (0 : Byte)).length ≠ 32 ∧
      (withSecret .all token1).credential = .factorySecret token1 ∧ (scopeOf wipe2.scope).isSome = true ∧ ready.admin = false := by
  decide +kernel

/-- R166: a token of 31 bytes is no form of the body, whatever authority is held; one of 32 bytes meets the authority. -/
theorem test_token_form_before_authority :
    (after (.wipeTokenSet 1 (.fits (List.replicate 31 0))) ready).sent = [replyTo 22 1 .badBody .none] ∧
      (after (.wipeTokenSet 1 (.fits token1)) ready).sent = [replyTo 22 1 .noAuthority .none] ∧
      (after (.wipe 1 (.fits (withSecret .all token1))) ready).sent = [replyTo 23 1 .badBody .none] ∧
      (after (.wipe 1 (.fits wipe2)) ready).sent = [replyTo 23 1 .noAuthority .none] := by decide +kernel

end Sys2Proof.Tests
end

namespace Sys2Proof.Machine

/-! ### RANGE-STAGE, RANGE-DISCARD, RANGE-READ (R15 to R17) -/

theorem rangeIdOf_eq_some_iff (n : Nat) (r : RangeId) : rangeIdOf n = some r ↔ n = r.val := by
  unfold rangeIdOf
  split
  · simp [Fin.ext_iff]
  · have := r.isLt
    simp; omega

theorem rangeIdOf_val (r : RangeId) : rangeIdOf r.val = some r := (rangeIdOf_eq_some_iff _ _).2 rfl

theorem rangeIdOf_above (n : Nat) (h : 15 < n) : rangeIdOf n = none := dif_neg (by omega)

/-- An access list is named exactly by slots 0 to 7, none twice (R15). -/
theorem accessOf_isSome_iff (l : List Nat) : (accessOf l).isSome = true ↔ l.Nodup ∧ ∀ n ∈ l, n < 8 := by
  simp [accessOf, apply_ite Option.isSome]

/-- An access list is kept ascending, and holds the slots named (R15). -/
theorem accessOf_eq_some {l : List Nat} {a : List SlotId} (h : accessOf l = some a) :
    a.Pairwise (· < ·) ∧ ∀ i : SlotId, i ∈ a ↔ i.val ∈ l := by
  have ascending : allSlots.Pairwise (· < ·) := by decide
  unfold accessOf at h
  split at h
  · cases h
    exact ⟨ascending.filter _, fun i => by simp [allSlots_mem]⟩
  · cases h

theorem accessOf_length {l : List Nat} (h : (accessOf l).isSome = true) : l.length ≤ 8 := by
  obtain ⟨nodup, small⟩ := (accessOf_isSome_iff l).1 h
  have := (nodup.subperm (fun n m => List.mem_range.2 (small n m))).length_le
  simpa using this

/-- An optional named field is read where it is absent or names a member of its set (R169). -/
theorem optionalField_fieldValue_iff {α : Type} (o : Option (Field α)) (v : Option α) :
    optionalField fieldValue o = some v ↔ o = v.map .value := by
  rcases o with - | (a | -) <;> cases v <;> simp [optionalField, fieldValue]

theorem optionalField_fieldValue_isSome {α : Type} (o : Option (Field α)) (h : o ≠ some .unknown) :
    ∃ v, optionalField fieldValue o = some v := by
  rcases o with - | (a | -)
  · exact ⟨_, rfl⟩
  · exact ⟨_, rfl⟩
  · exact absurd rfl h

theorem stageFieldsOf_eq_some_iff (x : StageArgs) (f : StageFields) :
    stageFieldsOf x = some f ↔ x.lockedRead = f.lockedRead.map .value ∧ x.sleep = f.sleep.map .value ∧
      x.response = f.response.map .value ∧ optionalField accessOf x.access = some f.access := by
  cases f
  simp only [stageFieldsOf, Option.bind_eq_bind, Option.bind_eq_some_iff, optionalField_fieldValue_iff, Option.pure_def, Option.some.injEq,
    StageFields.mk.injEq]
  grind


/-- The BAD_BODY cases of R15 are those the statement calls misnamed. -/
theorem stageMisnamed_iff (x : StageArgs) : stageMisnamed x ↔
    ¬ ∃ r f, rangeIdOf x.range = some r ∧ stageFieldsOf x = some f ∧ placesRange0 x r = false ∧ unitNamed x.unitSize = true := by
  constructor
  · rintro h ⟨r, f, hr, hf, place, unit⟩
    rw [rangeIdOf_eq_some_iff] at hr
    obtain ⟨read, sleep, response, access⟩ := (stageFieldsOf_eq_some_iff x f).1 hf
    have below := r.isLt
    rcases h with h | ⟨zero, given⟩ | h | h | h | ⟨u, h, no512, no4096⟩ | ⟨l, h, bad⟩
    · omega
    · have : r = 0 := Fin.ext (by omega)
      simp [placesRange0, this] at place
      simp [place] at given
    · cases e : f.lockedRead <;> simp [h, e] at read
    · cases e : f.sleep <;> simp [h, e] at sleep
    · cases e : f.response <;> simp [h, e] at response
    · simp [unitNamed, h, no512, no4096] at unit
    · have named : (accessOf l).isSome = true := by
        rw [h] at access
        cases e : accessOf l with
        | none => simp [optionalField, e] at access
        | some a => rfl
      obtain ⟨nodup, small⟩ := (accessOf_isSome_iff l).1 named
      rcases bad with dup | ⟨n, m, large⟩
      · exact dup nodup
      · exact absurd (small n m) (by omega)
  · intro h
    by_contra named
    simp only [stageMisnamed, not_or, not_exists, not_and] at named
    obtain ⟨range, place, read, sleep, response, unit, access⟩ := named
    obtain ⟨v1, e1⟩ := optionalField_fieldValue_isSome _ read
    obtain ⟨v2, e2⟩ := optionalField_fieldValue_isSome _ sleep
    obtain ⟨v3, e3⟩ := optionalField_fieldValue_isSome _ response
    obtain ⟨v4, e4⟩ : ∃ v, optionalField accessOf x.access = some v := by
      cases e : x.access with
      | none => exact ⟨_, rfl⟩
      | some l =>
        obtain ⟨dup, large⟩ := access l e
        obtain ⟨a, ha⟩ := Option.isSome_iff_exists.1
          ((accessOf_isSome_iff l).2 ⟨not_not.1 dup, fun n m => by have := large n m; omega⟩)
        exact ⟨some a, by simp [optionalField, ha]⟩
    refine h ⟨⟨x.range, by omega⟩, ⟨v1, v2, v3, v4⟩, (rangeIdOf_eq_some_iff _ _).2 rfl, ?_, ?_, ?_⟩
    · rw [optionalField_fieldValue_iff] at e1 e2 e3
      exact (stageFieldsOf_eq_some_iff _ _).2 ⟨e1, e2, e3, e4⟩
    · have none : x.range = 0 → x.start = none ∧ x.length = none := fun zero => by simpa using place zero
      simp only [placesRange0, Fin.ext_iff, decide_eq_false_iff_not]
      rintro ⟨zero, given⟩
      obtain ⟨a, b⟩ := none zero
      simp [a, b] at given
    · cases e : x.unitSize with
      | none => rfl
      | some u =>
        by_cases small : u = 512
        · simp [unitNamed, small]
        · simp [unitNamed, not_not.1 (unit u e small)]

/-- A named RANGE-STAGE carries an access list of at most 8 slots. -/
theorem access_length_of_stageFields {x : StageArgs} {f : StageFields} (h : stageFieldsOf x = some f) :
    (x.access.getD []).length ≤ 8 := by
  obtain ⟨-, -, -, access⟩ := (stageFieldsOf_eq_some_iff x f).1 h
  cases e : x.access with
  | none => simp
  | some l =>
    rw [e] at access
    exact accessOf_length (by cases k : accessOf l <;> simp [optionalField, k] at access ⊢)

theorem rangeStage_misnamed (x : StageArgs) (s : State) (h : stageMisnamed x) : s.rangeStage x = s.reply .badBody := by
  have named := (stageMisnamed_iff x).1 h
  unfold State.rangeStage
  split
  · rename_i r f hr hf
    refine if_pos ?_
    by_contra none
    rw [not_or, Bool.not_eq_true, Bool.not_eq_false] at none
    exact named ⟨r, f, hr, hf, none⟩
  · rfl

theorem rangeStage_named {x : StageArgs} {r : RangeId} {f : StageFields} (s : State) (hr : rangeIdOf x.range = some r)
    (hf : stageFieldsOf x = some f) (place : placesRange0 x r = false) (unit : unitNamed x.unitSize = true) :
    s.rangeStage x = if x.unitSize.any (fun u => s.profile.blockSize < u) then s.reply .outOfRange
      else ({ s with staging := s.staging.set r (stageInto s.staging[r] x f) } : State).reply .ok := by
  simp [State.rangeStage, hr, hf, place, unit]

theorem exec_rangeStage_eq (tag : Byte) (body : Body StageArgs) (s : State) : exec (.rangeStage tag body) s =
    .next (s.whilePowered fun s => s.request 8 tag (bounded 8 (fun x => x.access.getD []) body) (adminOnly State.rangeStage)) := rfl
theorem exec_rangeDiscard_eq (tag : Byte) (body : Body Unit) (s : State) : exec (.rangeDiscard tag body) s =
    .next (s.whilePowered fun s => s.request 9 tag body (adminOnly State.rangeDiscard)) := rfl
theorem exec_rangeRead_eq (tag : Byte) (body : Body Nat) (s : State) : exec (.rangeRead tag body) s =
    .next (s.whilePowered fun s => s.request 11 tag body (adminOnly State.rangeRead)) := rfl

/-- A RANGE-STAGE on a part that takes it, under ADMIN authority: a list that passes its bound is one that names a slot twice or above 7. -/
theorem exec_rangeStage (s : State) (tag : Byte) (x : StageArgs) (takes : s.takesRequest) (admin : s.admin = true) :
    exec (.rangeStage tag (.fits x)) s = .next (settle ((s.take 8 tag).rangeStage x)) := by
  rw [exec_rangeStage_eq]
  by_cases h : (x.access.getD []).length ≤ 8
  · rw [bounded_fits 8 (fun x : StageArgs => x.access.getD []) x h, exec_admin s 8 tag x _ takes admin]
  · have misnamed : stageMisnamed x := by
      rw [stageMisnamed_iff]
      rintro ⟨r, f, -, hf, -⟩
      exact h (access_length_of_stageFields hf)
    rw [whilePowered_on _ takes.1, request_taken _ _ _ _ _ takes, rangeStage_misnamed x _ misnamed, reply_take]
    simp [bounded, fitting, h]


/-- A change of the staging copy and the taking of a request do not touch each other. -/
theorem take_staging_with (s : State) (kind : Nat) (tag : Byte) (v : Vector Staged 16) :
    ({ s.take kind tag with staging := v } : State) = ({ s with staging := v } : State).take kind tag := by
  rw [take_eq, take_eq, restartIdle_trigger s { s with staging := v } rfl rfl]

@[simp] theorem take_profile (s : State) (kind : Nat) (tag : Byte) : (s.take kind tag).profile = s.profile := by simp [State.profile]

@[simp] theorem take_tableGeneration (s : State) (kind : Nat) (tag : Byte) : (s.take kind tag).tableGeneration = s.tableGeneration := by
  simp [State.tableGeneration]

@[simp] theorem take_readReport (s : State) (kind : Nat) (tag : Byte) (r : RangeId) : (s.take kind tag).readReport r = s.readReport r := by
  simp [State.readReport]

/-- The answer to a RANGE-STAGE whose fields are all named (R15). -/
theorem rangeStage_take {x : StageArgs} {r : RangeId} {f : StageFields} (s : State) (tag : Byte) (hr : rangeIdOf x.range = some r)
    (hf : stageFieldsOf x = some f) (place : placesRange0 x r = false) (unit : unitNamed x.unitSize = true) :
    (s.take 8 tag).rangeStage x = if x.unitSize.any (fun u => s.profile.blockSize < u) then s.answered 8 tag .outOfRange .none
      else ({ s with staging := s.staging.set r (stageInto s.staging[r] x f) } : State).answered 8 tag .ok .none := by
  rw [rangeStage_named _ hr hf place unit, take_profile, take_staging, take_staging_with, reply_take, reply_take]

/-- A given field of a RANGE-STAGE is written as named, one not given stays (R15). -/
theorem field_given {α : Type} {o : Option (Field α)} {g : Option α} (h : o = g.map .value) (old : α) :
    (∀ v, o = some (.value v) → g.getD old = v) ∧ (o = none → g.getD old = old) := by
  subst h; cases g <;> simp

theorem access_given {o : Option (List Nat)} {g : Option (List SlotId)} (h : optionalField accessOf o = some g) (old : List SlotId) :
    (∀ l, o = some l → (g.getD old).Pairwise (· < ·) ∧ ∀ i : SlotId, i ∈ g.getD old ↔ i.val ∈ l) ∧ (o = none → g.getD old = old) := by
  refine ⟨fun l e => ?_, fun e => ?_⟩ <;> subst e
  · obtain ⟨a, ha, rfl⟩ := Option.map_eq_some_iff.1 h
    exact accessOf_eq_some ha
  · cases h; rfl

/-- RANGE-DISCARD restages every range and is answered OK (R16). -/
theorem rangeDiscard_take (s : State) (tag : Byte) :
    (s.take 9 tag).rangeDiscard () = (forEach allRanges (fun r s => s.restage r) s).answered 9 tag .ok .none := by
  have staging : (forEach allRanges (fun r s => s.restage r) (s.take 9 tag)).staging =
      (forEach allRanges (fun r s => s.restage r) s).staging := by
    ext i h : 1
    have taken := restage_all (s.take 9 tag) ⟨i, h⟩
    rw [take_range, ← restage_all s ⟨i, h⟩] at taken
    exact taken
  rw [State.rangeDiscard, restage_all_eq, staging, take_staging_with, ← restage_all_eq, reply_take]

theorem rangeRead_take (s : State) (tag : Byte) (n : Nat) :
    (15 < n → (s.take 11 tag).rangeRead n = s.answered 11 tag .badBody .none) ∧
      ∀ r : RangeId, n = r.val → (s.take 11 tag).rangeRead n = s.answered 11 tag .ok (.rangeRead (s.readReport r)) := by
  refine ⟨fun h => ?_, fun r h => ?_⟩
  · simp only [State.rangeRead, rangeIdOf_above n h, reply_take]
  · simp only [State.rangeRead, h, rangeIdOf_val, take_readReport, reply_take]

/-- Settles O54: each request is followed from its command through the executor's gate to its owner's answer. -/
theorem stagingIsWrittenDiscardedAndRead : Obligations.StagingIsWrittenDiscardedAndRead := by
  refine ⟨fun s tag takes admin => ⟨fun x short => ?_, ?_, fun n => ?_⟩, fun s tag x takes admin => ⟨fun bad => ?_, fun named large => ?_,
    fun named fits r range => ?_⟩, fun s tag takes admin => ?_, fun s tag n takes admin => ⟨fun above => ?_, fun r number => ?_⟩⟩
  · rw [exec_rangeStage_eq, bounded_fits 8 (fun x : StageArgs => x.access.getD []) x short, exec_notAdmin s 8 tag x _ takes admin]
  · rw [exec_rangeDiscard_eq, exec_notAdmin s 9 tag () _ takes admin]
  · rw [exec_rangeRead_eq, exec_notAdmin s 11 tag n _ takes admin]
  · rw [exec_rangeStage s tag x takes admin, rangeStage_misnamed x _ bad, reply_take]
  · obtain ⟨u, given, large⟩ := large
    obtain ⟨r, f, hr, hf, place, unit⟩ := not_not.1 (mt (stageMisnamed_iff x).2 named)
    rw [exec_rangeStage s tag x takes admin, rangeStage_take s tag hr hf place unit, if_pos (by simpa [given] using large)]
  · obtain ⟨r', f, hr, hf, place, unit⟩ := not_not.1 (mt (stageMisnamed_iff x).2 named)
    obtain rfl : r' = r := Fin.ext (by rw [← (rangeIdOf_eq_some_iff _ _).1 hr, range])
    obtain ⟨read, sleep, response, access⟩ := (stageFieldsOf_eq_some_iff x f).1 hf
    have within : x.unitSize.any (fun u => s.profile.blockSize < u) = false := by
      cases e : x.unitSize with
      | none => rfl
      | some u => simpa using fits u e
    refine ⟨stageInto s.staging[r'] x f, ?_, rfl, rfl, rfl, rfl, rfl, (field_given read _).1, (field_given read _).2,
      (field_given sleep _).1, (field_given sleep _).2, (field_given response _).1, (field_given response _).2,
      (access_given access _).1, (access_given access _).2, rfl⟩
    rw [exec_rangeStage s tag x takes admin, rangeStage_take s tag hr hf place unit, within, if_neg (by decide)]
  · refine ⟨forEach allRanges (fun r s => s.restage r) s, ?_, restage_all_eq s, restage_all s⟩
    rw [exec_rangeDiscard_eq, exec_admin s 9 tag () _ takes admin, rangeDiscard_take]
  · rw [exec_rangeRead_eq, exec_admin s 11 tag n _ takes admin, (rangeRead_take s tag n).1 above]
  · refine ⟨s.readReport r, ?_, rfl, rfl, rfl, rfl, rfl, rfl, rfl, rfl, rfl, rfl, rfl⟩
    rw [exec_rangeRead_eq, exec_admin s 11 tag n _ takes admin, (rangeRead_take s tag n).2 r number]

end Sys2Proof.Machine

namespace Sys2Proof.Machine

/-! ### What the part holds of one range

The operations of the Range Table visit ranges one by one. A visit of a range changes what the Range Table, the Key Cache and the wake gate
hold of that range, as a function of that and of the rest of the state. -/

/-- What the Range Table, the Key Cache and the wake gate hold of one range (R1, R34, R103). -/
structure RangeView where
  live : RangeLive
  key : KeyEntry
  gated : Bool

/-- What the state holds of a range. -/
def State.view (s : State) (r : RangeId) : RangeView :=
  { live := s.table[r], key := s.key (.range r), gated := decide (r ∈ s.binding.gated) }

/-- The state less what the views of the ranges hold. -/
def State.besideRanges (s : State) : State :=
  { s with table := tab16 fun _ => { readLocked := false, writeLocked := false, service := .undefined, inForce := .close }
           cache := tab16 fun _ => emptyKey, binding := { s.binding with gated := [] } }

@[simp] theorem besideRanges_range (s : State) (r : RangeId) : s.besideRanges.range r = s.range r := rfl
@[simp] theorem besideRanges_defined (s : State) (r : RangeId) : s.besideRanges.defined r = s.defined r := rfl
@[simp] theorem view_live (s : State) (r : RangeId) : (s.view r).live = s.table[r] := rfl
@[simp] theorem view_key (s : State) (r : RangeId) : (s.view r).key = s.key (.range r) := rfl
@[simp] theorem view_gated (s : State) (r : RangeId) : (s.view r).gated = decide (r ∈ s.binding.gated) := rfl

theorem range_of_besideRanges {s t : State} (h : t.besideRanges = s.besideRanges) (r : RangeId) : t.range r = s.range r :=
  show t.besideRanges.range r = s.besideRanges.range r by rw [h]

/-! #### One visit -/

@[simp] theorem besideRanges_modRange (s : State) (r : RangeId) (f : RangeLive → RangeLive) :
    (s.modRange r f).besideRanges = s.besideRanges := rfl
@[simp] theorem besideRanges_modKey (s : State) (r : RangeId) (f : KeyEntry → KeyEntry) :
    (s.modKey (.range r) f).besideRanges = s.besideRanges := rfl
@[simp] theorem besideRanges_ungate (s : State) (r : RangeId) : (s.ungate r).besideRanges = s.besideRanges := rfl

theorem view_modRange (s : State) (r q : RangeId) (f : RangeLive → RangeLive) :
    (s.modRange r f).view q = if q = r then ⟨f s.table[r], (s.view r).key, (s.view r).gated⟩ else s.view q := by
  split
  · next h => subst h; exact congrArg (RangeView.mk · _ _) (State.modRange_same s q f)
  · next h => exact congrArg (RangeView.mk · _ _) (State.modRange_other s f h)

theorem view_modKey (s : State) (r q : RangeId) (f : KeyEntry → KeyEntry) :
    (s.modKey (.range r) f).view q = if q = r then ⟨s.table[r], f (s.key (.range r)), (s.view r).gated⟩ else s.view q := by
  have e := key_modKey s (.range r) (.range q) f
  simp only [Owner.range.injEq] at e
  split
  · next h => subst h; exact congrArg (RangeView.mk _ · _) (e.trans (if_pos rfl))
  · next h => exact congrArg (RangeView.mk _ · _) (e.trans (if_neg (Ne.symm h)))

theorem view_ungate (s : State) (r q : RangeId) :
    (s.ungate r).view q = if q = r then ⟨s.table[r], s.key (.range r), false⟩ else s.view q := by
  have e : decide (q ∈ (s.ungate r).binding.gated) = if q = r then false else decide (q ∈ s.binding.gated) := by
    by_cases h : q = r <;> simp [State.ungate, h]
  split
  · next h => subst h; exact congrArg (RangeView.mk _ _ ·) (e.trans (if_pos rfl))
  · next h => exact congrArg (RangeView.mk _ _ ·) (e.trans (if_neg h))

/-! #### Visits of a list -/

/-- `f a` visits the range `place a`: it leaves the rest of the state and the other ranges, and makes of what the state holds of this range
what `new` says. -/
structure Visits {α : Type} (place : α → RangeId) (f : α → State → State) (new : State → α → RangeView → RangeView) : Prop where
  frame : ∀ a s, (f a s).besideRanges = s.besideRanges
  here : ∀ a s, (f a s).view (place a) = new s.besideRanges a (s.view (place a))
  there : ∀ a s q, q ≠ place a → (f a s).view q = s.view q

section Visits

variable {α : Type} {place : α → RangeId} {f : α → State → State} {new : State → α → RangeView → RangeView}

theorem Visits.forEach_frame (h : Visits place f new) (l : List α) (s : State) : (forEach l f s).besideRanges = s.besideRanges :=
  forEach_keeps State.besideRanges f h.frame l s

theorem Visits.forEach_there (h : Visits place f new) {r : RangeId} (l : List α) (s : State) (m : r ∉ l.map place) :
    (forEach l f s).view r = s.view r := by
  induction l generalizing s with
  | nil => rfl
  | cons a l ih =>
    simp only [List.map_cons, List.mem_cons, not_or] at m
    exact (ih (f a s) m.2).trans (h.there a s r m.1)

/-- Visits of different ranges: each is seen once. -/
theorem Visits.forEach_here (h : Visits place f new) {a : α} (l : List α) (s : State) (nodup : (l.map place).Nodup) (m : a ∈ l) :
    (forEach l f s).view (place a) = new s.besideRanges a (s.view (place a)) := by
  induction l generalizing s with
  | nil => cases m
  | cons b l ih =>
    simp only [List.map_cons, List.nodup_cons] at nodup
    show (forEach l f (f b s)).view (place a) = _
    rcases List.mem_cons.1 m with rfl | m
    · rw [h.forEach_there l _ nodup.1, h.here]
    · have other : place a ≠ place b := fun e => nodup.1 (e ▸ List.mem_map_of_mem m)
      rw [ih _ nodup.2 m, h.frame, h.there b s _ other]

/-- Visits of ranges in a list that may name a range twice: a visit that says nothing new the second time. -/
theorem Visits.forEach_idem {f : RangeId → State → State} {new : State → RangeId → RangeView → RangeView} (h : Visits id f new)
    (idem : ∀ s r v, new s r (new s r v) = new s r v) (l : List RangeId) (s : State) (r : RangeId) :
    (forEach l f s).view r = if r ∈ l then new s.besideRanges r (s.view r) else s.view r := by
  induction l generalizing s with
  | nil => simp [forEach]
  | cons a l ih =>
    show (forEach l f (f a s)).view r = _
    rw [ih, h.frame]
    by_cases e : r = a
    · subst e
      have here : (f r s).view r = new s.besideRanges r (s.view r) := h.here r s
      simp [here, idem]
    · rw [h.there a s r e]; simp [e]

/-- A visit of every range. -/
theorem Visits.forEach_all {f : RangeId → State → State} {new : State → RangeId → RangeView → RangeView} (h : Visits id f new)
    (s : State) (r : RangeId) : (forEach allRanges f s).view r = new s.besideRanges r (s.view r) :=
  h.forEach_here (a := r) allRanges s (by simpa using allRanges_nodup) (allRanges_mem r)

end Visits

/-! #### Drains of closed ranges (R5, R12) -/

/-- Both locks of a range are enabled and locked: no direction is open (R5). -/
def RangeFields.closedBy (f : RangeFields) (e : RangeLive) : Bool := (f.readLock && e.readLocked) && (f.writeLock && e.writeLocked)

theorem anyOpen_eq (s : State) (r : RangeId) : s.anyOpen r = !(s.range r).fields.closedBy s.table[r] := by
  simp [State.anyOpen, State.readClosed, State.writeClosed, RangeFields.closedBy, Bool.not_and]

/-- What is held of an ACTIVE range with no open direction after its drain (R5). -/
def RangeView.drainClosed (f : RangeFields) (v : RangeView) : RangeView :=
  if v.live.service = .active ∧ f.closedBy v.live = true then { v with key := v.key.drain } else v

theorem drainIfClosed_eq (s : State) (r : RangeId) : s.drainIfClosed r =
    if s.table[r].service = .active ∧ (s.range r).fields.closedBy s.table[r] = true then s.drainKey (.range r) else s := by
  simp only [State.drainIfClosed, anyOpen_eq, Bool.not_eq_false']

theorem view_drainIfClosed (s : State) (r q : RangeId) :
    (s.drainIfClosed r).view q = if q = r then (s.view r).drainClosed (s.range r).fields else s.view q := by
  rw [drainIfClosed_eq]
  by_cases h : s.table[r].service = .active ∧ (s.range r).fields.closedBy s.table[r] = true
  · have drained : (s.view r).drainClosed (s.range r).fields = { s.view r with key := (s.view r).key.drain } := if_pos h
    rw [if_pos h, State.drainKey, view_modKey, drained]; rfl
  · have same : (s.view r).drainClosed (s.range r).fields = s.view r := if_neg h
    rw [if_neg h, same]
    split
    · next e => rw [e]
    · rfl

theorem visits_drainIfClosed :
    Visits id (fun r s => s.drainIfClosed r) (fun s r v => v.drainClosed (s.range r).fields) where
  frame r s := by unfold State.drainIfClosed; split <;> rfl
  here r s := (view_drainIfClosed s r r).trans (if_pos rfl)
  there r s q e := (view_drainIfClosed s r q).trans (if_neg e)

theorem drainClosed_live (f : RangeFields) (v : RangeView) : (v.drainClosed f).live = v.live := by
  unfold RangeView.drainClosed; split <;> rfl
theorem drainClosed_gated (f : RangeFields) (v : RangeView) : (v.drainClosed f).gated = v.gated := by
  unfold RangeView.drainClosed; split <;> rfl

/-! ### The drain wait of a RANGE-COMMIT (R19, R20) -/

/-- An affected range returns to its previous state; one that is ACTIVE again with no open direction drains (R20, R12). -/
def RangeView.revert (f : RangeFields) (before : Service) (v : RangeView) : RangeView :=
  if v.live.service = .updating then ({ v with live := { v.live with service := before } } : RangeView).drainClosed f else v

/-- The end of a RANGE-COMMIT in its drain wait, range by range (R20). -/
def State.revertRange (p : RangeId × Service) (s : State) : State :=
  if s.table[p.1].service = .updating then (s.modRange p.1 (fun e => { e with service := p.2 })).drainIfClosed p.1 else s

theorem revertCommit_eq (s : State) (c : Commit) : s.revertCommit c = forEach c.affected State.revertRange s := rfl

theorem view_revertRange (s : State) (p : RangeId × Service) (q : RangeId) :
    (State.revertRange p s).view q = if q = p.1 then (s.view p.1).revert (s.range p.1).fields p.2 else s.view q := by
  unfold State.revertRange
  by_cases h : s.table[p.1].service = .updating
  · have back : (s.view p.1).revert (s.range p.1).fields p.2 =
        ({ s.view p.1 with live := { s.table[p.1] with service := p.2 } } : RangeView).drainClosed (s.range p.1).fields := if_pos h
    rw [if_pos h, view_drainIfClosed, view_modRange, if_pos rfl, back]
    split
    · rfl
    · next e => rw [view_modRange, if_neg e]
  · have same : (s.view p.1).revert (s.range p.1).fields p.2 = s.view p.1 := if_neg h
    rw [if_neg h, same]
    split
    · next e => rw [e]
    · rfl

theorem visits_revertRange : Visits Prod.fst State.revertRange (fun s p v => v.revert (s.range p.1).fields p.2) where
  frame p s := by
    unfold State.revertRange
    split
    · exact visits_drainIfClosed.frame p.1 _
    · rfl
  here p s := (view_revertRange s p p.1).trans (if_pos rfl)
  there p s q e := (view_revertRange s p q).trans (if_neg e)

/-- The end of a drain wait changes the range entries and the ranges' keys alone. -/
theorem revertCommit_frame (s : State) (c : Commit) :
    s.revertCommit c = { s with table := (s.revertCommit c).table, cache := (s.revertCommit c).cache } := by
  have step (p : RangeId × Service) (u : State) :
      ({ State.revertRange p u with table := s.table, cache := s.cache } : State) = { u with table := s.table, cache := s.cache } := by
    unfold State.revertRange State.drainIfClosed
    split
    · split <;> rfl
    · rfl
  have frame := forEach_keeps (fun u : State => ({ u with table := s.table, cache := s.cache } : State)) State.revertRange step c.affected s
  rw [revertCommit_eq]
  have back := congrArg (fun u : State => ({ u with table := (forEach c.affected State.revertRange s).table
                                                    cache := (forEach c.affected State.revertRange s).cache } : State)) frame
  exact back

/-- What the end of a drain wait makes of an affected range and of every other (R20). -/
theorem revertCommit_view (s : State) (c : Commit) (nodup : (c.affected.map (·.1)).Nodup) :
    (∀ p ∈ c.affected, (s.revertCommit c).view p.1 = (s.view p.1).revert (s.range p.1).fields p.2) ∧
      ∀ r, r ∉ c.affected.map (·.1) → (s.revertCommit c).view r = s.view r :=
  ⟨fun _ m => visits_revertRange.forEach_here c.affected s nodup m, fun _ m => visits_revertRange.forEach_there c.affected s m⟩

theorem revert_of_updating {f : RangeFields} {before : Service} {v : RangeView} (h : v.live.service = .updating) :
    (v.revert f before).live = { v.live with service := before } ∧
      (v.revert f before).key = if before = .active ∧ f.closedBy v.live = true then v.key.drain else v.key := by
  rw [RangeView.revert, if_pos h]
  refine ⟨drainClosed_live _ _, ?_⟩
  simp only [RangeView.drainClosed, apply_ite RangeView.key]
  rfl

/-- Settles O29: the wait's end by the executor's stage, the limit's expiry by what the end of a drain wait makes of each range. -/
theorem drainWaitEndsOrTimesOut : Obligations.DrainWaitEndsOrTimesOut := by
  refine ⟨fun s c powered job stage refs => ?_, fun s c powered status job stage nodup => ?_⟩
  · have commit : s.commit = some c := by simp [State.commit, job]
    have draining : s.commitDraining = true := by simp [State.commitDraining, commit, stage]
    have drained : s.drained c = true := by simpa [State.drained] using refs
    show Host.Outcome.next (s.whilePowered State.endDrainWait) = _
    rw [whilePowered_on _ powered, State.endDrainWait, commit]
    simp only [draining, drained, and_self, if_true]
  · have commit : s.commit = some c := by simp [State.commit, job]
    have draining : s.commitDraining = true := by simp [State.commitDraining, commit, stage]
    let timed := s.reachTime (c.drainSince + 2000)
    have expires : s.drainLimitExpires = (timed.revertCommit c).reply .drainTimeout := by
      have commit' : timed.commit = some c := commit
      simp only [State.drainLimitExpires, commit, draining, if_true]
      show timed.endCommit .drainTimeout .none = _
      rw [State.endCommit, commit']
    have frame := revertCommit_frame timed c
    have executor : (timed.revertCommit c).executor = s.executor := by rw [frame]; rfl
    have sent : (timed.revertCommit c).sent = s.sent := by rw [frame]; rfl
    obtain ⟨affected, others⟩ := revertCommit_view timed c nodup
    have answer := reply_eq (timed.revertCommit c) .drainTimeout .none (by rw [executor]; exact status)
    rw [executor, sent] at answer
    refine ⟨s.drainLimitExpires, ?_, ?_, fun p m updating => ?_, fun r other => ?_⟩
    · show Host.Outcome.next (s.whilePowered State.drainLimitExpires) = _
      rw [whilePowered_on _ powered]
    · rw [expires, answer]
      rw [frame]
      rfl
    · obtain ⟨live, key⟩ := revert_of_updating (f := (s.range p.1).fields) (before := p.2) (v := timed.view p.1) updating
      rw [expires, answer]
      refine ⟨(congrArg RangeView.live (affected p m)).trans live, (congrArg RangeView.key (affected p m)).trans (key.trans ?_)⟩
      simp only [RangeFields.closedBy, State.readClosed, State.writeClosed, Bool.and_eq_true]
      rfl
    · have same : (timed.revertCommit c).view r = s.view r := by
        rcases other with other | other
        · exact others r other
        · by_cases m : r ∈ c.affected.map (·.1)
          · obtain ⟨p, named, rfl⟩ := List.mem_map.1 m
            exact (affected p named).trans (if_neg other)
          · exact others r m
      rw [expires, answer]
      exact ⟨congrArg RangeView.live same, congrArg RangeView.key same⟩

end Sys2Proof.Machine

namespace Sys2Proof.Machine

/-! ### RANGE-UNLOCK and RANGE-LOCK (R6, R7) -/

theorem exec_rangeUnlock_eq (tag : Byte) (body : Body RangeDirs) (s : State) : exec (.rangeUnlock tag body) s =
    .next (s.whilePowered fun s => s.request 6 tag body State.rangeUnlock) := rfl
theorem exec_rangeLock_eq (tag : Byte) (body : Body RangeDirs) (s : State) : exec (.rangeLock tag body) s =
    .next (s.whilePowered fun s => s.request 7 tag body State.rangeLock) := rfl

theorem exec_rangeUnlock (s : State) (tag : Byte) (x : RangeDirs) (takes : s.takesRequest) :
    exec (.rangeUnlock tag (.fits x)) s = .next (settle ((s.take 6 tag).rangeUnlock x)) := by
  rw [exec_rangeUnlock_eq, whilePowered_on _ takes.1, request_fits _ _ _ _ _ takes]
theorem exec_rangeLock (s : State) (tag : Byte) (x : RangeDirs) (takes : s.takesRequest) :
    exec (.rangeLock tag (.fits x)) s = .next (settle ((s.take 7 tag).rangeLock x)) := by
  rw [exec_rangeLock_eq, whilePowered_on _ takes.1, request_fits _ _ _ _ _ takes]

/-- A body that names a range above 15, or whose direction set is no set of the two directions, names no range and directions (R6, R169). -/
theorem unlockOf_misnamed (x : RangeDirs) (h : 15 < x.range ∨ x.dirs = [] ∨ Field.unknown ∈ x.dirs ∨ ¬ x.dirs.Nodup) :
    unlockOf x = none := by
  have dirs : (x.dirs = [] ∨ Field.unknown ∈ x.dirs ∨ ¬ x.dirs.Nodup) → dirSetOf x.dirs = none := fun bad =>
    if_neg (by rintro ⟨some, nodup, known⟩; rcases bad with bad | bad | bad <;> contradiction)
  rcases h with h | h
  · simp [unlockOf, rangeIdOf_above _ h]
  · simp [unlockOf, dirs h]

/-- The authority permits RANGE-LOCK and RANGE-UNLOCK where it is that of an ADMIN slot or of one on the range's list (R70). -/
theorem mayLock_eq_true (s : State) (r : RangeId) (a : Authority) (h : s.authority = some a)
    (permits : roleOf a.slot = .admin ∨ a.slot ∈ (s.range r).fields.access) : s.mayLock r = true := by
  simpa [State.mayLock, h] using permits

theorem mayLock_eq_false (s : State) (r : RangeId)
    (h : s.authority = none ∨ ∃ a, s.authority = some a ∧ roleOf a.slot ≠ .admin ∧ a.slot ∉ (s.range r).fields.access) :
    s.mayLock r = false := by
  rcases h with h | ⟨a, h, role, access⟩
  · simp [State.mayLock, h]
  · simp [State.mayLock, h, role, access]

@[simp] theorem take_mayLock (s : State) (kind : Nat) (tag : Byte) (r : RangeId) : (s.take kind tag).mayLock r = s.mayLock r := by
  simp [State.mayLock]

@[simp] theorem take_wrapKey (s : State) (kind : Nat) (tag : Byte) (slot : SlotId) (u : Unwrap) (r : RangeId) :
    (s.take kind tag).wrapKey slot u r = s.wrapKey slot u r := by
  simp [State.wrapKey, State.openWrap]

@[simp] theorem take_unlockRefusal (s : State) (kind : Nat) (tag : Byte) (slot : SlotId) (u : Unwrap) (r : RangeId) :
    (s.take kind tag).unlockRefusal slot u r = s.unlockRefusal slot u r := by
  simp [State.unlockRefusal, State.inLockdown]

/-! #### The first failing check of RANGE-UNLOCK -/

theorem unlockRefusal_normal (s : State) (slot : SlotId) (u : Unwrap) (r : RangeId) (h : s.trigger.working.device = .normal) :
    s.unlockRefusal slot u r = if s.table[r].service ≠ .active then some .slotState
      else if (s.key (.range r)).state ≠ .empty ∨ (s.wrapKey slot u r).isSome = true then none else some .keyUnavailable := by
  have normal : s.inLockdown = false := by simp [State.inLockdown, h]
  unfold State.unlockRefusal KeyEntry.inHand
  rw [normal, if_neg (by decide)]
  by_cases k : (s.key (.range r)).state = .empty <;> simp [k]

theorem unlockRefusal_lockdown (s : State) (slot : SlotId) (u : Unwrap) (r : RangeId) (h : s.trigger.working.device = .lockdown) :
    s.unlockRefusal slot u r = some .lockdown := by simp [State.unlockRefusal, State.inLockdown, h]

theorem unlockRefusal_slotState (s : State) (slot : SlotId) (u : Unwrap) (r : RangeId) (h : s.trigger.working.device = .normal)
    (service : s.table[r].service ≠ .active) : s.unlockRefusal slot u r = some .slotState := by
  rw [unlockRefusal_normal s slot u r h, if_pos service]

/-- The holder's slot has no wrap that opens the range (R53, R54). -/
theorem wrapKey_eq_none (s : State) (slot : SlotId) (u : Unwrap) (r : RangeId)
    (h : slot ∉ (s.range r).fields.access ∨
      ∀ w, (s.cred slot).wraps.find? (fun w => w.range = r ∧ w.generation = (s.range r).generation) = some w →
        w.verifier ≠ { madeFrom := u }) : s.wrapKey slot u r = none := by
  rcases h with h | h
  · exact if_neg h
  · have closed : s.openWrap slot u r = none := by
      unfold State.openWrap
      split
      · next w found =>
        refine if_neg (fun e => h w found ?_)
        rw [← e]
      · rfl
    simp [State.wrapKey, closed]

theorem unlockRefusal_keyUnavailable (s : State) (slot : SlotId) (u : Unwrap) (r : RangeId) (h : s.trigger.working.device = .normal)
    (service : s.table[r].service = .active) (empty : (s.key (.range r)).state = .empty) (wrap : s.wrapKey slot u r = none) :
    s.unlockRefusal slot u r = some .keyUnavailable := by
  rw [unlockRefusal_normal s slot u r h, if_neg (not_not.2 service), if_neg (by simp [empty, wrap])]

theorem unlockRefusal_none (s : State) (slot : SlotId) (u : Unwrap) (r : RangeId) (h : s.trigger.working.device = .normal)
    (service : s.table[r].service = .active) (key : (s.key (.range r)).state ≠ .empty ∨ (s.wrapKey slot u r).isSome = true) :
    s.unlockRefusal slot u r = none := by
  rw [unlockRefusal_normal s slot u r h, if_neg (not_not.2 service), if_pos key]

/-! #### The answers -/

theorem rangeUnlock_misnamed (s : State) (x : RangeDirs) (h : unlockOf x = none) : s.rangeUnlock x = s.reply .badBody := by
  simp [State.rangeUnlock, h]
theorem rangeLock_misnamed (s : State) (x : RangeDirs) (h : unlockOf x = none) : s.rangeLock x = s.reply .badBody := by
  simp [State.rangeLock, h]

theorem rangeUnlock_forbidden (s : State) {x : RangeDirs} {u : Unlock} (h : unlockOf x = some u) (may : s.mayLock u.range = false) :
    s.rangeUnlock x = s.reply .noAuthority := by simp [State.rangeUnlock, h, may]
theorem rangeLock_forbidden (s : State) {x : RangeDirs} {u : Unlock} (h : unlockOf x = some u) (may : s.mayLock u.range = false) :
    s.rangeLock x = s.reply .noAuthority := by simp [State.rangeLock, h, may]

theorem rangeUnlock_permitted (s : State) {x : RangeDirs} {u : Unlock} {a : Authority} (h : unlockOf x = some u)
    (may : s.mayLock u.range = true) (holder : s.authority = some a) : s.rangeUnlock x = s.unlockBy a u := by
  simp [State.rangeUnlock, h, may, holder]
theorem rangeLock_permitted (s : State) {x : RangeDirs} {u : Unlock} (h : unlockOf x = some u) (may : s.mayLock u.range = true) :
    s.rangeLock x = s.lockRange u := by simp [State.rangeLock, h, may]

theorem exec_rangeUnlock_permitted (s : State) (tag : Byte) {x : RangeDirs} {u : Unlock} {a : Authority} (takes : s.takesRequest)
    (h : unlockOf x = some u) (holder : s.authority = some a) (permits : roleOf a.slot = .admin ∨ a.slot ∈ (s.range u.range).fields.access) :
    exec (.rangeUnlock tag (.fits x)) s = .next (settle ((s.take 6 tag).unlockBy a u)) := by
  rw [exec_rangeUnlock s tag x takes, rangeUnlock_permitted _ h (by rw [take_mayLock, mayLock_eq_true s u.range a holder permits])
    (by rw [take_authority, holder])]
theorem exec_rangeLock_permitted (s : State) (tag : Byte) {x : RangeDirs} {u : Unlock} {a : Authority} (takes : s.takesRequest)
    (h : unlockOf x = some u) (holder : s.authority = some a) (permits : roleOf a.slot = .admin ∨ a.slot ∈ (s.range u.range).fields.access) :
    exec (.rangeLock tag (.fits x)) s = .next (settle ((s.take 7 tag).lockRange u)) := by
  rw [exec_rangeLock s tag x takes, rangeLock_permitted _ h (by rw [take_mayLock, mayLock_eq_true s u.range a holder permits])]

/-- A RANGE-UNLOCK that a check refuses changes nothing (R6). -/
theorem unlockBy_take_refused (s : State) (tag : Byte) (a : Authority) (u : Unlock) (code : Code)
    (h : s.unlockRefusal a.slot a.unwrap u.range = some code) :
    (s.take 6 tag).unlockBy a u = s.answered 6 tag code (refusalRange code u.range) := by
  simp only [State.unlockBy, take_unlockRefusal, h, reply_take]

/-! #### The effects -/

/-- The flags of a range after named directions have been given a locked flag (R6, R7). -/
def RangeLive.withLocks (e : RangeLive) (f : RangeFields) (d : DirSet) (locked : Bool) : RangeLive :=
  { e with readLocked := if d.read = true ∧ f.readLock = true then locked else e.readLocked
           writeLocked := if d.write = true ∧ f.writeLock = true then locked else e.writeLocked }

/-- The Key Cache entry of a range after an unlock: LIVE, with its own material or that of the holder's wrap (R6, R54). -/
def State.unlockedKey (s : State) (slot : SlotId) (u : Unwrap) (r : RangeId) : KeyEntry :=
  if (s.key (.range r)).state = .empty then
    { state := .live, material := s.wrapKey slot u r, generation := some (s.range r).generation, refs := (s.key (.range r)).refs }
  else { s.key (.range r) with state := .live }

/-- The state after an unlock, part by part (R6, R54, R103). -/
def State.unlocked (s : State) (slot : SlotId) (u : Unwrap) (x : Unlock) : State :=
  { s with table := s.table.set x.range (s.table[x.range].withLocks (s.range x.range).fields x.dirs false)
           cache := s.cache.set x.range (s.unlockedKey slot u x.range)
           binding := { s.binding with gated := s.binding.gated.filter (fun r => r ≠ x.range) } }

theorem applyUnlock_eq (s : State) (slot : SlotId) (u : Unwrap) (x : Unlock)
    (key : (s.key (.range x.range)).state ≠ .empty ∨ (s.wrapKey slot u x.range).isSome = true) :
    s.applyUnlock slot u x = s.unlocked slot u x := by
  have live : ∀ e : KeyEntry, e.state ≠ .empty → e.makeLive = { e with state := .live } := by
    rintro ⟨state, material, generation, refs⟩ h
    cases state with
    | empty => exact absurd rfl h
    | live => rfl
    | draining => rfl
  unfold State.applyUnlock State.unlocked State.unlockedKey KeyEntry.inHand
  by_cases empty : (s.key (.range x.range)).state = .empty
  · obtain ⟨k, wrap⟩ := Option.isSome_iff_exists.1 (key.resolve_left (absurd empty))
    have load : (s.key (.range x.range)).load k (some (s.range x.range).generation) =
        { state := .live, material := some k, generation := some (s.range x.range).generation, refs := (s.key (.range x.range)).refs } := by
      simp only [KeyEntry.load, empty]
    rw [if_neg (by simp [empty]), if_pos empty, wrap, ← load]
    rfl
  · rw [if_pos (by simpa using empty), if_neg empty, ← live _ empty]
    rfl

theorem unlocked_take (s : State) (kind : Nat) (tag : Byte) (slot : SlotId) (u : Unwrap) (x : Unlock) :
    (s.take kind tag).unlocked slot u x = (s.unlocked slot u x).take kind tag := by
  rw [take_eq, take_eq (s.unlocked slot u x), restartIdle_trigger s (s.unlocked slot u x) rfl rfl]
  rfl

/-- The key of the range that is unlocked, and of every other (R6). -/
theorem unlocked_key (s : State) (slot : SlotId) (u : Unwrap) (x : Unlock) :
    (s.unlocked slot u x).key (.range x.range) = s.unlockedKey slot u x.range ∧
      ∀ r : RangeId, r ≠ x.range → (s.unlocked slot u x).key (.range r) = s.key (.range r) := by
  have set : ∀ r : RangeId, (s.unlocked slot u x).key (.range r) =
      (s.setKey (.range x.range) (s.unlockedKey slot u x.range)).key (.range r) := fun _ => rfl
  exact ⟨(set _).trans (State.key_setKey_same ..), fun r e => (set r).trans (State.key_setKey_other _ _ (by simpa using e))⟩

theorem replyLocks_take (s : State) (kind : Nat) (tag : Byte) (r : RangeId) (live : RangeLive) (h : s.table[r] = live) :
    (s.take kind tag).replyLocks r = s.answered kind tag .ok (.locks live.readLocked live.writeLocked) := by
  rw [State.replyLocks, take_table, h, reply_take]

/-- A RANGE-UNLOCK that every check lets pass (R6). -/
theorem unlockBy_take (s : State) (tag : Byte) (a : Authority) (u : Unlock) (normal : s.trigger.working.device = .normal)
    (service : s.table[u.range].service = .active)
    (key : (s.key (.range u.range)).state ≠ .empty ∨ (s.wrapKey a.slot a.unwrap u.range).isSome = true) :
    let live := s.table[u.range].withLocks (s.range u.range).fields u.dirs false
    (s.take 6 tag).unlockBy a u =
      (s.unlocked a.slot a.unwrap u).answered 6 tag .ok (.locks live.readLocked live.writeLocked) := by
  have passes : (s.take 6 tag).unlockRefusal a.slot a.unwrap u.range = none := by
    rw [take_unlockRefusal, unlockRefusal_none s _ _ _ normal service key]
  rw [State.unlockBy, passes]
  show ((s.take 6 tag).applyUnlock a.slot a.unwrap u).replyLocks u.range = _
  rw [applyUnlock_eq _ _ _ _ (by simpa using key), unlocked_take, replyLocks_take]
  exact get_set_same _ _ _

/-- The Key Cache entry of a range after a RANGE-LOCK that leaves it with these flags (R7). -/
def State.lockedKey (s : State) (r : RangeId) (live : RangeLive) : KeyEntry :=
  if live.service = .active ∧ (s.range r).fields.closedBy live = true then (s.key (.range r)).drain else s.key (.range r)

/-- The state after a RANGE-LOCK, part by part (R7). -/
def State.locked (s : State) (u : Unlock) : State :=
  let live := s.table[u.range].withLocks (s.range u.range).fields u.dirs true
  { s with table := s.table.set u.range live, cache := s.cache.set u.range (s.lockedKey u.range live) }

theorem lockDrain_eq (s : State) (u : Unlock) : (s.setLocks u.range u.dirs true).drainIfClosed u.range = s.locked u := by
  have here : (s.setLocks u.range u.dirs true).table[u.range] = s.table[u.range].withLocks (s.range u.range).fields u.dirs true :=
    get_set_same _ _ _
  have fields : (s.setLocks u.range u.dirs true).range u.range = s.range u.range := rfl
  rw [drainIfClosed_eq, here, fields, State.locked, State.lockedKey]
  split
  · rfl
  · have same : s.cache.set u.range (s.key (.range u.range)) = s.cache := Vector.set_getElem_self u.range.isLt
    rw [same]
    rfl

theorem locked_take (s : State) (kind : Nat) (tag : Byte) (u : Unlock) : (s.take kind tag).locked u = (s.locked u).take kind tag := by
  rw [take_eq, take_eq (s.locked u), restartIdle_trigger s (s.locked u) rfl rfl]
  rfl

/-- The key of the range that is locked, and of every other (R7). -/
theorem locked_key (s : State) (u : Unlock) :
    (s.locked u).key (.range u.range) = s.lockedKey u.range (s.table[u.range].withLocks (s.range u.range).fields u.dirs true) ∧
      ∀ r : RangeId, r ≠ u.range → (s.locked u).key (.range r) = s.key (.range r) := by
  have set : ∀ r : RangeId, (s.locked u).key (.range r) = (s.setKey (.range u.range)
      (s.lockedKey u.range (s.table[u.range].withLocks (s.range u.range).fields u.dirs true))).key (.range r) := fun _ => rfl
  exact ⟨(set _).trans (State.key_setKey_same ..), fun r e => (set r).trans (State.key_setKey_other _ _ (by simpa using e))⟩

/-- What RANGE-LOCK answers, once the authority permits it (R7). -/
theorem lockRange_take (s : State) (tag : Byte) (u : Unlock) :
    let live := s.table[u.range].withLocks (s.range u.range).fields u.dirs true
    (s.take 7 tag).lockRange u = if s.table[u.range].service = .undefined ∨ s.table[u.range].service = .erasing
      then s.answered 7 tag .slotState (.range (some u.range))
      else (s.locked u).answered 7 tag .ok (.locks live.readLocked live.writeLocked) := by
  simp only [State.lockRange, take_table, lockDrain_eq, locked_take, reply_take]
  rw [replyLocks_take _ _ _ _ _ (get_set_same _ _ _)]

/-- Settles O53: the first failing check of each request, or its effect part by part. -/
theorem locksOpenAndClose : Obligations.LocksOpenAndClose := by
  refine ⟨fun s tag x takes => ⟨⟨?_, ?_⟩, fun bad => ?_, fun u named => ⟨fun forbidden => ?_, fun a holder permits =>
      ⟨fun lockdown => ?_, fun normal => ⟨fun service => ?_, fun service empty closed => ?_⟩⟩⟩⟩,
    fun s tag x u a takes named holder permits normal service key => ?_,
    fun s tag x u a takes named holder permits => ⟨fun refused => ?_, fun undefined erasing => ?_⟩⟩
  · rw [exec_rangeUnlock_eq, whilePowered_on _ takes.1, request_taken _ _ _ _ _ takes]
  · rw [exec_rangeLock_eq, whilePowered_on _ takes.1, request_taken _ _ _ _ _ takes]
  · have none := unlockOf_misnamed x bad
    rw [exec_rangeUnlock s tag x takes, exec_rangeLock s tag x takes, rangeUnlock_misnamed _ x none, rangeLock_misnamed _ x none,
      reply_take, reply_take]
    exact ⟨rfl, rfl⟩
  · have may := mayLock_eq_false s u.range forbidden
    rw [exec_rangeUnlock s tag x takes, exec_rangeLock s tag x takes, rangeUnlock_forbidden _ named (by rw [take_mayLock, may]),
      rangeLock_forbidden _ named (by rw [take_mayLock, may]), reply_take, reply_take]
    exact ⟨rfl, rfl⟩
  · rw [exec_rangeUnlock_permitted s tag takes named holder permits,
      unlockBy_take_refused s tag a u _ (unlockRefusal_lockdown s _ _ _ lockdown)]
    rfl
  · rw [exec_rangeUnlock_permitted s tag takes named holder permits,
      unlockBy_take_refused s tag a u _ (unlockRefusal_slotState s _ _ _ normal service)]
    rfl
  · rw [exec_rangeUnlock_permitted s tag takes named holder permits,
      unlockBy_take_refused s tag a u _ (unlockRefusal_keyUnavailable s _ _ _ normal service empty (wrapKey_eq_none s _ _ _ closed))]
    rfl
  · refine ⟨s.unlocked a.slot a.unwrap u, _, ?_, rfl, rfl, (unlocked_key s _ _ u).1, (unlocked_key s _ _ u).2⟩
    rw [exec_rangeUnlock_permitted s tag takes named holder permits, unlockBy_take s tag a u normal service key]
  · rw [exec_rangeLock_permitted s tag takes named holder permits, lockRange_take, if_pos refused]
  · refine ⟨s.locked u, _, ?_, rfl, rfl, ?_, (locked_key s u).2⟩
    · rw [exec_rangeLock_permitted s tag takes named holder permits, lockRange_take, if_neg (not_or.2 ⟨undefined, erasing⟩)]
    · rw [(locked_key s u).1, State.lockedKey, RangeFields.closedBy]
      simp only [Bool.and_eq_true, and_assoc]
      rfl

end Sys2Proof.Machine

namespace Sys2Proof.Machine

/-! ### The checks of RANGE-COMMIT (R18) -/

/-- The first of all ranges that a check concerns is the lowest. -/
theorem find_allRanges_iff (p : RangeId → Bool) (r : RangeId) : allRanges.find? p = some r ↔ lowestRange (fun q => p q = true) r := by
  have ordered : allRanges = List.ofFn (id : RangeId → RangeId) := by decide
  rw [ordered]
  exact List.find?_ofFn_eq_some_of_injective Function.injective_id

theorem find_allRanges_none_iff (p : RangeId → Bool) : allRanges.find? p = none ↔ ∀ r, p r ≠ true := by
  simp [List.find?_eq_none, allRanges_mem]

section Commit

variable (s : State)

theorem defined_iff (r : RangeId) : s.defined r = true ↔ r = 0 ∨ (s.range r).fields.length ≠ 0 := by simp [State.defined]

theorem stagedDefined_iff (r : RangeId) : s.stagedDefined r = true ↔ s.stagesRange r := by
  simp only [State.stagedDefined, decide_eq_true_eq]; rfl

theorem removes_iff (r : RangeId) : s.removes r = true ↔ s.defined r = true ∧ ¬ s.stagesRange r := by
  simp only [State.removes, decide_eq_true_eq, ← stagedDefined_iff, Bool.not_eq_true]

theorem receivesKey_iff (r : RangeId) : s.receivesKey r = true ↔ s.stagesFreshKey r := by
  have undefined : s.defined r = false ↔ r ≠ 0 ∧ (s.range r).fields.length = 0 := by
    rw [← Bool.not_eq_true, defined_iff]; tauto
  simp only [State.receivesKey, State.stagesFreshKey, decide_eq_true_eq, stagedDefined_iff, undefined]

theorem losesLocks_iff (r : RangeId) : s.losesLocks r = true ↔ s.stagesUnlocked r := by
  simp only [State.losesLocks, decide_eq_true_eq, stagedDefined_iff]; rfl

theorem differs_iff (r : RangeId) :
    s.differs r = true ↔ s.staging[r].fields ≠ (s.range r).fields ∨ s.staging[r].newKey = true := by
  simp only [State.differs, decide_eq_true_eq]; rfl

/-- Two ranges among 1 to 15 share an LBA exactly where each begins before the other ends (R18 check 3). -/
theorem stagedShare_any_iff (r : RangeId) : allRanges.any (fun q => s.stagedShare r q) = true ↔ s.stagesOverlap r := by
  have share : ∀ q, s.stagedShare r q = true ↔ q ≠ r ∧ ∃ x, s.stagedOwns r x ∧ s.stagedOwns q x := by
    intro q
    simp only [State.stagedShare, decide_eq_true_eq, stagedDefined_iff, State.stagesRange, State.staged, State.stagedOwns]
    constructor
    · rintro ⟨r0, q0, ne, rlen, qlen, left, right⟩
      have := rlen.resolve_left r0
      have := qlen.resolve_left q0
      refine ⟨Ne.symm ne, max s.staging[r].fields.start s.staging[q].fields.start, ⟨r0, ?_, ?_⟩, q0, ?_, ?_⟩ <;> omega
    · rintro ⟨ne, x, ⟨r0, a, b⟩, q0, c, d⟩
      exact ⟨r0, q0, Ne.symm ne, .inr (by omega), .inr (by omega), by omega, by omega⟩
  simp only [List.any_eq_true, share, State.stagesOverlap, allRanges_mem, true_and, exists_and_left]

theorem withinCapacity_iff : s.withinCapacity = true ↔ ∀ r, ¬ s.stagesBeyond r := by
  have here : ∀ r : RangeId, (r = 0 ∨ s.stagedDefined r = false ∨ (s.staged r).start + (s.staged r).length ≤ s.profile.capacity) ↔
      ¬ s.stagesBeyond r := by
    intro r
    rw [← Bool.not_eq_true, stagedDefined_iff]
    simp only [State.stagesRange, State.stagesBeyond, State.staged, not_and, not_lt, not_or]
    tauto
  simp only [State.withinCapacity, List.all_eq_true, decide_eq_true_eq, here, allRanges_mem, true_implies]

theorem stagesErasing_iff (r : RangeId) : decide (s.differs r ∧ s.table[r].service = .erasing) = true ↔ s.stagesErasing r := by
  simp only [decide_eq_true_eq, differs_iff, State.stagesErasing, and_comm]

theorem stagesEmptySlot_iff (r : RangeId) :
    (s.stagedSlots r).any (fun i => (s.cred i).state = .empty) = true ↔ s.stagesEmptySlot r := by
  simp only [State.stagedSlots, State.staged, List.any_eq_true, List.mem_filter, decide_eq_true_eq, State.stagesEmptySlot,
    State.stagesSlot]

theorem addedSlots_ne_nil_iff (r : RangeId) : s.addedSlots r ≠ [] ↔ s.stagesGrowth r := by
  have stays : s.removes r = false ↔ s.stagesRange r ∨ (s.range r).fields.length = 0 := by
    rw [← Bool.not_eq_true, removes_iff, defined_iff]
    by_cases zero : r = 0
    · simp [zero, State.stagesRange]
    · simp only [zero, false_or]; tauto
  unfold State.addedSlots State.newAccess State.stagesGrowth State.stagesSlot
  rw [← stays]
  cases s.removes r
  · simp [List.filter_eq_nil_iff, State.staged]
  · simp

theorem stagesWithoutKey_iff (r : RangeId) :
    decide (s.receivesKey r = false ∧ (s.addedSlots r ≠ [] ∨ s.losesLocks r) ∧ (s.key (.range r)).inHand = false) = true ↔
      s.stagesWithoutKey r := by
  have empty : (s.key (.range r)).inHand = false ↔ (s.key (.range r)).state = .empty := by simp [KeyEntry.inHand]
  simp only [decide_eq_true_eq, ← Bool.not_eq_true (s.receivesKey r), receivesKey_iff, addedSlots_ne_nil_iff, losesLocks_iff, empty,
    State.stagesWithoutKey]

/-! #### The first failing check, check by check -/

/-- A check that concerns ranges, as its first range is searched and as its condition is stated. -/
theorem find_iff_lowest {p : RangeId → Bool} {q : RangeId → Prop} (h : ∀ r, p r = true ↔ q r) :
    (∀ r, lowestRange q r → allRanges.find? p = some r) ∧ ((∀ r, ¬ q r) → allRanges.find? p = none) := by
  refine ⟨fun r low => (find_allRanges_iff p r).2 ?_, fun none => (find_allRanges_none_iff p).2 fun r e => none r ((h r).1 e)⟩
  exact ⟨(h r).2 low.1, fun t lt e => low.2 t lt ((h t).1 e)⟩

theorem overlapping_spec : (∀ r, lowestRange s.stagesOverlap r → s.overlapping = some r) ∧
    ((∀ r, ¬ s.stagesOverlap r) → s.overlapping = none) := find_iff_lowest (stagedShare_any_iff s)
theorem differsErasing_spec : (∀ r, lowestRange s.stagesErasing r → s.differsErasing = some r) ∧
    ((∀ r, ¬ s.stagesErasing r) → s.differsErasing = none) := find_iff_lowest (stagesErasing_iff s)
theorem addsEmptySlot_spec : (∀ r, lowestRange s.stagesEmptySlot r → s.addsEmptySlot = some r) ∧
    ((∀ r, ¬ s.stagesEmptySlot r) → s.addsEmptySlot = none) := find_iff_lowest (stagesEmptySlot_iff s)
theorem lacksKey_spec : (∀ r, lowestRange s.stagesWithoutKey r → s.lacksKey = some r) ∧
    ((∀ r, ¬ s.stagesWithoutKey r) → s.lacksKey = none) := find_iff_lowest (stagesWithoutKey_iff s)

/-- The refusals of RANGE-COMMIT, check by check (R18). -/
theorem commitRefusal_spec :
    (s.trigger.working.device = .lockdown → s.commitRefusal = some (.lockdown, .none)) ∧
    (s.trigger.working.device = .normal →
      (∀ r, lowestRange s.stagesOverlap r → s.commitRefusal = some (.overlap, .range (some r))) ∧
      ((∀ r, ¬ s.stagesOverlap r) →
        ((∃ r, s.stagesBeyond r) → s.commitRefusal = some (.outOfRange, .none)) ∧
        ((∀ r, ¬ s.stagesBeyond r) →
          (∀ r, lowestRange s.stagesErasing r → s.commitRefusal = some (.slotState, .range (some r))) ∧
          ((∀ r, ¬ s.stagesErasing r) →
            (∀ r, lowestRange s.stagesEmptySlot r → s.commitRefusal = some (.slotState, .range (some r))) ∧
            ((∀ r, ¬ s.stagesEmptySlot r) →
              (∀ r, lowestRange s.stagesWithoutKey r → s.commitRefusal = some (.keyUnavailable, .range (some r))) ∧
              ((∀ r, ¬ s.stagesWithoutKey r) →
                (8 < s.commitSize → s.commitRefusal = some (.outOfRange, .none)) ∧ (s.commitSize ≤ 8 → s.commitRefusal = none))))))) := by
  refine ⟨fun lockdown => by simp [State.commitRefusal, State.inLockdown, lockdown], fun normal => ?_⟩
  have device : s.inLockdown = false := by simp [State.inLockdown, normal]
  refine ⟨fun r low => ?_, fun overlap => ⟨fun beyond => ?_, fun within => ⟨fun r low => ?_, fun erasing => ⟨fun r low => ?_, fun slots =>
    ⟨fun r low => ?_, fun keys => ⟨fun large => ?_, fun small => ?_⟩⟩⟩⟩⟩⟩ <;> unfold State.commitRefusal <;> rw [device]
  · simp [(overlapping_spec s).1 r low]
  all_goals rw [(overlapping_spec s).2 overlap]
  · obtain ⟨r, beyond⟩ := beyond
    have outside : s.withinCapacity = false := by
      rw [← Bool.not_eq_true, withinCapacity_iff]
      exact fun h => h r beyond
    simp [outside]
  all_goals rw [(withinCapacity_iff s).2 within]
  · simp [(differsErasing_spec s).1 r low]
  all_goals rw [(differsErasing_spec s).2 erasing]
  · simp [(addsEmptySlot_spec s).1 r low]
  all_goals rw [(addsEmptySlot_spec s).2 slots]
  · simp [(lacksKey_spec s).1 r low]
  all_goals rw [(lacksKey_spec s).2 keys]
  · simp [Config.groupMax, large]
  · simp [Config.groupMax, Nat.not_lt.2 small]

/-- The group of a RANGE-COMMIT holds as many records as check 8 counts (R21). -/
theorem commitRecords_length (c : Commit) : (s.commitRecords c).length = s.commitSize := by
  simp only [State.commitRecords, State.commitSize, List.length_cons, List.length_append, List.length_map]
  omega

/-! ### The start of the drain wait (R18, R19) -/

@[simp] theorem take_commitRefusal (kind : Nat) (tag : Byte) : (s.take kind tag).commitRefusal = s.commitRefusal := by
  have device : (s.take kind tag).inLockdown = s.inLockdown := by simp [State.inLockdown]
  rw [State.commitRefusal, device, take_eq]
  rfl
@[simp] theorem take_differs (kind : Nat) (tag : Byte) : (s.take kind tag).differs = s.differs := by
  rw [take_eq]; rfl

theorem exec_rangeCommit (tag : Byte) (takes : s.takesRequest) (admin : s.admin = true) :
    exec (.rangeCommit tag (.fits ())) s = .next (settle ((s.take 10 tag).rangeCommit ())) := by
  show Host.Outcome.next (s.whilePowered fun s => s.request 10 tag (.fits ()) (adminOnly State.rangeCommit)) = _
  rw [exec_admin s 10 tag () _ takes admin]

theorem rangeCommit_take_refused (tag : Byte) (code : Code) (payload : Payload) (h : s.commitRefusal = some (code, payload)) :
    (s.take 10 tag).rangeCommit () = s.answered 10 tag code payload := by
  simp only [State.rangeCommit, take_commitRefusal, h, reply_take]

theorem rangeCommit_take_passes (tag : Byte) (h : s.commitRefusal = none) :
    (s.take 10 tag).rangeCommit () = if allRanges.any s.differs then (s.take 10 tag).startCommit
      else s.answered 10 tag .ok (.generation s.tableGeneration) := by
  simp only [State.rangeCommit, take_commitRefusal, h, take_differs, take_tableGeneration, reply_take]

/-- The range keys that the checks find in hand are those the Key Cache holds (R18 check 7). -/
theorem mem_rangeKeys_iff (r : RangeId) (key : Key) : (r, key) ∈ s.rangeKeys ↔ (s.key (.range r)).material = some key := by
  simp [State.rangeKeys, List.mem_filterMap, allRanges_mem]

/-- An affected range that is ACTIVE or UNDEFINED goes to UPDATING (R19). -/
def RangeView.startUpdating (v : RangeView) : RangeView :=
  if v.live.service = .active ∨ v.live.service = .undefined then { v with live := { v.live with service := .updating } } else v

def State.startUpdating (r : RangeId) (s : State) : State :=
  if s.table[r].service = .active ∨ s.table[r].service = .undefined then s.modRange r (fun e => { e with service := .updating }) else s

theorem visits_startUpdating : Visits id State.startUpdating (fun _ _ v => v.startUpdating) where
  frame r s := by unfold State.startUpdating; split <;> rfl
  here r s := by
    unfold State.startUpdating
    by_cases h : s.table[r].service = .active ∨ s.table[r].service = .undefined
    · rw [if_pos h, id, view_modRange, if_pos rfl]
      exact (if_pos h).symm
    · rw [if_neg h]
      exact (if_neg h).symm
  there r s q e := by
    unfold State.startUpdating
    split
    · exact (view_modRange s r q _).trans (if_neg e)
    · rfl

/-- What a RANGE-COMMIT keeps of its checks while it executes (R19). -/
def State.newCommit (s : State) : Commit :=
  { affected := (allRanges.filter s.affects).map (fun r => (r, s.table[r].service)), held := [], keys := s.rangeKeys, newKeys := []
    drainSince := s.clock }

theorem startCommit_eq : s.startCommit =
    (forEach (allRanges.filter s.affects) State.startUpdating s).startJob (.commit s.newCommit) .working := rfl

/-- The start of a drain wait changes the range entries and the executor alone. -/
theorem startCommit_frame : s.startCommit = { s with table := s.startCommit.table, executor := s.startCommit.executor } := by
  have step (r : RangeId) (u : State) : ({ State.startUpdating r u with table := s.table } : State) = { u with table := s.table } := by
    unfold State.startUpdating; split <;> rfl
  have frame := forEach_keeps (fun u : State => ({ u with table := s.table } : State)) State.startUpdating step
    (allRanges.filter s.affects) s
  have back := congrArg (fun u : State => ({ u with table := s.startCommit.table, executor := s.startCommit.executor } : State)) frame
  exact back

/-- What the start of a drain wait makes of each range entry (R19). -/
theorem startCommit_table (r : RangeId) : s.startCommit.table[r] =
    if s.affects r = true ∧ (s.table[r].service = .active ∨ s.table[r].service = .undefined)
      then { s.table[r] with service := .updating } else s.table[r] := by
  have nodup : ((allRanges.filter s.affects).map id).Nodup := by rw [List.map_id]; exact allRanges_nodup.filter _
  by_cases affected : s.affects r = true
  · have visited := visits_startUpdating.forEach_here (a := r) (allRanges.filter s.affects) s nodup (by simp [allRanges_mem, affected])
    refine (congrArg RangeView.live visited).trans ?_
    simp only [id, RangeView.startUpdating, affected, true_and, apply_ite RangeView.live]
    rfl
  · have missed := visits_startUpdating.forEach_there (r := r) (allRanges.filter s.affects) s (by simp [affected])
    rw [if_neg (by simp [affected])]
    exact congrArg RangeView.live missed

theorem mem_newCommit_affected_iff (r : RangeId) (service : Service) :
    (r, service) ∈ s.newCommit.affected ↔ s.affects r = true ∧ service = s.table[r].service := by
  simp only [State.newCommit, List.mem_map, List.mem_filter, allRanges_mem, true_and, Prod.mk.injEq]
  constructor
  · rintro ⟨q, affected, rfl, rfl⟩
    exact ⟨affected, rfl⟩
  · rintro ⟨affected, rfl⟩
    exact ⟨r, affected, rfl, rfl⟩

theorem newCommit_take (kind : Nat) (tag : Byte) : (s.take kind tag).newCommit = s.newCommit := by
  rw [take_eq]; rfl

theorem affects_take (kind : Nat) (tag : Byte) : (s.take kind tag).affects = s.affects := by
  rw [take_eq]; rfl

/-- A RANGE-COMMIT differs from nothing, or some range differs (R18). -/
theorem any_differs_iff : allRanges.any s.differs = true ↔
    ∃ r, s.staging[r].fields ≠ (s.range r).fields ∨ s.staging[r].newKey = true := by
  simp only [List.any_eq_true, differs_iff, allRanges_mem, true_and]

end Commit

/-- Settles O55: the refusals check by check, and the start of the drain wait part by part. -/
theorem commitStartsDrainWait : Obligations.CommitStartsDrainWait := by
  intro s tag takes admin
  have refused (code : Code) (payload : Payload) (h : s.commitRefusal = some (code, payload)) :
      exec (.rangeCommit tag (.fits ())) s = .next (settle (s.answered 10 tag code payload)) := by
    rw [exec_rangeCommit s tag takes admin, rangeCommit_take_refused s tag code payload h]
  refine ⟨?_, commitRecords_length s, fun passes => ⟨fun same => ?_, fun differs => ?_⟩⟩
  · obtain ⟨lockdown, normal⟩ := commitRefusal_spec s
    refine ⟨fun h => refused _ _ (lockdown h), fun h => ?_⟩
    obtain ⟨overlap, h⟩ := normal h
    refine ⟨fun r low => refused _ _ (overlap r low), fun none => ?_⟩
    obtain ⟨beyond, h⟩ := h none
    refine ⟨fun out => refused _ _ (beyond out), fun none => ?_⟩
    obtain ⟨erasing, h⟩ := h none
    refine ⟨fun r low => refused _ _ (erasing r low), fun none => ?_⟩
    obtain ⟨empty, h⟩ := h none
    refine ⟨fun r low => refused _ _ (empty r low), fun none => ?_⟩
    obtain ⟨key, h⟩ := h none
    refine ⟨fun r low => refused _ _ (key r low), fun none => ?_⟩
    obtain ⟨large, small⟩ := h none
    exact ⟨fun size => refused _ _ (large size), small⟩
  · have quiet : allRanges.any s.differs = false := by
      rw [← Bool.not_eq_true, any_differs_iff]
      rintro ⟨r, differs | mark⟩
      · exact differs (same r).1
      · exact absurd mark (by rw [(same r).2]; decide)
    rw [exec_rangeCommit s tag takes admin, rangeCommit_take_passes s tag passes, quiet, if_neg (by decide)]
  · have starts : (s.take 10 tag).rangeCommit () = (s.take 10 tag).startCommit := by
      rw [rangeCommit_take_passes s tag passes, if_pos ((any_differs_iff s).2 differs)]
    have table (r : RangeId) := startCommit_table (s.take 10 tag) r
    simp only [take_table, affects_take] at table
    refine ⟨(s.take 10 tag).startCommit, s.newCommit, by rw [exec_rangeCommit s tag takes admin, starts], ?_, ?_, rfl, rfl, rfl,
      mem_rangeKeys_iff s, fun r affected => ⟨(mem_newCommit_affected_iff s r _).2 ⟨affected, rfl⟩, ?_⟩, fun r unaffected => ⟨?_, ?_⟩⟩
    · refine (startCommit_frame (s.take 10 tag)).trans ?_
      generalize (s.take 10 tag).startCommit = y
      rw [take_eq]
    · rw [startCommit_eq, newCommit_take]
      have executor := forEach_keeps State.executor State.startUpdating
        (fun r u => by unfold State.startUpdating; split <;> rfl) (allRanges.filter (s.take 10 tag).affects) (s.take 10 tag)
      rw [State.startJob, executor, take_executor]
    · rw [table]
      simp only [affected, true_and]
    · intro m
      obtain ⟨p, named, rfl⟩ := List.mem_map.1 m
      exact absurd ((mem_newCommit_affected_iff s p.1 p.2).1 named).1 (by simp [unaffected])
    · rw [table, if_neg (by simp [unaffected])]

end Sys2Proof.Machine

namespace Sys2Proof

/-! ### Numbers in bytes, read and written back (10.5) -/

/-- The low bytes of a number do not depend on what lies above them. -/
theorem bytesOf_add_mul (k m n : Nat) : bytesOf k (m * 256 ^ k + n) = bytesOf k n := by
  induction k generalizing m with
  | zero => rfl
  | succ k ih =>
    have positive : 0 < 256 ^ k := Nat.pow_pos (by decide)
    have split : m * 256 ^ (k + 1) + n = (m * 256) * 256 ^ k + n := by rw [pow_succ]; ring
    have high : (m * 256 ^ (k + 1) + n) / 256 ^ k = m * 256 + n / 256 ^ k := by
      rw [split, Nat.add_comm, Nat.add_mul_div_right _ _ positive, Nat.add_comm]
    have byte : BitVec.ofNat 8 (m * 256 + n / 256 ^ k) = BitVec.ofNat 8 (n / 256 ^ k) := by
      apply BitVec.eq_of_toNat_eq; simp only [BitVec.toNat_ofNat]; omega
    rw [bytesOf, bytesOf, high, byte, split, ih]

theorem bigEndian_cons (b : Byte) (l : List Byte) : bigEndian (b :: l) = b.toNat * 256 ^ l.length + bigEndian l := by
  simpa [bigEndian] using foldl_bigEndian l b.toNat

theorem bigEndian_lt (l : List Byte) : bigEndian l < 256 ^ l.length := by
  induction l with
  | nil => simp [bigEndian]
  | cons b l ih =>
    have byte : b.toNat + 1 ≤ 256 := b.isLt
    calc bigEndian (b :: l) = b.toNat * 256 ^ l.length + bigEndian l := bigEndian_cons b l
      _ < b.toNat * 256 ^ l.length + 256 ^ l.length := by omega
      _ = (b.toNat + 1) * 256 ^ l.length := by ring
      _ ≤ 256 * 256 ^ l.length := Nat.mul_le_mul_right _ byte
      _ = 256 ^ (b :: l).length := by rw [List.length_cons, pow_succ]; ring

/-- Bytes are the bytes of the number they spell. -/
theorem bytesOf_bigEndian (l : List Byte) : bytesOf l.length (bigEndian l) = l := by
  induction l with
  | nil => rfl
  | cons b l ih =>
    have positive : 0 < 256 ^ l.length := Nat.pow_pos (by decide)
    have high : (b.toNat * 256 ^ l.length + bigEndian l) / 256 ^ l.length = b.toNat := by
      rw [Nat.add_comm, Nat.add_mul_div_right _ _ positive, Nat.div_eq_of_lt (bigEndian_lt l), Nat.zero_add]
    rw [List.length_cons, bytesOf, bigEndian_cons, high, bytesOf_add_mul, ih]
    simp

theorem bigEndian_bytesOf_of_lt {k n : Nat} (h : n < 256 ^ k) : bigEndian (bytesOf k n) = n := by
  rw [bigEndian_bytesOf, Nat.mod_eq_of_lt h]

/-- A word written in its bytes is read back. -/
theorem ofNat_bytesOf {k : Nat} (x : BitVec (8 * k)) : BitVec.ofNat (8 * k) (bigEndian (bytesOf k x.toNat)) = x := by
  have small : x.toNat < 256 ^ k := by
    have := x.isLt
    rwa [Nat.pow_mul] at this
  rw [bigEndian_bytesOf_of_lt small, BitVec.ofNat_toNat, BitVec.setWidth_eq]

/-- Bytes are the bytes of the word they spell. -/
theorem bytesOf_ofNat (l : List Byte) : bytesOf l.length (BitVec.ofNat (8 * l.length) (bigEndian l)).toNat = l := by
  have word : (BitVec.ofNat (8 * l.length) (bigEndian l)).toNat = bigEndian l := by
    rw [BitVec.toNat_ofNat, Nat.pow_mul]
    exact Nat.mod_eq_of_lt (bigEndian_lt l)
  rw [word, bytesOf_bigEndian]

/-! ### The Transfer Port (R171) -/

/-- A message of the Transfer Port is read back from its bytes. -/
theorem decode_of_encodeTransferPort (c : Instr) (b : List Byte) (h : encodeTransferPort c = some b) : decodeTransferPort b = some c := by
  cases c with
  | admitRequest tag direction start count =>
    obtain rfl := Option.some.inj h
    have first := ofNat_bytesOf (k := 5) start
    have number := ofNat_bytesOf (k := 2) count
    show some (Instr.admitRequest tag direction (BitVec.ofNat 40 (bigEndian (bytesOf 5 start.toNat)))
      (BitVec.ofNat 16 (bigEndian (bytesOf 2 count.toNat)))) = _
    rw [first, number]
  | cancel tag => obtain rfl := Option.some.inj h; rfl
  | frontReset => obtain rfl := Option.some.inj h; rfl
  | _ => cases h

/-- A message whose kind is not listed is discarded. -/
theorem decodeTransferPort_foreign (k : Byte) (l : List Byte) (h : k.toNat = 0 ∨ 4 ≤ k.toNat) : decodeTransferPort (k :: l) = none := by
  obtain ⟨⟨n, small⟩⟩ := k
  rcases h with h | h
  · obtain rfl : n = 0 := h
    rfl
  · obtain ⟨m, rfl⟩ := Nat.exists_eq_add_of_le' (show 4 ≤ n from h)
    rfl

/-- An ADMIT message has ten bytes. -/
theorem decodeTransferPort_admit_misfit : ∀ l : List Byte, l.length ≠ 9 → decodeTransferPort (0x01#8 :: l) = none
  | [], _ => rfl
  | [_], _ => rfl
  | [_, _], _ => rfl
  | [_, _, _], _ => rfl
  | [_, _, _, _], _ => rfl
  | [_, _, _, _, _], _ => rfl
  | [_, _, _, _, _, _], _ => rfl
  | [_, _, _, _, _, _, _], _ => rfl
  | [_, _, _, _, _, _, _, _], _ => rfl
  | [_, _, _, _, _, _, _, _, _], h => absurd rfl h
  | _ :: _ :: _ :: _ :: _ :: _ :: _ :: _ :: _ :: _ :: _, _ => rfl

theorem encode_of_decode_admit (c : Instr) (l : List Byte) (h : decodeTransferPort (0x01#8 :: l) = some c) :
    encodeTransferPort c = some (0x01#8 :: l) := by
  by_cases length : l.length = 9
  · match l, length with
    | [tag, direction, l4, l3, l2, l1, l0, n1, n0], _ =>
      obtain rfl := Option.some.inj h
      have first : bytesOf 5 (BitVec.ofNat 40 (bigEndian [l4, l3, l2, l1, l0])).toNat = [l4, l3, l2, l1, l0] :=
        bytesOf_ofNat [l4, l3, l2, l1, l0]
      have number : bytesOf 2 (BitVec.ofNat 16 (bigEndian [n1, n0])).toNat = [n1, n0] :=
        bytesOf_ofNat [n1, n0]
      show some ([0x01#8, tag, direction] ++ bytesOf 5 (BitVec.ofNat 40 (bigEndian [l4, l3, l2, l1, l0])).toNat ++
        bytesOf 2 (BitVec.ofNat 16 (bigEndian [n1, n0])).toNat) = _
      rw [first, number]
      rfl
  · rw [decodeTransferPort_admit_misfit l length] at h
    cases h

/-- No other bytes are read as a message. -/
theorem encode_of_decodeTransferPort (c : Instr) (b : List Byte) (h : decodeTransferPort b = some c) : encodeTransferPort c = some b := by
  rcases b with - | ⟨k, l⟩
  · cases h
  by_cases foreign : k.toNat = 0 ∨ 4 ≤ k.toNat
  · rw [decodeTransferPort_foreign k l foreign] at h
    cases h
  have listed : k = 0x01#8 ∨ k = 0x02#8 ∨ k = 0x03#8 := by
    simp only [← BitVec.toNat_inj, BitVec.toNat_ofNat]; omega
  rcases listed with rfl | rfl | rfl
  · exact encode_of_decode_admit c l h
  · rcases l with - | ⟨tag, - | ⟨more, l⟩⟩
    · cases h
    · obtain rfl := Option.some.inj h; rfl
    · cases h
  · rcases l with - | ⟨more, l⟩
    · obtain rfl := Option.some.inj h; rfl
    · cases h

end Sys2Proof

namespace Sys2Proof.Machine

theorem admitted_bytes (tag : Byte) (n : Nat) (g : Count32) (h : n ≤ 32) : ∃ count generation,
    transferPortBytes (.admitted tag n g) = some (0x81 :: tag :: count :: generation) ∧ count.toNat = n ∧ generation.length = 4 ∧
      bigEndian generation = g.toNat := by
  refine ⟨BitVec.ofNat 8 n, bytesOf 4 g.toNat, rfl, ?_, bytesOf_length _ _, bigEndian_bytesOf_of_lt g.isLt⟩
  rw [BitVec.toNat_ofNat]; omega

theorem completion_bytes (tag : Tag) (final : TransferState) (reason : Option AbortReason) (lba : Option Nat) : ∃ present number,
    transferPortBytes (.completion tag final reason lba) =
      some (0x84 :: BitVec.ofNat 8 tag.val :: finalByte final :: abortByte reason :: present :: number) ∧ number.length = 5 ∧
    (lba = none → present = 0) ∧ (∀ x, lba = some x → present = 1 ∧ (x < 2 ^ 40 → bigEndian number = x)) := by
  refine ⟨_, bytesOf 5 (lba.getD Config.absentLba), rfl, bytesOf_length _ _, ?_, ?_⟩
  · rintro rfl; rfl
  · rintro x rfl
    exact ⟨rfl, fun h => bigEndian_bytesOf_of_lt (k := 5) h⟩

/-! ### Tether pages (R172) -/

theorem pageKindOf_byte (k : PageKind) : pageKindOf k.byte = some k := by cases k <;> rfl

/-- The flags of a page are read back from its flags byte. -/
theorem flags_read (p : TetherPage) :
    p.flags.getLsbD 0 = p.toggle ∧ p.flags.getLsbD 1 = p.more ∧ p.flags.getLsbD 2 = p.acknowledge ∧ p.flags >>> 3 = 0 := by
  unfold TetherPage.flags
  cases p.toggle <;> cases p.more <;> cases p.acknowledge <;> decide

/-- A page is read back from its bytes (R172). -/
theorem readPage_bytes (p : TetherPage) (h : p.index ≤ 2) : readPage p.bytes = .page p := by
  have index : (BitVec.ofNat 8 p.index).toNat = p.index := by rw [BitVec.toNat_ofNat]; omega
  obtain ⟨toggle, more, acknowledge, rest⟩ := flags_read p
  have kind : p.bytes.getD 0 0 = p.kind.byte := rfl
  have flags : p.bytes.getD 1 0 = p.flags := rfl
  have number : p.bytes.getD 2 0 = BitVec.ofNat 8 p.index := rfl
  unfold readPage
  rw [byteSum_page, if_neg (by decide), kind, flags, number, pageKindOf_byte]
  dsimp only
  rw [page_payload, index, toggle, more, acknowledge, rest, if_neg (by simpa using h)]

/-! ### Channel frames (R163, R171) -/

/-- A frame passes the frame checks and is read back. -/
theorem checkFrame_frameBytes (kind tag : Byte) (body : List Byte) (h : body.length ≤ 512) :
    checkFrame (frameBytes kind tag body) = .frame kind tag body := by
  let inner := kind :: tag :: body
  have whole : frameBytes kind tag body = 0xA7#8 :: (bytesOf 2 inner.length ++ (inner ++ bytesOf 2 (crc16 inner).toNat)) := by
    simp [frameBytes, inner]
  have count : (bytesOf 2 inner.length).length = 2 := bytesOf_length _ _
  have crc : (bytesOf 2 (crc16 inner).toNat).length = 2 := bytesOf_length _ _
  have size : inner.length = body.length + 2 := rfl
  have length : (frameBytes kind tag body).length = inner.length + 5 := by
    rw [whole]; simp only [List.length_cons, List.length_append, count, crc]; omega
  have number : bigEndian (((frameBytes kind tag body).drop 1).take 2) = inner.length := by
    rw [whole, List.drop_one, List.tail_cons, List.take_left' count]
    exact bigEndian_bytesOf_of_lt (by omega)
  have tail : (frameBytes kind tag body).drop 3 = inner ++ bytesOf 2 (crc16 inner).toNat := by
    rw [whole]; exact List.drop_left' count
  have parts : frameParts (frameBytes kind tag body) = (inner, bytesOf 2 (crc16 inner).toNat) := by
    have before : (inner ++ bytesOf 2 (crc16 inner).toNat).length - 2 = inner.length := by simp [crc]
    simp only [frameParts, tail, before, List.take_left, List.drop_left]
  have sum : bigEndian (bytesOf 2 (crc16 inner).toNat) = (crc16 inner).toNat := bigEndian_bytesOf_of_lt (k := 2) (crc16 inner).isLt
  have start : (frameBytes kind tag body).head? = some 0xA7#8 := by rw [whole]; rfl
  unfold checkFrame
  rw [if_neg (by omega), if_neg (by simp [start]), if_neg (by rw [number, length]; omega)]
  simp only [parts, sum, ne_eq, not_true_eq_false, if_false]
  rfl

/-- The command that a frame is (R163, R170). -/
theorem commandOfRecord_frameBytes (kind tag : Byte) (body : List Byte) (h : body.length ≤ 512) :
    commandOfRecord (frameBytes kind tag body) = (requestOf kind.toNat tag body).getD (.unknownKind (frameBytes kind tag body)) := by
  rw [commandOfRecord, checkFrame_frameBytes kind tag body h]

theorem credStateOf_kind (tag : Byte) (b : Body (Nat × Field CredStateAction)) :
    requestKind (credStateOf tag b) = some 14 ∧ requestTag (credStateOf tag b) = some tag := by
  unfold credStateOf; split <;> exact ⟨rfl, rfl⟩
theorem shadowLoadOf_kind (tag : Byte) (b : Body (Field ShadowLoadAction)) :
    requestKind (shadowLoadOf tag b) = some 16 ∧ requestTag (shadowLoadOf tag b) = some tag := by
  unfold shadowLoadOf; split <;> exact ⟨rfl, rfl⟩
theorem wipeTokenOf_kind (tag : Byte) (b : Body (Option (List Byte))) :
    requestKind (wipeTokenOf tag b) = some 22 ∧ requestTag (wipeTokenOf tag b) = some tag := by
  unfold wipeTokenOf; split <;> exact ⟨rfl, rfl⟩

/-- A frame of kind 1 to 24 is a request of that kind with that tag (R170). -/
theorem requestOf_kind (kind : Nat) (tag : Byte) (body : List Byte) (low : 1 ≤ kind) (high : kind ≤ 24) :
    ∃ c, requestOf kind tag body = some c ∧ requestKind c = some kind ∧ requestTag c = some tag := by
  interval_cases kind
  iterate 13 exact ⟨_, rfl, rfl, rfl⟩
  · exact ⟨_, rfl, credStateOf_kind tag _⟩
  · exact ⟨_, rfl, rfl, rfl⟩
  · exact ⟨_, rfl, shadowLoadOf_kind tag _⟩
  iterate 5 exact ⟨_, rfl, rfl, rfl⟩
  · exact ⟨_, rfl, wipeTokenOf_kind tag _⟩
  iterate 2 exact ⟨_, rfl, rfl, rfl⟩

/-- A frame of another kind is no request (R163). -/
theorem requestOf_foreign (kind : Nat) (tag : Byte) (body : List Byte) (h : kind = 0 ∨ 24 < kind) : requestOf kind tag body = none := by
  rcases h with rfl | h
  · rfl
  · obtain ⟨n, rfl⟩ := Nat.exists_eq_add_of_le' (show 25 ≤ kind from h)
    rfl

theorem emptyBody_eq {body : List Byte} {form : Body Unit} (h : form = .fits () ↔ body = []) : emptyBody body = form := by
  unfold emptyBody
  split
  · next e => exact (h.2 e).symm
  · next e =>
    cases form with
    | fits u => exact absurd (h.1 rfl) e
    | misfit => rfl

end Sys2Proof.Machine

namespace Sys2Proof.Machine

/-! ### Bodies of requests (R162, R170) -/

theorem takeBytes_eq_some {n : Nat} {l a b : List Byte} (h : takeBytes n l = some (a, b)) : a.length = n := by
  unfold takeBytes at h
  split at h
  · cases h
  · cases h; rw [List.length_take]; omega

/-- A number that is read fits its bytes. -/
theorem readNumber_lt {kind place hi n : Nat} {l rest : List Byte} (h : readNumber kind place hi l = some (n, rest)) :
    n < 256 ^ fieldWidth kind place (hi + 1) := by
  obtain ⟨⟨a, b⟩, taken, e⟩ := Option.map_eq_some_iff.1 h
  cases e
  rw [← takeBytes_eq_some taken]
  exact bigEndian_lt a

/-- What holds of every field that is read holds of an optional one that is present. -/
theorem readOptional_of {α : Type} {r : Reader α} {p : α → Prop} (field : ∀ l a rest, r l = some (a, rest) → p a) {l rest : List Byte}
    {o : Option α} (h : readOptional r l = some (o, rest)) : ∀ a, o = some a → p a := by
  rintro a rfl
  rcases l with - | ⟨mark, l⟩
  · cases h
  · by_cases absent : mark = 0
    · subst absent
      cases (show some (none, l) = some (some a, rest) from h)
    · rw [readOptional_present r mark l absent] at h
      obtain ⟨⟨b, more⟩, found, e⟩ := Option.map_eq_some_iff.1 h
      cases e
      exact field l _ _ found

theorem readBody_eq_fits {α : Type} {r : Reader α} {body : List Byte} {a : α} (h : readBody r body = .fits a) : r body = some (a, []) := by
  unfold readBody at h
  split at h
  · next e => cases h; exact e
  · cases h

/-- A start or a length of a RANGE-STAGE takes 6 bytes (R15, log 14). -/
theorem place_width (kind place hi : Nat) (h : hi = 2 ^ 40 - 1 ∨ hi = 2 ^ 40) : fieldWidth kind place (hi + 1) = 6 := by
  have least : leastWidth (hi + 1) = 6 := by rcases h with rfl | rfl <;> decide +kernel
  have := fieldWidth_range kind place (hi + 1)
  omega

theorem readStage_places {kind : Nat} {l rest : List Byte} {x : StageArgs} (h : readStage kind l = some (x, rest)) :
    (∀ n, x.start = some n → n < 2 ^ 48) ∧ ∀ n, x.length = some n → n < 2 ^ 48 := by
  simp only [readStage, Option.bind_eq_bind, Option.bind_eq_some_iff, Prod.exists, Option.pure_def, Option.some.injEq, Prod.mk.injEq] at h
  obtain ⟨range, l0, -, start, l1, hstart, length, l2, hlength, -, -, -, -, -, -, -, -, -, -, -, -, -, -, -, -, -, -, -, -, -, -, -, -, rfl, -⟩ := h
  have place (place hi : Nat) (e : hi = 2 ^ 40 - 1 ∨ hi = 2 ^ 40) (l : List Byte) (n : Nat) (rest : List Byte)
      (h : readNumber kind place hi l = some (n, rest)) : n < 2 ^ 48 := by
    have := readNumber_lt h
    rwa [place_width kind place hi e] at this
  exact ⟨readOptional_of (place 1 _ (.inl rfl)) hstart, readOptional_of (place 2 _ (.inr rfl)) hlength⟩

/-- The kind of the request that a record is (R163, R170). -/
theorem commandOfRecord_cases (record : List Byte) :
    commandOfRecord record = .badFrame record ∨ commandOfRecord record = .unknownKind record ∨
      ∃ kind tag body c, requestOf kind tag body = some c ∧ commandOfRecord record = c ∧ requestKind c = some kind := by
  unfold commandOfRecord
  split
  · exact .inl rfl
  · next kind tag body _ =>
    by_cases known : 1 ≤ kind.toNat ∧ kind.toNat ≤ 24
    · obtain ⟨c, request, number, -⟩ := requestOf_kind kind.toNat tag body known.1 known.2
      exact .inr (.inr ⟨_, _, _, c, request, by rw [request]; rfl, number⟩)
    · exact .inr (.inl (by rw [requestOf_foreign _ _ _ (by omega)]; rfl))

/-- A RANGE-STAGE that a record carries has a start and a length of at most 6 bytes (R15). -/
theorem rangeStage_places (record : List Byte) (tag : Byte) (x : StageArgs) (h : commandOfRecord record = .rangeStage tag (.fits x)) :
    (∀ n, x.start = some n → n < 2 ^ 48) ∧ ∀ n, x.length = some n → n < 2 ^ 48 := by
  rcases commandOfRecord_cases record with e | e | ⟨kind, tag', body, c, request, e, number⟩
  · rw [e] at h; cases h
  · rw [e] at h; cases h
  · rw [e] at h
    subst h
    obtain rfl : kind = 8 := (Option.some.inj number).symm
    have read := Option.some.inj request
    injection read with _ fits
    exact readStage_places (readBody_eq_fits fits)

theorem eventsEnable_read (tag : Byte) (codes : List Nat) (length : codes.length ≤ 14) (small : ∀ n ∈ codes, n < 256) :
    commandOfRecord (frameBytes 2 tag (listBytes 2 0 15 (numberBytes 2 1 15) codes)) = .eventsEnable tag (.fits codes) := by
  have size := listBytes_length 2 0 15 (numberBytes 2 1 15) 4 14 (by decide) (fun n => numberBytes_small 2 1 15 n (by decide)) codes length
  have read := readList_listBytes 2 0 14 (readNumber 2 1 14) (numberBytes 2 1 15) codes [] (lt_width_byte _ _ _ _ (by omega))
    (fun n m rest => readNumber_numberBytes 2 1 14 n rest (lt_width_byte _ _ _ _ (small n m)))
  rw [List.append_nil] at read
  rw [commandOfRecord_frameBytes _ _ _ (by omega)]
  show Instr.eventsEnable tag (readBody (readEvents 2) (listBytes 2 0 15 (numberBytes 2 1 15) codes)) = _
  rw [readBody, readEvents, read]

theorem numberBytes_read (kind place top n : Nat) (h : n ≤ top) :
    (numberBytes kind place top n).length = fieldWidth kind place top ∧ bigEndian (numberBytes kind place top n) = n :=
  ⟨numberBytes_length kind place top n, bigEndian_bytesOf_of_lt (lt_width kind place n top h)⟩

/-- SHADOW-CONFIG's optional fields behind their marks, and a body with a byte left over (R162, R166). -/
theorem shadowConfig_read (tag mark extra : Byte) (n : Nat) (present : mark ≠ 0) (fits : n < 256 ^ fieldWidth 15 1 65537) :
    commandOfRecord (frameBytes 15 tag [0, 0]) = .shadowConfig tag (.fits { enabled := none, size := none }) ∧
    commandOfRecord (frameBytes 15 tag (0 :: mark :: numberBytes 15 1 65537 n)) =
      .shadowConfig tag (.fits { enabled := none, size := some n }) ∧
    commandOfRecord (frameBytes 15 tag (0 :: mark :: (numberBytes 15 1 65537 n ++ [extra]))) = .shadowConfig tag .misfit := by
  have size := numberBytes_small 15 1 65537 n (by decide)
  have read (rest : List Byte) : readShadow 15 (0 :: mark :: (numberBytes 15 1 65537 n ++ rest)) =
      some ({ enabled := none, size := some n }, rest) := by
    have number := readNumber_numberBytes 15 1 65536 n rest fits
    have absent (l : List Byte) : readOptional (readForm (α := Bool) 15 0) (0 :: l) = some (none, l) := rfl
    simp only [readShadow, Config.shadowMax, absent, Option.bind_eq_bind, Option.bind_some, readOptional_present _ mark _ present,
      number, Option.map_some, Option.pure_def]
  have whole := read []
  rw [List.append_nil] at whole
  refine ⟨?_, ?_, ?_⟩
  · rw [commandOfRecord_frameBytes _ _ _ (by decide)]; rfl
  · rw [commandOfRecord_frameBytes _ _ _ (by simp only [List.length_cons]; omega)]
    show Instr.shadowConfig tag (readBody (readShadow 15) _) = _
    rw [readBody, whole]
  · rw [commandOfRecord_frameBytes _ _ _ (by simp only [List.length_cons, List.length_append, List.length_nil]; omega)]
    show Instr.shadowConfig tag (readBody (readShadow 15) _) = _
    rw [readBody, read]

/-! ### Replies (R162, R168) -/

/-- RANGE-READ's reply returns a staged start and length of 6 bytes whole (R17). -/
theorem rangeReadBytes_places (kind : Nat) (r : RangeReadReport) (number : r.number ≠ 0) (hstart : r.staged.fields.start < 2 ^ 48)
    (hlength : r.staged.fields.length < 2 ^ 48) :
    ∃ start length rest, rangeReadBytes kind r =
        committedBytes kind r ++ (presentMark :: (start ++ (presentMark :: (length ++ rest)))) ∧ presentMark ≠ 0 ∧
      start.length = 6 ∧ bigEndian start = r.staged.fields.start ∧ length.length = 6 ∧ bigEndian length = r.staged.fields.length := by
  have width (place : Nat) : fieldWidth kind place Config.stagedMax = 6 := by
    have least : leastWidth Config.stagedMax = 6 := by decide +kernel
    have := fieldWidth_range kind place Config.stagedMax
    omega
  have top : Config.stagedMax + 1 = 2 ^ 48 := rfl
  obtain ⟨startLength, startValue⟩ := numberBytes_read kind 16 Config.stagedMax r.staged.fields.start (by omega)
  obtain ⟨lengthLength, lengthValue⟩ := numberBytes_read kind 17 Config.stagedMax r.staged.fields.length (by omega)
  have layout : ∃ rest, rangeReadBytes kind r = committedBytes kind r ++
      (presentMark :: (numberBytes kind 16 Config.stagedMax r.staged.fields.start ++
        (presentMark :: (numberBytes kind 17 Config.stagedMax r.staged.fields.length ++ rest)))) := by
    simp only [rangeReadBytes, stagedBytes, number, if_false, optionalBytes, List.append_assoc, List.cons_append]
    exact ⟨_, rfl⟩
  obtain ⟨rest, layout⟩ := layout
  exact ⟨_, _, rest, layout, presentMark_ne_zero, startLength.trans (width 16), startValue, lengthLength.trans (width 17), lengthValue⟩

theorem eventOfCode_code (k : EventKind) : eventOfCode k.code = some k := by cases k <;> decide

theorem commandOfRecord_malformed (record : List Byte) (h : checkFrame record = .malformed) : commandOfRecord record = .badFrame record := by
  rw [commandOfRecord, h]

/-- Settles O8, layout by layout: messages, pages, frames and their kinds, fields of requests, fields of replies. -/
theorem portLayoutsAreExact : Obligations.PortLayoutsAreExact := by
  refine ⟨decode_of_encodeTransferPort, encode_of_decodeTransferPort, admitted_bytes, ⟨fun _ _ _ => rfl, by decide, ?_, rfl, rfl⟩,
    fun _ => ⟨rfl, rfl⟩, ⟨completion_bytes, by decide, by decide⟩, fun p h => ⟨page_length p, readPage_bytes p h⟩,
    fun kind tag body h => ⟨checkFrame_frameBytes kind tag body h, fun low high => ?_, fun foreign => ?_, fun form empty => ?_⟩,
    eventsEnable_read, numberBytes_read, shadowConfig_read, commandOfRecord_malformed, fun _ _ _ => ⟨rfl, rfl, rfl⟩,
    fun r bounded => ?_, rangeStage_places, rangeReadBytes_places, ⟨by decide, eventOfCode_code, fun tag pending => ?_⟩⟩
  · intro r
    have := r.isLt
    show (BitVec.ofNat 8 r.val).toNat = r.val
    rw [BitVec.toNat_ofNat]; omega
  · obtain ⟨c, request, number, tagged⟩ := requestOf_kind kind.toNat tag body low high
    rw [commandOfRecord_frameBytes kind tag body h, request]
    exact ⟨number, tagged⟩
  · rw [commandOfRecord_frameBytes kind tag body h, requestOf_foreign _ _ _ foreign]; rfl
  · have read := emptyBody_eq empty
    have frame (k : Byte) := commandOfRecord_frameBytes k tag body h
    simp only [frame]
    subst read
    exact ⟨rfl, rfl, rfl, rfl, rfl, rfl, rfl, rfl⟩
  · have size := payloadBytes_length r.kind.toNat r.code r.payload bounded
    have short : (r.code.byte :: payloadBytes r.kind.toNat r.code r.payload).length ≤ 512 := by
      rw [List.length_cons]; omega
    exact ⟨short, checkFrame_frameBytes _ _ _ short⟩
  · rw [← List.flatMap_def]; rfl

end Sys2Proof.Machine

namespace Sys2Proof.Machine

/-! ### The close of a group, cell by cell (R77) -/

/-- A fold over different cells changes what is read of a cell once, where that cell is among them. -/
theorem foldl_reads {γ : Type} {read : Store → γ} {f : γ → γ} {step : Store → Cell → Store} {c : Cell}
    (here : ∀ st, read (step st c) = f (read st)) (there : ∀ st d, d ≠ c → read (step st d) = read st) {l : List Cell} (nodup : l.Nodup)
    (st : Store) : read (l.foldl step st) = if c ∈ l then f (read st) else read st := by
  induction l generalizing st with
  | nil => simp
  | cons d l ih =>
    obtain ⟨new, nodup⟩ := List.nodup_cons.1 nodup
    rw [List.foldl_cons, ih nodup]
    by_cases e : d = c
    · subst e; simp [new, here]
    · simp [there st d e, Ne.symm e]

section Close

variable (st : Store)

theorem beginNext_cells : st.beginNext.ranges = st.ranges ∧ st.beginNext.creds = st.creds := by
  unfold Store.beginNext; split <;> exact ⟨rfl, rfl⟩

theorem releaseHeld_cells (who : Submitter) : (st.releaseHeld who).ranges = st.ranges ∧ (st.releaseHeld who).creds = st.creds := by
  unfold Store.releaseHeld; split <;> exact ⟨rfl, rfl⟩

/-- The close of a group makes the targets of its range cells effective (R75). -/
theorem close_ranges (w : Writing) (nodup : w.group.cells.Nodup) (r : RangeId) :
    (st.close w).ranges[r] = if .range r ∈ w.group.cells then st.ranges[r].takeTarget else st.ranges[r] := by
  have here (st : Store) : (st.mapCell CellPair.takeTarget (.range r)).ranges[r] = st.ranges[r].takeTarget := by
    simp [Store.mapCell]
  have there (st : Store) (d : Cell) (h : d ≠ .range r) : (st.mapCell CellPair.takeTarget d).ranges[r] = st.ranges[r] := by
    cases d with
    | range q =>
      have : q.val ≠ r.val := fun e => h (congrArg Cell.range (Fin.ext e))
      simp [Store.mapCell, this]
    | _ => rfl
  unfold Store.close
  rw [(beginNext_cells _).1, (releaseHeld_cells _ _).1]
  exact foldl_reads (read := fun st => st.ranges[r]) here there nodup _

/-- The close of a group makes the targets of its credential cells effective (R75). -/
theorem close_creds (w : Writing) (nodup : w.group.cells.Nodup) (i : SlotId) :
    (st.close w).creds[i] = if .cred i ∈ w.group.cells then st.creds[i].takeTarget else st.creds[i] := by
  have here (st : Store) : (st.mapCell CellPair.takeTarget (.cred i)).creds[i] = st.creds[i].takeTarget := by
    simp [Store.mapCell]
  have there (st : Store) (d : Cell) (h : d ≠ .cred i) : (st.mapCell CellPair.takeTarget d).creds[i] = st.creds[i] := by
    cases d with
    | cred q =>
      have : q.val ≠ i.val := fun e => h (congrArg Cell.cred (Fin.ext e))
      simp [Store.mapCell, this]
    | _ => rfl
  unfold Store.close
  rw [(beginNext_cells _).2, (releaseHeld_cells _ _).2]
  exact foldl_reads (read := fun st => st.creds[i]) here there nodup _

end Close

theorem range_mem_cells {g : Group} {r : RangeId} : .range r ∈ g.cells ↔ ∃ x, Record.range r x ∈ g.records := by
  simp only [Group.cells, List.mem_map]
  constructor
  · rintro ⟨q, m, e⟩
    cases q <;> cases e
    exact ⟨_, m⟩
  · rintro ⟨x, m⟩
    exact ⟨_, m, rfl⟩

theorem cred_mem_cells {g : Group} {i : SlotId} : .cred i ∈ g.cells ↔ ∃ x, Record.cred i x ∈ g.records := by
  simp only [Group.cells, List.mem_map]
  constructor
  · rintro ⟨q, m, e⟩
    cases q <;> cases e
    exact ⟨_, m⟩
  · rintro ⟨x, m⟩
    exact ⟨_, m, rfl⟩

/-! ### The close of a RANGE-COMMIT's group (R21, R22) -/

theorem range_mem_commitRecords (s : State) (c : Commit) (r : RangeId) (x : RangeRecord) :
    Record.range r x ∈ s.commitRecords c ↔ (r = 0 ∨ s.rangeChanges r = true) ∧ x = s.commitRecord c r := by
  simp only [State.commitRecords, List.mem_cons, List.mem_append, List.mem_map, List.mem_filter, Record.range.injEq, decide_eq_true_eq,
    allRanges_mem, true_and, reduceCtorEq, and_false, exists_false, or_false]
  constructor
  · rintro (⟨rfl, rfl⟩ | ⟨q, ⟨-, changes⟩, rfl, rfl⟩)
    · exact ⟨.inl rfl, rfl⟩
    · exact ⟨.inr changes, rfl⟩
  · rintro ⟨changes, rfl⟩
    by_cases zero : r = 0
    · exact .inl ⟨zero, by rw [zero]⟩
    · exact .inr ⟨r, ⟨zero, changes.resolve_left zero⟩, rfl, rfl⟩

theorem cred_mem_commitRecords (s : State) (c : Commit) (i : SlotId) (x : CredRecord) :
    Record.cred i x ∈ s.commitRecords c ↔ s.slotChanges i = true ∧ x = s.commitCred c i := by
  simp only [State.commitRecords, List.mem_cons, List.mem_append, List.mem_map, List.mem_filter, Record.cred.injEq, allSlots_mem, true_and,
    reduceCtorEq, and_false, exists_false, false_or]
  exact ⟨fun ⟨_, changes, e, x⟩ => e ▸ ⟨changes, x.symm⟩, fun ⟨changes, x⟩ => ⟨i, changes, rfl, x.symm⟩⟩

theorem lockdown_notMem_commitRecords (s : State) (c : Commit) : Cell.lockdown ∉ (requestGroup (s.commitRecords c)).cells := by
  simp [Group.cells, requestGroup, State.commitRecords, Record.cell]

/-- `t` is `s` with the records of a RANGE-COMMIT in effect: the store and the pending events apart, nothing has changed yet. -/
structure CommitInEffect (c : Commit) (s t : State) : Prop where
  range : ∀ r, t.range r = if r = 0 ∨ s.rangeChanges r = true then s.commitRecord c r else s.range r
  cred : ∀ i, t.cred i = if s.slotChanges i = true then s.commitCred c i else s.cred i
  rest : t = { s with store := t.store, events := t.events }

/-- The close of the group takes its records into effect. -/
theorem commitInEffect_close {s t : State} {c : Commit} {w : Writing} (group : w.group = requestGroup (s.commitRecords c))
    (nodup : w.group.cells.Nodup) (target : ∀ r ∈ w.group.records, r.inTarget s.store) (store : t.store = s.store.close w)
    (rest : t = { s with store := t.store, events := t.events }) : CommitInEffect c s t where
  range r := by
    have member : Cell.range r ∈ w.group.cells ↔ r = 0 ∨ s.rangeChanges r = true := by
      rw [range_mem_cells, group]
      simp [requestGroup, range_mem_commitRecords]
    have read : t.range r = ((s.store.close w).ranges[r]).read (lostRange r) := by rw [State.range, store]
    rw [read, close_ranges _ _ nodup]
    by_cases changes : r = 0 ∨ s.rangeChanges r = true
    · have record := target (.range r (s.commitRecord c r)) (by rw [group]; exact (range_mem_commitRecords s c r _).2 ⟨changes, rfl⟩)
      rw [if_pos (member.2 changes), if_pos changes]
      exact record
    · rw [if_neg fun m => changes (member.1 m), if_neg changes]; rfl
  cred i := by
    have member : Cell.cred i ∈ w.group.cells ↔ s.slotChanges i = true := by
      rw [cred_mem_cells, group]
      simp [requestGroup, cred_mem_commitRecords]
    have read : t.cred i = ((s.store.close w).creds[i]).read emptySlot := by rw [State.cred, store]
    rw [read, close_creds _ _ nodup]
    by_cases changes : s.slotChanges i = true
    · have record := target (.cred i (s.commitCred c i)) (by rw [group]; exact (cred_mem_commitRecords s c i _).2 ⟨changes, rfl⟩)
      rw [if_pos (member.2 changes), if_pos changes]
      exact record
    · rw [if_neg fun m => changes (member.1 m), if_neg changes]; rfl
  rest := rest

/-- The close of a RANGE-COMMIT's group is its switch, from a state with its records in effect (R77, R22). -/
theorem groupClose_commit {s : State} {c : Commit} (scan : ScanFindings) (job : s.executor.job = .commit c)
    (ready : s.readyToClose (requestGroup (s.commitRecords c))) :
    ∃ t, exec (.groupClose scan) s = .next (settle (t.switch s c)) ∧ CommitInEffect c s t := by
  obtain ⟨powered, ⟨number, tries, writing⟩, nodup, target⟩ := ready
  let w : Writing := { group := requestGroup (s.commitRecords c), number := number, stage := .marker tries }
  have closing : s.store.closing = some w := by rw [Store.closing, writing]
  let closed : State := { s with store := s.store.close w }
  let stepped := if stepAdvanced s.plan closed.plan then closed.raise .wipeStepDone else closed
  have steppedEq : stepped.store = s.store.close w ∧ stepped = { s with store := stepped.store, events := stepped.events } := by
    unfold stepped; split <;> exact ⟨rfl, rfl⟩
  have closes : s.closeGroup w scan = stepped.switch s c := by
    have job' : stepped.executor.job = .commit c := by rw [steppedEq.2]; exact job
    have effect : stepped.requestClosed s = stepped.switch s c := by rw [State.requestClosed, job']
    exact (if_neg (lockdown_notMem_commitRecords s c)).trans effect
  refine ⟨stepped, ?_, commitInEffect_close rfl nodup target steppedEq.1 steppedEq.2⟩
  show Host.Outcome.next (s.whilePowered _) = _
  rw [whilePowered_on _ powered, closing]
  exact congrArg (fun u => Host.Outcome.next (settle u)) closes

end Sys2Proof.Machine

namespace Sys2Proof.Machine

/-! ### The committed table after the switch (R22, R14) -/

section Entries

variable {c : Commit} {s t : State}

theorem receivesKey_rangeChanges {r : RangeId} (h : s.receivesKey r = true) : s.rangeChanges r = true := by
  simp [State.rangeChanges, h]

theorem receivesKey_removes {r : RangeId} (h : s.receivesKey r = true) : s.removes r = false := by
  rw [← Bool.not_eq_true, removes_iff]
  exact fun removed => removed.2 ((receivesKey_iff s r).1 h).1

theorem losesLocks_rangeChanges {r : RangeId} (h : s.losesLocks r = true) : s.rangeChanges r = true := by
  obtain ⟨-, before, after⟩ := (losesLocks_iff s r).1 h
  have differ : s.staged r ≠ (s.range r).fields := fun e => by
    rw [State.staged] at e
    rw [e, before] at after
    cases after
  simp [State.rangeChanges, differ]

/-- A range that the switch leaves as it is stays defined, or undefined, without a new key. -/
theorem not_rangeChanges {r : RangeId} (h : ¬ s.rangeChanges r = true) :
    s.staged r = (s.range r).fields ∧ s.receivesKey r = false ∧ s.removes r = false := by
  simp only [State.rangeChanges, decide_eq_true_eq, not_or, not_not, Bool.not_eq_true] at h
  refine ⟨h.1, h.2, ?_⟩
  have same : s.staging[r].fields.length = (s.range r).fields.length := congrArg RangeFields.length h.1
  rw [← Bool.not_eq_true, removes_iff, defined_iff, State.stagesRange, same]
  tauto

theorem switched_of_removes {r : RangeId} (h : s.removes r = true) :
    s.switched c r = { s.range r with fields := defaultFields, tweakOrigin := 0, rootWrap := none } := if_pos h

theorem switched_of_receivesKey {r : RangeId} (h : s.receivesKey r = true) :
    s.switched c r = { s.range r with
      fields := s.staged r, tweakOrigin := s.originFor r (s.staged r), generation := (s.range r).generation + 1
      rootWrap := if (s.staged r).anyLock then none else some (c.newKey r) } := by
  simp only [State.switched, receivesKey_removes h, h, if_true, Bool.false_eq_true, if_false]

theorem switched_of_keeps {r : RangeId} (kept : s.removes r = false) (key : s.receivesKey r = false) :
    s.switched c r = { s.range r with fields := s.staged r, rootWrap := s.keptRootWrap c r } := by
  simp only [State.switched, kept, key, Bool.false_eq_true, if_false]

/-- The record of a range is its entry after the switch, range 0's with the table generation (R21). -/
theorem commitRecord_eq (r : RangeId) :
    s.commitRecord c r = { s.switched c r with tableGeneration := (s.commitRecord c r).tableGeneration } := by
  unfold State.commitRecord; dsimp only; split <;> rfl

theorem switched_fields (r : RangeId) : (s.switched c r).fields = if s.removes r = true then defaultFields else s.staging[r].fields := by
  unfold State.switched
  dsimp only
  split
  · rfl
  · split <;> rfl

theorem CommitInEffect.range_of_changes (h : CommitInEffect c s t) {r : RangeId} (changes : r = 0 ∨ s.rangeChanges r = true) :
    t.range r = { s.switched c r with tableGeneration := (s.commitRecord c r).tableGeneration } := by
  rw [h.range, if_pos changes, ← commitRecord_eq]

theorem CommitInEffect.tableGeneration (h : CommitInEffect c s t) : t.tableGeneration = s.tableGeneration + 1 := by
  rw [State.tableGeneration, h.range, if_pos (.inl rfl)]; rfl

theorem CommitInEffect.fields (h : CommitInEffect c s t) (r : RangeId) :
    (t.range r).fields = if s.removes r = true then defaultFields else s.staging[r].fields := by
  by_cases changes : r = 0 ∨ s.rangeChanges r = true
  · rw [h.range_of_changes changes]; exact switched_fields r
  · obtain ⟨same, -, kept⟩ := not_rangeChanges fun e => changes (.inr e)
    rw [h.range, if_neg changes, kept, if_neg Bool.false_ne_true]
    exact same.symm

theorem CommitInEffect.access (h : CommitInEffect c s t) (r : RangeId) : (t.range r).fields.access = s.newAccess r := by
  rw [h.fields, State.newAccess, State.staged]; split <;> rfl

theorem CommitInEffect.range_of_receivesKey (h : CommitInEffect c s t) {r : RangeId} (key : s.receivesKey r = true) :
    (t.range r).generation = (s.range r).generation + 1 ∧ (t.range r).tweakOrigin = s.originFor r (s.staged r) := by
  rw [h.range_of_changes (.inr (receivesKey_rangeChanges key)), switched_of_receivesKey key]
  exact ⟨rfl, rfl⟩

/-- A range that receives no key keeps its key generation, and its tweak origin unless it is removed. -/
theorem CommitInEffect.range_of_keepsKey (h : CommitInEffect c s t) {r : RangeId} (key : s.receivesKey r = false) :
    (t.range r).generation = (s.range r).generation ∧ (s.removes r = false → (t.range r).tweakOrigin = (s.range r).tweakOrigin) := by
  by_cases changes : r = 0 ∨ s.rangeChanges r = true
  · rw [h.range_of_changes changes]
    cases removed : s.removes r
    · rw [switched_of_keeps removed key]; exact ⟨rfl, fun _ => rfl⟩
    · rw [switched_of_removes removed]; exact ⟨rfl, nofun⟩
  · rw [h.range, if_neg changes]; exact ⟨rfl, fun _ => rfl⟩

theorem CommitInEffect.rootWrap (h : CommitInEffect c s t) {r : RangeId} (changes : r = 0 ∨ s.rangeChanges r = true) :
    (t.range r).rootWrap = if s.removes r then none else if (t.range r).fields.anyLock then none
      else if s.receivesKey r then some (c.newKey r) else if s.losesLocks r then some (c.rangeKey r) else (s.range r).rootWrap := by
  rw [h.fields, h.range_of_changes changes]
  cases removed : s.removes r
  · cases key : s.receivesKey r
    · rw [switched_of_keeps removed key]; rfl
    · rw [switched_of_receivesKey key]; rfl
  · rw [switched_of_removes removed]; rfl

/-- A range that loses its last lock has a root wrap of the key found in hand at the request's checks (R21, log 46). -/
theorem CommitInEffect.rootWrap_of_losesLocks (h : CommitInEffect c s t) {r : RangeId} (key : s.receivesKey r = false)
    (lost : s.losesLocks r = true) : (t.range r).rootWrap = some (c.rangeKey r) := by
  obtain ⟨stays, -, unlocked⟩ := (losesLocks_iff s r).1 lost
  have kept : s.removes r = false := by
    rw [← Bool.not_eq_true, removes_iff]
    exact fun removed => removed.2 stays
  have fields : (t.range r).fields = s.staging[r].fields := by rw [h.fields, kept]; rfl
  rw [h.rootWrap (.inr (losesLocks_rangeChanges lost)), fields]
  simp only [kept, unlocked, key, lost, if_true, Bool.false_eq_true, if_false]

end Entries

/-! ### The wraps after the switch (R21, R53) -/

/-- Wraps made one per range are found by their range. -/
theorem find_filterMap_wraps {f : RangeId → Option Wrap} (own : ∀ q w, f q = some w → w.range = q) (l : List RangeId) (r : RangeId) :
    (l.filterMap f).find? (fun w => w.range = r) = if r ∈ l then f r else none := by
  induction l with
  | nil => rfl
  | cons q l ih =>
    cases found : f q with
    | none =>
      rw [List.filterMap_cons_none found, ih]
      by_cases e : r = q
      · subst e; simp [found]
      · simp [e]
    | some w =>
      have range := own q w found
      rw [List.filterMap_cons_some found]
      by_cases e : r = q
      · subst e; simp [range, found]
      · have other : w.range ≠ r := fun e' => e (e'.symm.trans range)
        simp [other, ih, e]

section Wraps

variable {c : Commit} {s t : State}

theorem switchedWrap_range (i : SlotId) (q : RangeId) (w : Wrap) (h : s.switchedWrap c i q = some w) : w.range = q := by
  unfold State.switchedWrap at h
  split at h
  · cases h
  · split at h
    · simpa using List.find?_some h
    · split at h
      · cases h
      · cases h; rfl

theorem slotChanges_of {i : SlotId} {r : RangeId}
    (h : ¬ (i ∈ (s.range r).fields.access ↔ i ∈ s.newAccess r) ∨ i ∈ (s.range r).fields.access ∧ s.receivesKey r = true) :
    s.slotChanges i = true := by
  unfold State.slotChanges
  refine List.any_eq_true.2 ⟨r, allRanges_mem r, ?_⟩
  simpa using h

theorem CommitInEffect.find_wrap (h : CommitInEffect c s t) {i : SlotId} (changes : s.slotChanges i = true) (r : RangeId) :
    (t.cred i).wraps.find? (fun w => w.range = r) = s.switchedWrap c i r := by
  rw [h.cred, if_pos changes]
  exact (find_filterMap_wraps (switchedWrap_range i) allRanges r).trans (if_pos (allRanges_mem r))

/-- A slot taken from an access list, or of a removed range, loses its wrap of the range. -/
theorem CommitInEffect.wraps_of_taken (h : CommitInEffect c s t) {i : SlotId} {r : RangeId} (before : i ∈ (s.range r).fields.access)
    (after : i ∉ (t.range r).fields.access) : ∀ w ∈ (t.cred i).wraps, w.range ≠ r := by
  rw [h.access] at after
  have found := h.find_wrap (slotChanges_of (.inl fun e => after (e.1 before))) r
  rw [State.switchedWrap, if_pos after, List.find?_eq_none] at found
  exact fun w m e => found w m (by simp [e])

/-- A slot that stays on the access list of a range that keeps its key keeps its wrap. -/
theorem CommitInEffect.wrap_of_stays (h : CommitInEffect c s t) {i : SlotId} {r : RangeId} (before : i ∈ (s.range r).fields.access)
    (after : i ∈ (t.range r).fields.access) (key : s.receivesKey r = false) :
    (t.cred i).wraps.find? (fun w => w.range = r) = (s.cred i).wraps.find? (fun w => w.range = r) := by
  rw [h.access] at after
  by_cases changes : s.slotChanges i = true
  · rw [h.find_wrap changes, State.switchedWrap, if_neg (not_not.2 after), if_pos ⟨key, before⟩]
  · rw [h.cred, if_neg changes]

/-- A slot added to an access list, or on that of a range that receives a key, has a wrap made against its verifier. -/
theorem CommitInEffect.wrap_of_made (h : CommitInEffect c s t) {i : SlotId} {r : RangeId} (after : i ∈ (t.range r).fields.access)
    (made : i ∉ (s.range r).fields.access ∨ s.receivesKey r = true) (v : Verifier) (verifier : (s.cred i).verifier = some v) :
    (t.cred i).wraps.find? (fun w => w.range = r) = some
      { range := r, generation := (t.range r).generation
        key := if s.receivesKey r then c.newKey r else c.rangeKey r, verifier := v } := by
  rw [h.access] at after
  have changes : s.slotChanges i = true := slotChanges_of (r := r) (by tauto)
  have generation : (s.switched c r).generation = (t.range r).generation := by
    cases key : s.receivesKey r
    · rw [(h.range_of_keepsKey key).1]
      cases removed : s.removes r
      · rw [switched_of_keeps removed key]
      · rw [switched_of_removes removed]
    · rw [(h.range_of_receivesKey key).1, switched_of_receivesKey key]
  have new : ¬ (s.receivesKey r = false ∧ i ∈ (s.range r).fields.access) := by
    rintro ⟨key, before⟩
    rcases made with added | key'
    · exact added before
    · rw [key] at key'; cases key'
  rw [h.find_wrap changes, State.switchedWrap, if_neg (not_not.2 after), if_neg new, verifier, ← generation]

/-- The switch changes of a slot's record its wraps alone. -/
theorem CommitInEffect.cred_eq (h : CommitInEffect c s t) (i : SlotId) : t.cred i = { s.cred i with wraps := (t.cred i).wraps } := by
  rw [h.cred]; split <;> rfl

end Wraps

end Sys2Proof.Machine

namespace Sys2Proof.Machine

/-! ### The switch, range by range (R22) -/

/-- The locked flags of a range at the switch (R5, R22): `before` and `after` are its fields, `kept` that it was defined. -/
def RangeView.switchFlags (before after : RangeFields) (kept : Bool) (v : RangeView) : RangeView :=
  { v with live := { v.live with
      readLocked := v.live.readLocked && kept && before.readLock && after.readLock
      writeLocked := v.live.writeLocked && kept && before.writeLock && after.writeLock } }

/-- An affected range leaves UPDATING (R22, R103). -/
def RangeView.leaveUpdating (defined : Bool) (v : RangeView) : RangeView :=
  if defined = false then ⟨{ v.live with service := .undefined }, v.key.erase, false⟩
  else if v.live.service = .updating then { v with live := { v.live with service := .active } }
  else v

/-- The Key Cache entry of a range at the switch (R22): the range receives the key `new`, or it has lost its last lock, or neither; `after`
is its record. -/
def KeyEntry.switch (receives loses active isOpen : Bool) (new : Key) (after : RangeRecord) (k : KeyEntry) : KeyEntry :=
  if receives then
    if active && isOpen then k.erase.load new (some after.generation) else k.erase
  else if active then
    if loses then
      match after.rootWrap with
      | some key => k.load key (some after.generation)
      | none => k
    else if isOpen then k.makeLive
    else k
  else k

/-- The switch of a range's key (R22). -/
def RangeView.switchKey (receives loses : Bool) (new : Key) (after : RangeRecord) (v : RangeView) : RangeView :=
  { v with key := v.key.switch receives loses (decide (v.live.service = .active)) (!after.fields.closedBy v.live) new after }

theorem leaveUpdating_idem (d : Bool) (v : RangeView) : (v.leaveUpdating d).leaveUpdating d = v.leaveUpdating d := by
  cases d
  · rfl
  · by_cases h : v.live.service = .updating <;> simp [RangeView.leaveUpdating, h]

theorem drain_drain (k : KeyEntry) : k.drain.drain = k.drain := by
  cases state : k.state
  · simp [KeyEntry.drain, state]
  · by_cases refs : k.refs = 0 <;> simp [KeyEntry.drain, KeyEntry.erase, state, refs]
  · simp [KeyEntry.drain, state]

theorem drainClosed_idem (f : RangeFields) (v : RangeView) : (v.drainClosed f).drainClosed f = v.drainClosed f := by
  by_cases h : v.live.service = .active ∧ f.closedBy v.live = true
  · simp [RangeView.drainClosed, h, drain_drain]
  · simp only [RangeView.drainClosed, h, if_false]

theorem visits_switchFlags (old : State) : Visits id (fun r s => s.switchFlags old r)
    (fun s r v => v.switchFlags (old.range r).fields (s.range r).fields (old.defined r)) where
  frame _ _ := rfl
  here r s := (view_modRange s r r _).trans (if_pos rfl)
  there r s q e := (view_modRange s r q _).trans (if_neg e)

theorem visits_leaveUpdating : Visits id (fun r s => s.leaveUpdating r) (fun s r v => v.leaveUpdating (s.defined r)) where
  frame r s := by
    unfold State.leaveUpdating
    split
    · rfl
    · split <;> rfl
  here r s := by
    show (s.leaveUpdating r).view r = (s.view r).leaveUpdating (s.defined r)
    unfold State.leaveUpdating RangeView.leaveUpdating
    by_cases undefined : s.defined r = false
    · rw [if_pos undefined, if_pos undefined, view_ungate, if_pos rfl]
      have emptied := view_modKey (s.modRange r fun e => { e with service := .undefined }) r r KeyEntry.erase
      rw [if_pos rfl] at emptied
      have live := congrArg RangeView.live emptied
      have key := congrArg RangeView.key emptied
      have entered : (s.modRange r fun e => { e with service := .undefined }).table[r] = { s.table[r] with service := .undefined } :=
        State.modRange_same s r _
      exact congrArg₂ (RangeView.mk · · false) (live.trans entered) key
    · rw [if_neg undefined, if_neg undefined]
      by_cases updating : s.table[r].service = .updating
      · rw [if_pos updating]
        exact ((view_modRange s r r _).trans (if_pos rfl)).trans (if_pos updating).symm
      · rw [if_neg updating]
        exact (if_neg updating : (if (s.view r).live.service = .updating then _ else _) = _).symm
  there r s q (e : q ≠ r) := by
    show (s.leaveUpdating r).view q = s.view q
    unfold State.leaveUpdating
    split
    · rw [view_ungate, if_neg e, State.emptyKeyOf, view_modKey, if_neg e, view_modRange, if_neg e]
    · split
      · rw [view_modRange, if_neg e]
      · rfl

theorem setKey_key (s : State) (o : Owner) : s.setKey o (s.key o) = s := by
  cases o with
  | range r =>
    have same : s.cache.set r s.cache[r] = s.cache := Vector.set_getElem_self _
    exact congrArg (fun cache => { s with cache := cache }) same
  | shadow => rfl

/-- The switch of a range's key replaces its entry in the Key Cache. -/
theorem switchKey_eq (s old : State) (c : Commit) (r : RangeId) :
    s.switchKey old c r =
      s.setKey (.range r) ((s.view r).switchKey (old.receivesKey r) (old.losesLocks r) (c.newKey r) (s.range r)).key := by
  have same : s = s.setKey (.range r) (s.key (.range r)) := (setKey_key s (.range r)).symm
  have emptied (k : Key) (g : Option Count32) : (s.emptyKeyOf (.range r)).modKey (.range r) (fun e => e.load k g) =
      s.setKey (.range r) ((s.key (.range r)).erase.load k g) := by
    simp [State.emptyKeyOf, State.modKey, State.setKey, State.key]
  show _ = s.setKey (.range r) ((s.key (.range r)).switch _ _ (decide (s.table[r].service = .active))
    (!(s.range r).fields.closedBy s.table[r]) _ _)
  unfold State.switchKey KeyEntry.switch
  dsimp only
  rw [← anyOpen_eq]
  by_cases active : s.table[r].service = .active
  · rw [decide_eq_true active, if_pos active]
    cases old.receivesKey r <;> cases opened : s.anyOpen r
    case true.true => exact (if_pos (And.intro active rfl)).trans (emptied _ _)
    case true.false => exact if_neg fun e : _ ∧ _ => Bool.false_ne_true e.2
    all_goals
      cases old.losesLocks r
      case true =>
        unfold State.loadFromRoot
        cases wrap : (s.range r).rootWrap
        · exact same
        · rfl
    case false.true.false => rfl
    case false.false.false => exact same
  · rw [decide_eq_false active, if_neg active]
    cases old.receivesKey r
    · exact same
    · exact if_neg fun e : _ ∧ _ => active e.1

theorem visits_switchKey (old : State) (c : Commit) : Visits id (fun r s => s.switchKey old c r)
    (fun s r v => v.switchKey (old.receivesKey r) (old.losesLocks r) (c.newKey r) (s.range r)) where
  frame r s := by rw [switchKey_eq]; rfl
  here r s := by
    show (s.switchKey old c r).view r = _
    rw [switchKey_eq]
    exact (view_modKey s r r fun _ => _).trans (if_pos rfl)
  there r s q e := by
    show (s.switchKey old c r).view q = _
    rw [switchKey_eq]
    exact (view_modKey s r q fun _ => _).trans (if_neg e)

end Sys2Proof.Machine

namespace Sys2Proof.Machine

/-! ### The state of the ranges after the switch (R22) -/

/-- The switch of the ranges, up to what is held against them (R22). -/
def State.switchRanges (s old : State) (c : Commit) : State :=
  let affected := c.affected.map (·.1)
  let flags := forEach allRanges (fun r s => s.switchFlags old r) s
  let served := forEach affected (fun r s => s.leaveUpdating r) flags
  let keyed := forEach allRanges (fun r s => s.switchKey old c r) served
  forEach affected (fun r s => s.drainIfClosed r) keyed

theorem forEach_map {α β : Type} (g : α → β) (f : β → State → State) (l : List α) (s : State) :
    forEach l (fun a s => f (g a) s) s = forEach (l.map g) f s := by
  rw [forEach, forEach, List.foldl_map]

/-- The switch: the ranges, what is held against them, the staging copy, and the reply (R22, R20, R14). -/
theorem switch_eq (s old : State) (c : Commit) : s.switch old c =
    let staged := forEach allRanges (fun r s => s.restage r) (forEach c.held (fun p s => s.takeHeld p) (s.switchRanges old c))
    (staged.raise .mediaViewChanged).reply .ok (.generation staged.tableGeneration) := by
  unfold State.switch State.switchRanges
  simp only [← forEach_map]

section Switched

variable (s old : State) (c : Commit) (r : RangeId)

/-- What is held of a range once its locked flags are switched and it has left UPDATING. -/
def State.servedView : RangeView :=
  let flags := (s.view r).switchFlags (old.range r).fields (s.range r).fields (old.defined r)
  if r ∈ c.affected.map (·.1) then flags.leaveUpdating (s.defined r) else flags

theorem switchRanges_frame : (s.switchRanges old c).besideRanges = s.besideRanges :=
  calc (s.switchRanges old c).besideRanges
    _ = _ := visits_drainIfClosed.forEach_frame _ _
    _ = _ := (visits_switchKey old c).forEach_frame _ _
    _ = _ := visits_leaveUpdating.forEach_frame _ _
    _ = s.besideRanges := (visits_switchFlags old).forEach_frame _ _

theorem switchRanges_view : (s.switchRanges old c).view r =
    let keyed := (s.servedView old c r).switchKey (old.receivesKey r) (old.losesLocks r) (c.newKey r) (s.range r)
    if r ∈ c.affected.map (·.1) then keyed.drainClosed (s.range r).fields else keyed := by
  have flags := (visits_switchFlags old).forEach_all s r
  have flagsFrame := (visits_switchFlags old).forEach_frame allRanges s
  unfold State.switchRanges
  dsimp only
  generalize forEach allRanges (fun r s => s.switchFlags old r) s = flagged at flags flagsFrame ⊢
  have served := visits_leaveUpdating.forEach_idem (fun _ _ v => leaveUpdating_idem _ v) (c.affected.map (·.1)) flagged r
  have servedFrame := visits_leaveUpdating.forEach_frame (c.affected.map (·.1)) flagged
  rw [flagsFrame] at servedFrame
  rw [flagsFrame, flags] at served
  generalize forEach (c.affected.map (·.1)) (fun r s => s.leaveUpdating r) flagged = left at served servedFrame ⊢
  have keyed := (visits_switchKey old c).forEach_all left r
  have keyedFrame := (visits_switchKey old c).forEach_frame allRanges left
  rw [servedFrame, served] at keyed
  rw [servedFrame] at keyedFrame
  generalize forEach allRanges (fun r s => s.switchKey old c r) left = switched at keyed keyedFrame ⊢
  have drained := visits_drainIfClosed.forEach_idem (fun _ _ v => drainClosed_idem _ v) (c.affected.map (·.1)) switched r
  rw [keyedFrame, keyed] at drained
  exact drained

theorem switchRanges_range : (s.switchRanges old c).range r = s.range r := range_of_besideRanges (switchRanges_frame s old c) r

theorem switchRanges_live : (s.switchRanges old c).table[r] = (s.servedView old c r).live := by
  refine (congrArg RangeView.live (switchRanges_view s old c r)).trans ?_
  dsimp only
  split
  · exact drainClosed_live _ _
  · rfl

theorem servedView_locks : (s.servedView old c r).live.readLocked =
      (s.table[r].readLocked && old.defined r && (old.range r).fields.readLock && (s.range r).fields.readLock) ∧
    (s.servedView old c r).live.writeLocked =
      (s.table[r].writeLocked && old.defined r && (old.range r).fields.writeLock && (s.range r).fields.writeLock) := by
  unfold State.servedView RangeView.leaveUpdating
  dsimp only
  split
  · split
    · exact ⟨rfl, rfl⟩
    · split <;> exact ⟨rfl, rfl⟩
  · exact ⟨rfl, rfl⟩

theorem servedView_key : (s.servedView old c r).key = s.key (.range r) ∨ (s.servedView old c r).key = (s.key (.range r)).erase := by
  unfold State.servedView RangeView.leaveUpdating
  dsimp only
  split
  · split
    · exact .inr rfl
    · split <;> exact .inl rfl
  · exact .inl rfl

/-- An affected range that is not defined leaves UPDATING to UNDEFINED, its entry emptied and off the wake gate (R22, R103). -/
theorem servedView_of_undefined (affected : r ∈ c.affected.map (·.1)) (undefined : s.defined r = false) :
    (s.servedView old c r).live.service = .undefined ∧ (s.servedView old c r).key = (s.key (.range r)).erase ∧
      (s.servedView old c r).gated = false := by
  rw [State.servedView, if_pos affected, RangeView.leaveUpdating, if_pos undefined]
  exact ⟨rfl, rfl, rfl⟩

theorem servedView_of_updating (affected : r ∈ c.affected.map (·.1)) (defined : s.defined r = true) (updating : s.table[r].service = .updating) :
    (s.servedView old c r).live.service = .active := by
  rw [State.servedView, if_pos affected, RangeView.leaveUpdating, if_neg (by rw [defined]; exact Bool.noConfusion),
    if_pos (show (RangeView.switchFlags _ _ _ (s.view r)).live.service = .updating from updating)]

theorem servedView_of_notMem (other : r ∉ c.affected.map (·.1)) : (s.servedView old c r).live.service = s.table[r].service := by
  rw [State.servedView, if_neg other]; rfl

/-- The key of a range after the switch: what its switch makes of it, drained where an affected range has no open direction. -/
theorem switchRanges_key :
    let x := s.switchRanges old c
    let switched := (s.servedView old c r).key.switch (old.receivesKey r) (old.losesLocks r) (decide (x.table[r].service = .active))
      (x.anyOpen r) (c.newKey r) (s.range r)
    x.key (.range r) = switched ∨ (x.anyOpen r = false ∧ x.key (.range r) = switched.drain) := by
  have key := congrArg RangeView.key (switchRanges_view s old c r)
  have live := switchRanges_live s old c r
  rw [view_key] at key
  dsimp only at key ⊢
  rw [key, anyOpen_eq, switchRanges_range, live]
  unfold RangeView.drainClosed
  split
  · split
    · next closed => exact .inr ⟨congrArg not closed.2, rfl⟩
    · exact .inl rfl
  · exact .inl rfl

end Switched

/-! #### The Key Cache entry of a range after the switch -/

section SwitchedKey

variable {s old : State} {c : Commit} {r : RangeId}

theorem drain_of_empty {k : KeyEntry} (h : k.state = .empty) : k.drain = k := by simp [KeyEntry.drain, h]

theorem switchRanges_undefined (affected : r ∈ c.affected.map (·.1)) (undefined : s.defined r = false) :
    (s.switchRanges old c).table[r].service = .undefined ∧ ((s.switchRanges old c).key (.range r)).state = .empty ∧
      r ∉ (s.switchRanges old c).binding.gated := by
  obtain ⟨service, key, gated⟩ := servedView_of_undefined s old c r affected undefined
  have live := switchRanges_live s old c r
  have inactive : decide ((s.switchRanges old c).table[r].service = .active) = false := by rw [live, service]; rfl
  have switched := switchRanges_key s old c r
  dsimp only at switched
  rw [inactive, key] at switched
  have empty : ((s.key (.range r)).erase.switch (old.receivesKey r) (old.losesLocks r) false ((s.switchRanges old c).anyOpen r)
      (c.newKey r) (s.range r)) = (s.key (.range r)).erase := by
    cases old.receivesKey r
    · rfl
    · rfl
  rw [empty, drain_of_empty rfl] at switched
  refine ⟨by rw [live, service], ?_, ?_⟩
  · rw [switched.elim id And.right]; rfl
  · have ungated := congrArg RangeView.gated (switchRanges_view s old c r)
    dsimp only at ungated
    rw [if_pos affected, drainClosed_gated, view_gated] at ungated
    exact of_decide_eq_false (ungated.trans gated)

/-- The entry of a range that receives a key: LIVE with it while the range is ACTIVE with an open direction, else EMPTY (R22). -/
theorem switchRanges_key_of_receivesKey (receives : old.receivesKey r = true) :
    (s.switchRanges old c).key (.range r) =
      if (s.switchRanges old c).table[r].service = .active ∧ (s.switchRanges old c).anyOpen r = true then
        { state := .live, material := some (c.newKey r), generation := some (s.range r).generation, refs := (s.key (.range r)).refs }
      else (s.key (.range r)).erase := by
  have erased : (s.servedView old c r).key.erase = (s.key (.range r)).erase := by
    rcases servedView_key s old c r with e | e
    · rw [e]
    · rw [e]; rfl
  have switched := switchRanges_key s old c r
  dsimp only at switched
  rw [receives, KeyEntry.switch, if_pos rfl, erased] at switched
  by_cases loaded : (s.switchRanges old c).table[r].service = .active ∧ (s.switchRanges old c).anyOpen r = true
  · rw [if_pos loaded]
    rw [decide_eq_true loaded.1, loaded.2] at switched
    rcases switched with e | ⟨closed, -⟩
    · exact e
    · cases closed
  · have emptied : ((decide ((s.switchRanges old c).table[r].service = .active)) && (s.switchRanges old c).anyOpen r) = false := by
      rw [← Bool.not_eq_true, Bool.and_eq_true, decide_eq_true_eq]; exact loaded
    rw [if_neg loaded]
    rw [emptied, if_neg Bool.false_ne_true, drain_of_empty rfl] at switched
    exact switched.elim id And.right

/-- The entry of an ACTIVE range that has lost its last lock is LIVE, from its root wrap (R22). -/
theorem switchRanges_key_of_losesLocks (receives : old.receivesKey r = false) (loses : old.losesLocks r = true)
    (active : (s.switchRanges old c).table[r].service = .active) (opened : (s.switchRanges old c).anyOpen r = true) {key : Key}
    (wrap : (s.range r).rootWrap = some key) : ((s.switchRanges old c).key (.range r)).state = .live := by
  have switched := switchRanges_key s old c r
  dsimp only at switched
  rw [receives, loses, decide_eq_true active, opened, KeyEntry.switch, wrap] at switched
  rcases switched with e | ⟨closed, -⟩
  · rw [e]
    simp only [Bool.false_eq_true, if_false, if_true, KeyEntry.load]
    split
    · rfl
    · next h => exact h
    · rfl
  · cases closed

end SwitchedKey

end Sys2Proof.Machine

namespace Sys2Proof.Machine

/-! ### Releases by transfers that end (R36, R37) -/

theorem released_released (e : KeyEntry) (n m : Nat) : (e.released n).released m = e.released (n + m) := by
  unfold KeyEntry.released emptyKey
  by_cases erased : n ≠ 0 ∧ e.refs - n = 0 ∧ e.state = .draining
  · have erased' : n + m ≠ 0 ∧ e.refs - (n + m) = 0 ∧ e.state = .draining := ⟨by omega, by omega, erased.2.2⟩
    rw [if_pos erased, if_pos erased']
    simp
  · rw [if_neg erased]
    by_cases later : m ≠ 0 ∧ e.refs - n - m = 0 ∧ e.state = .draining
    · rw [if_pos later, if_pos ⟨by omega, by omega, later.2.2⟩]
    · have neither : ¬ (n + m ≠ 0 ∧ e.refs - (n + m) = 0 ∧ e.state = .draining) := by
        rintro ⟨some, last, draining⟩
        by_cases none : m = 0
        · exact erased ⟨by omega, by omega, draining⟩
        · exact later ⟨none, by omega, draining⟩
      rw [if_neg later, if_neg neither, Nat.sub_sub]

theorem released_zero (e : KeyEntry) : e.released 0 = e := by simp [KeyEntry.released]

theorem emptyKey_released (n : Nat) : emptyKey.released n = emptyKey := by simp [KeyEntry.released, emptyKey]

theorem released_state_of_not_draining {e : KeyEntry} (h : e.state ≠ .draining) (n : Nat) : (e.released n).state = e.state := by
  rw [KeyEntry.released, if_neg fun erased => h erased.2.2]

theorem released_refs_of_zero {e : KeyEntry} (h : e.refs = 0) (n : Nat) : (e.released n).refs = 0 := by
  unfold KeyEntry.released; split
  · rfl
  · simp [h]

theorem released_not_live {e : KeyEntry} (h : e.state ≠ .live) (n : Nat) : (e.released n).state ≠ .live := by
  unfold KeyEntry.released emptyKey; split
  · exact nofun
  · exact h

/-- From `s` to `t`, references on keys were released and messages other than replies were sent. -/
structure Released (s t : State) : Prop where
  key : ∀ o, ∃ n, t.key o = (s.key o).released n
  sent : ∃ l, t.sent = s.sent ++ l ∧ ∀ m, Sent.reply m ∉ l

theorem Released.refl (s : State) : Released s s :=
  ⟨fun _ => ⟨0, (released_zero _).symm⟩, [], (List.append_nil _).symm, fun _ => List.not_mem_nil⟩

theorem Released.trans {s t u : State} (h : Released s t) (k : Released t u) : Released s u where
  key o := by
    obtain ⟨n, e⟩ := h.key o
    obtain ⟨m, e'⟩ := k.key o
    exact ⟨n + m, by rw [e', e, released_released]⟩
  sent := by
    obtain ⟨l, e, noReply⟩ := h.sent
    obtain ⟨l', e', noReply'⟩ := k.sent
    refine ⟨l ++ l', by rw [e', e, List.append_assoc], fun m => ?_⟩
    rw [List.mem_append]
    exact fun reply => reply.elim (noReply m) (noReply' m)

theorem Released.forEach {α : Type} {f : α → State → State} (step : ∀ a s, Released s (f a s)) (l : List α) (s : State) :
    Released s (forEach l f s) := by
  induction l generalizing s with
  | nil => exact .refl s
  | cons a l ih => exact (step a s).trans (ih _)

theorem released_of_keys {s t : State} (key : t.key = s.key) (sent : t.sent = s.sent) : Released s t :=
  ⟨fun o => ⟨0, by rw [key, released_zero]⟩, [], by rw [sent, List.append_nil], fun _ => List.not_mem_nil⟩

section Released

variable (s : State) (t : Tag)

theorem released_setTransfer (x : Option Transfer) : Released s (s.setTransfer t x) := released_of_keys (funext fun o => by cases o <;> rfl) rfl

theorem released_setLane (l : LaneId) (x : Lane) : Released s (s.setLane l x) := released_of_keys (funext fun o => by cases o <;> rfl) rfl

theorem released_releaseRefs (l : List Owner) : Released s (s.releaseRefs l) where
  key o := ⟨l.count o, releaseRefs_key l s o⟩
  sent := ⟨[], by rw [List.append_nil]; exact forEach_keeps State.sent _ (fun o s => by cases o <;> rfl) l s, fun _ => List.not_mem_nil⟩

theorem released_completion (final : TransferState) (reason : Option AbortReason) (lba : Option Nat) :
    Released s (s.say (.completion t final reason lba)) where
  key o := ⟨0, by rw [released_zero]; cases o <;> rfl⟩
  sent := ⟨[.completion t final reason lba], rfl, fun m h => by cases List.mem_singleton.1 h⟩

theorem released_endTransfer (final : TransferState) : Released s (s.endTransfer t final) := by
  unfold State.endTransfer
  split
  · exact .refl s
  · exact ((released_setTransfer s t none).trans (released_releaseRefs _ _)).trans (released_completion _ _ _ _ _)

theorem released_endSegment (i : Nat) (step : SegStep) : Released s (s.endSegment t i step) := by
  unfold State.endSegment
  split
  · exact .refl s
  · exact (released_setTransfer s t _).trans (released_releaseRefs _ _)

theorem released_reportStop (l : LaneId) : Released s (s.reportStop l) := by
  unfold State.reportStop
  dsimp only
  split
  · exact ((released_setLane s l idleLane).trans (released_endSegment _ _ _ _)).trans (released_endTransfer _ _ _)
  · exact released_setLane s l idleLane

theorem released_stopLane (l : LaneId) : Released s (s.stopLane l) := by
  unfold State.stopLane State.reportIfStopped
  split
  · exact (released_setLane s l _).trans (released_reportStop _ l)
  · exact released_setLane s l _

theorem released_abortTransfer (reason : AbortReason) : Released s (s.abortTransfer t reason) := by
  unfold State.abortTransfer
  split
  · exact .refl s
  · dsimp only
    split
    · exact ((released_setTransfer s t _).trans (released_releaseRefs _ _)).trans (released_stopLane _ _)
    · exact ((released_setTransfer s t _).trans (released_releaseRefs _ _)).trans (released_endTransfer _ _ _)

/-- An abort of an owner releases references on the other owners' keys and sends completions (R37). -/
theorem abortOwner_released (o : Owner) (reason : AbortReason) :
    (∀ p, p ≠ o → ∃ n, (s.abortOwner o reason).key p = (s.key p).released n) ∧
      ∃ l, (s.abortOwner o reason).sent = s.sent ++ l ∧ ∀ m, Sent.reply m ∉ l := by
  have swept : Released s (forEach allTags (fun t s =>
      match s.inflight[t] with
      | some x => if x.live ∧ x.segments.any (fun g => g.owner = o) then s.abortTransfer t (x.firstReason reason) else s
      | none => s) s) := Released.forEach (fun t s => by
    split
    · split
      · exact released_abortTransfer s t _
      · exact .refl s
    · exact .refl s) allTags s
  unfold State.abortOwner
  refine ⟨fun p other => ?_, ?_⟩
  · rw [State.key_setKey_other _ _ other]; exact swept.key p
  · have same (u : State) : (u.setKey o emptyKey).sent = u.sent := by cases o <;> rfl
    rw [same]; exact swept.sent

end Released

end Sys2Proof.Machine

namespace Sys2Proof.Machine

/-! ### What is held against the ranges of a RANGE-COMMIT (R20) -/

/-- From `s` to `t` ranges were visited and transfers ended: all else is as it was, and no reply was sent. -/
structure Aside (s t : State) : Prop where
  frame : transferFrame t.besideRanges = transferFrame s.besideRanges
  sent : ∃ l, t.sent = s.sent ++ l ∧ ∀ m, Sent.reply m ∉ l

/-- From `s` to `t` range `q` was not visited: references on its key may have been released. -/
structure Apart (q : RangeId) (s t : State) : Prop where
  live : t.table[q] = s.table[q]
  gated : q ∈ t.binding.gated ↔ q ∈ s.binding.gated
  key : ∃ n, t.key (.range q) = (s.key (.range q)).released n

theorem Aside.range {s t : State} (h : Aside s t) (r : RangeId) : t.range r = s.range r := by
  have e := congrArg (fun u : State => u.range r) h.frame
  exact e

theorem Aside.refl (s : State) : Aside s s := ⟨rfl, (Released.refl s).sent⟩

theorem Aside.trans {s t u : State} (h : Aside s t) (k : Aside t u) : Aside s u where
  frame := k.frame.trans h.frame
  sent := by
    obtain ⟨l, e, noReply⟩ := h.sent
    obtain ⟨l', e', noReply'⟩ := k.sent
    refine ⟨l ++ l', by rw [e', e, List.append_assoc], fun m => ?_⟩
    rw [List.mem_append]
    exact fun reply => reply.elim (noReply m) (noReply' m)

theorem Apart.refl (q : RangeId) (s : State) : Apart q s s := ⟨rfl, .rfl, (Released.refl s).key _⟩

theorem Apart.trans {q : RangeId} {s t u : State} (h : Apart q s t) (k : Apart q t u) : Apart q s u where
  live := k.live.trans h.live
  gated := k.gated.trans h.gated
  key := by
    obtain ⟨n, e⟩ := h.key
    obtain ⟨m, e'⟩ := k.key
    exact ⟨n + m, by rw [e', e, released_released]⟩

/-! #### One range -/

section TakeHeld

variable (s : State) (r : RangeId)

theorem aside_modRange (f : RangeLive → RangeLive) : Aside s (s.modRange r f) := ⟨rfl, (Released.refl s).sent⟩

theorem apart_modRange {q : RangeId} (f : RangeLive → RangeLive) (other : q ≠ r) : Apart q s (s.modRange r f) :=
  ⟨State.modRange_other s f other, .rfl, 0, (released_zero _).symm⟩

theorem aside_ungate : Aside s (s.ungate r) := ⟨rfl, (Released.refl s).sent⟩

theorem apart_ungate {q : RangeId} (other : q ≠ r) : Apart q s (s.ungate r) :=
  ⟨rfl, by simp [State.ungate, other], 0, (released_zero _).symm⟩

theorem aside_drainKey : Aside s (s.drainKey (.range r)) := ⟨rfl, (Released.refl s).sent⟩

theorem apart_drainKey {q : RangeId} (other : q ≠ r) : Apart q s (s.drainKey (.range r)) :=
  ⟨rfl, .rfl, 0, by rw [released_zero, State.drainKey, key_modKey, if_neg fun e => other (Owner.range.inj e).symm]⟩

theorem abortOwner_table (o : Owner) (reason : AbortReason) : (s.abortOwner o reason).table = s.table := by
  have e := congrArg State.table (frame_abortOwner s o reason)
  exact e

theorem abortOwner_binding (o : Owner) (reason : AbortReason) : (s.abortOwner o reason).binding = s.binding := by
  have e := congrArg State.binding (frame_abortOwner s o reason)
  exact e

theorem aside_abortOwner (o : Owner) (reason : AbortReason) : Aside s (s.abortOwner o reason) :=
  ⟨congrArg State.besideRanges (frame_abortOwner s o reason), (abortOwner_released s o reason).2⟩

theorem apart_abortOwner {q : RangeId} (reason : AbortReason) (other : q ≠ r) : Apart q s (s.abortOwner (.range r) reason) :=
  ⟨by rw [abortOwner_table], by rw [abortOwner_binding],
    (abortOwner_released s (.range r) reason).1 _ fun e => other (Owner.range.inj e)⟩

theorem aside_lockRangeDown : Aside s (s.lockRangeDown r) := by
  unfold State.lockRangeDown
  dsimp only
  split
  · exact (aside_modRange s r _).trans (aside_drainKey _ r)
  · exact (aside_modRange s r _).trans (aside_abortOwner _ _ _)

theorem apart_lockRangeDown {q : RangeId} (other : q ≠ r) : Apart q s (s.lockRangeDown r) := by
  unfold State.lockRangeDown
  dsimp only
  split
  · exact (apart_modRange s r _ other).trans (apart_drainKey _ r other)
  · exact (apart_modRange s r _ other).trans (apart_abortOwner _ r _ other)

/-- The range enters LOCKDOWN under its response: `HIDE` drains its key, `CLOSE` empties it (R11). -/
theorem lockRangeDown_here :
    ((s.lockRangeDown r).table[r].service = .lockdown ∧ (s.lockRangeDown r).table[r].inForce = (s.range r).fields.response) ∧
    ((s.range r).fields.response = .hide ∧ (s.lockRangeDown r).key (.range r) = (s.key (.range r)).drain ∨
      (s.lockRangeDown r).key (.range r) = emptyKey) := by
  unfold State.lockRangeDown
  dsimp only
  cases response : (s.range r).fields.response
  case hide =>
    have entered := State.modRange_same s r fun e => { e with service := .lockdown, inForce := .hide }
    have drained := key_modKey (s.modRange r fun e => { e with service := .lockdown, inForce := .hide }) (.range r) (.range r) KeyEntry.drain
    rw [if_pos rfl] at drained
    exact ⟨⟨congrArg RangeLive.service entered, congrArg RangeLive.inForce entered⟩, .inl ⟨rfl, drained⟩⟩
  case close =>
    have entered := State.modRange_same s r fun e => { e with service := .lockdown, inForce := .close }
    dsimp only
    rw [abortOwner_table]
    exact ⟨⟨congrArg RangeLive.service entered, congrArg RangeLive.inForce entered⟩, .inr (abortOwner_key _ _ _)⟩

theorem aside_eraseRange : Aside s (s.eraseRange r) :=
  ((aside_modRange s r _).trans (aside_ungate _ r)).trans (aside_abortOwner _ _ _)

theorem apart_eraseRange {q : RangeId} (other : q ≠ r) : Apart q s (s.eraseRange r) :=
  ((apart_modRange s r _ other).trans (apart_ungate _ r other)).trans (apart_abortOwner _ r _ other)

theorem eraseRange_here : (s.eraseRange r).table[r].service = .erasing ∧ (s.eraseRange r).key (.range r) = emptyKey ∧
    r ∉ (s.eraseRange r).binding.gated := by
  have entered := State.modRange_same s r fun e => { e with service := .erasing }
  unfold State.eraseRange
  rw [abortOwner_table, abortOwner_binding]
  exact ⟨congrArg RangeLive.service entered, abortOwner_key _ _ _, by simp [State.ungate]⟩

variable (p : RangeId × Held)

theorem takeHeld_of_inactive (h : s.table[p.1].service ≠ .active) : s.takeHeld p = s := if_pos h

theorem aside_takeHeld : Aside s (s.takeHeld p) := by
  unfold State.takeHeld
  split
  · exact .refl s
  · split
    · exact aside_lockRangeDown s p.1
    · exact aside_eraseRange s p.1

theorem apart_takeHeld {q : RangeId} (other : q ≠ p.1) : Apart q s (s.takeHeld p) := by
  unfold State.takeHeld
  split
  · exact .refl q s
  · split
    · exact apart_lockRangeDown s p.1 other
    · exact apart_eraseRange s p.1 other

end TakeHeld

/-! #### All that is held -/

section Held

variable {held : List (RangeId × Held)} (s : State)

theorem aside_held (l : List (RangeId × Held)) : Aside s (forEach l (fun p s => s.takeHeld p) s) := by
  induction l generalizing s with
  | nil => exact .refl s
  | cons p l ih => exact (aside_takeHeld s p).trans (ih _)

theorem apart_held {r : RangeId} (other : r ∉ held.map (·.1)) : Apart r s (forEach held (fun p s => s.takeHeld p) s) := by
  induction held generalizing s with
  | nil => exact .refl r s
  | cons p l ih =>
    simp only [List.map_cons, List.mem_cons, not_or] at other
    exact (apart_takeHeld s p other.1).trans (ih _ other.2)

/-- What is held against a range takes it once, from a state `u` in which the others before it have been taken. -/
theorem held_here (nodup : (held.map (·.1)).Nodup) {r : RangeId} {h : Held} (m : (r, h) ∈ held) :
    ∃ u, Aside s u ∧ Apart r s u ∧ Apart r (u.takeHeld (r, h)) (forEach held (fun p s => s.takeHeld p) s) := by
  obtain ⟨before, after, rfl⟩ := List.append_of_mem m
  rw [List.map_append, List.map_cons, List.nodup_append] at nodup
  obtain ⟨-, later, apart⟩ := nodup
  refine ⟨forEach before (fun p s => s.takeHeld p) s, aside_held s before, apart_held s fun m => ?_, ?_⟩
  · exact apart r m r List.mem_cons_self rfl
  · have split : forEach (before ++ (r, h) :: after) (fun p s => s.takeHeld p) s =
        forEach after (fun p s => s.takeHeld p) ((forEach before (fun p s => s.takeHeld p) s).takeHeld (r, h)) := List.foldl_append
    rw [split]
    exact apart_held _ (List.nodup_cons.1 later).1

/-- A range that is not ACTIVE takes nothing (R20). -/
theorem held_of_inactive (nodup : (held.map (·.1)).Nodup) {r : RangeId} (inactive : s.table[r].service ≠ .active) :
    Apart r s (forEach held (fun p s => s.takeHeld p) s) := by
  by_cases m : r ∈ held.map (·.1)
  · obtain ⟨⟨q, h⟩, named, e⟩ := List.mem_map.1 m
    obtain rfl : q = r := e
    obtain ⟨u, -, before, after⟩ := held_here s nodup named
    rw [takeHeld_of_inactive u (q, h) (by rw [before.live]; exact inactive)] at after
    exact before.trans after
  · exact apart_held s m

/-- A LOCKDOWN held against an ACTIVE range takes it into LOCKDOWN (R20, R11). -/
theorem held_lockdown (nodup : (held.map (·.1)).Nodup) {r : RangeId} (m : (r, Held.lockdown) ∈ held)
    (active : s.table[r].service = .active) :
    let y := forEach held (fun p s => s.takeHeld p) s
    y.table[r].service = .lockdown ∧ y.table[r].inForce = (s.range r).fields.response ∧ (y.key (.range r)).state ≠ .live ∧
      ((s.range r).fields.response = .close → y.key (.range r) = emptyKey) ∧
      ((s.key (.range r)).refs = 0 → (s.key (.range r)).state ≠ .draining → (y.key (.range r)).state = .empty) := by
  obtain ⟨u, aside, before, after⟩ := held_here s nodup m
  have taken : u.takeHeld (r, .lockdown) = u.lockRangeDown r := if_neg (by rw [before.live, active]; simp)
  rw [taken] at after
  obtain ⟨⟨service, inForce⟩, key⟩ := lockRangeDown_here u r
  rw [aside.range] at inForce key
  obtain ⟨n, entry⟩ := before.key
  obtain ⟨k, last⟩ := after.key
  dsimp only
  rw [after.live, last]
  refine ⟨service, inForce, ?_⟩
  rcases key with ⟨hide, drained⟩ | emptied
  · refine ⟨?_, fun close => absurd (hide.symm.trans close) (by decide), fun refs state => ?_⟩
    · refine released_not_live ?_ k
      rw [drained, KeyEntry.drain]
      split
      · split <;> exact nofun
      · next h => rw [h]; exact nofun
      · next h => rw [h]; exact nofun
    · have refs' := released_refs_of_zero refs n
      have state' := released_state_of_not_draining state n
      rw [← entry] at refs' state'
      have empty : (u.key (.range r)).drain.state = .empty := by
        unfold KeyEntry.drain
        split
        · rw [if_pos refs']; rfl
        · next h => exact h
        · next h => exact absurd (state'.symm.trans h) state
      rw [drained, released_state_of_not_draining (by rw [empty]; exact nofun), empty]
  · rw [emptied, emptyKey_released]
    exact ⟨nofun, fun _ => rfl, fun _ _ => rfl⟩

/-- An ERASING held against an ACTIVE range takes it into ERASING (R20, R11). -/
theorem held_erasing (nodup : (held.map (·.1)).Nodup) {r : RangeId} (m : (r, Held.erasing) ∈ held)
    (active : s.table[r].service = .active) :
    let y := forEach held (fun p s => s.takeHeld p) s
    y.table[r].service = .erasing ∧ y.key (.range r) = emptyKey ∧ r ∉ y.binding.gated := by
  obtain ⟨u, -, before, after⟩ := held_here s nodup m
  have taken : u.takeHeld (r, .erasing) = u.eraseRange r := if_neg (by rw [before.live, active]; simp)
  rw [taken] at after
  obtain ⟨service, key, ungated⟩ := eraseRange_here u r
  obtain ⟨k, last⟩ := after.key
  dsimp only
  rw [after.live, last, key, emptyKey_released, after.gated]
  exact ⟨service, rfl, ungated⟩

end Held

end Sys2Proof.Machine

namespace Sys2Proof.Machine

/-! ### The close of a RANGE-COMMIT (R22, R20) -/

/-- The end of a switch (R22): the staging copy as given, MEDIA_VIEW_CHANGED raised, and the reply, which an abandoned request lacks. -/
def State.endSwitch (y : State) (staging : Vector Staged 16) (authTimer : Option Nat) : State :=
  { y with
    staging := staging, authTimer := authTimer, executor := freeExecutor
    events := { y.events with pending := withEvent .mediaViewChanged y.events.pending }
    sent := y.sent ++ (if y.executor.status = .abandoned then []
      else [replyTo y.executor.kind y.executor.tag .ok (.generation y.tableGeneration)]) }

/-- The end of a switch, from the state `y` in which what is held has been taken. -/
theorem switch_end {s old y : State} {c : Commit} (held : y = forEach c.held (fun p s => s.takeHeld p) (s.switchRanges old c))
    (status : y.executor.status ≠ .free) :
    ∃ staging authTimer, s.switch old c = y.endSwitch staging authTimer ∧
      ∀ r : RangeId, staging[r] = { fields := (y.range r).fields, newKey := false } := by
  have restaged := restage_all y
  rw [switch_eq]
  dsimp only
  rw [← held, restage_all_eq y]
  unfold State.endSwitch
  generalize (forEach allRanges (fun r s => s.restage r) y).staging = staging at restaged ⊢
  cases executing : y.executor.status
  case free => exact absurd executing status
  case executing =>
    exact ⟨staging, none, reply_eq (({ y with staging := staging } : State).raise .mediaViewChanged) _ _ executing, restaged⟩
  case abandoned =>
    refine ⟨staging, y.authTimer, ?_, restaged⟩
    have freed (u : State) (h : u.executor.status = .abandoned) (payload : Payload) :
        u.reply .ok payload = { u with executor := freeExecutor } := by simp only [State.reply, h]
    rw [if_pos rfl, List.append_nil]
    exact freed (({ y with staging := staging } : State).raise .mediaViewChanged) executing _

theorem switchRanges_cred (s old : State) (c : Commit) (i : SlotId) : (s.switchRanges old c).cred i = s.cred i := by
  have e := congrArg (fun u : State => u.cred i) (switchRanges_frame s old c)
  exact e

theorem switchRanges_defined (s old : State) (c : Commit) (r : RangeId) : (s.switchRanges old c).defined r = s.defined r := by
  have e := congrArg (fun u : State => u.defined r) (switchRanges_frame s old c)
  exact e

theorem switchRanges_service (s old : State) (c : Commit) (r : RangeId) :
    (s.switchRanges old c).table[r].service = (s.servedView old c r).live.service :=
  congrArg RangeLive.service (switchRanges_live s old c r)

section Switch

variable {c : Commit} {s t : State} (h : CommitInEffect c s t)
include h

/-- Before its switch takes effect the close has left the ranges as they were. -/
theorem CommitInEffect.view (r : RangeId) : t.view r = s.view r := by
  have e := congrArg (fun u : State => u.view r) h.rest
  exact e

theorem CommitInEffect.executor : (t.switchRanges s c).executor = s.executor := by
  have switched := congrArg State.executor (switchRanges_frame t s c)
  have closed := congrArg State.executor h.rest
  exact switched.trans closed

theorem CommitInEffect.sent : (t.switchRanges s c).sent = s.sent := by
  have switched := congrArg State.sent (switchRanges_frame t s c)
  have closed := congrArg State.sent h.rest
  exact switched.trans closed

theorem CommitInEffect.authority : (t.switchRanges s c).authority = s.authority := by
  have switched := congrArg State.authority (switchRanges_frame t s c)
  have closed := congrArg State.authority h.rest
  exact switched.trans closed

theorem CommitInEffect.active_of_updating {r : RangeId} (affected : r ∈ c.affected.map (·.1)) (defined : t.defined r = true)
    (updating : s.table[r].service = .updating) : (t.switchRanges s c).table[r].service = .active := by
  have before : t.table[r] = s.table[r] := congrArg RangeView.live (h.view r)
  rw [switchRanges_service, servedView_of_updating t s c r affected defined (by rw [before]; exact updating)]

theorem CommitInEffect.switched_locks (r : RangeId) :
    (t.switchRanges s c).table[r].readLocked =
      (s.table[r].readLocked && s.defined r && (s.range r).fields.readLock && (t.range r).fields.readLock) ∧
    (t.switchRanges s c).table[r].writeLocked =
      (s.table[r].writeLocked && s.defined r && (s.range r).fields.writeLock && (t.range r).fields.writeLock) := by
  have before : t.table[r] = s.table[r] := congrArg RangeView.live (h.view r)
  obtain ⟨read, write⟩ := servedView_locks t s c r
  rw [before] at read write
  have live := switchRanges_live t s c r
  exact ⟨(congrArg RangeLive.readLocked live).trans read, (congrArg RangeLive.writeLocked live).trans write⟩

theorem CommitInEffect.service_of_notMem {r : RangeId} (other : r ∉ c.affected.map (·.1)) :
    (t.switchRanges s c).table[r].service = s.table[r].service := by
  have before : t.table[r] = s.table[r] := congrArg RangeView.live (h.view r)
  rw [switchRanges_service, servedView_of_notMem t s c r other, before]

/-- The entry of a range that receives a key (R22). -/
theorem CommitInEffect.key_of_receivesKey {r : RangeId} (receives : s.receivesKey r = true) :
    (t.switchRanges s c).key (.range r) =
      if (t.switchRanges s c).table[r].service = .active ∧ (t.switchRanges s c).anyOpen r = true then
        { state := .live, material := some (c.newKey r), generation := some (t.range r).generation, refs := (s.key (.range r)).refs }
      else (s.key (.range r)).erase := by
  have before : t.key (.range r) = s.key (.range r) := congrArg RangeView.key (h.view r)
  rw [switchRanges_key_of_receivesKey receives, before]

/-- A defined range that is kept with its key and has lost its last lock is LIVE while ACTIVE (R22). -/
theorem CommitInEffect.key_of_unlocked {r : RangeId} (receives : s.receivesKey r = false) (defined : s.defined r = true)
    (kept : s.removes r = false) (active : (t.switchRanges s c).table[r].service = .active) (read : (t.range r).fields.readLock = false)
    (write : (t.range r).fields.writeLock = false) (before : (s.range r).fields.readLock = true ∨ (s.range r).fields.writeLock = true) :
    ((t.switchRanges s c).key (.range r)).state = .live := by
  have fields : (t.range r).fields = s.staging[r].fields := by rw [h.fields, kept]; rfl
  have stays : s.stagesRange r := by
    rw [← Bool.not_eq_true, removes_iff] at kept
    exact not_not.1 fun gone => kept ⟨defined, gone⟩
  have loses : s.losesLocks r = true := by
    refine (losesLocks_iff s r).2 ⟨stays, ?_, ?_⟩
    · simpa [RangeFields.anyLock] using before
    · rw [← fields]; simp [RangeFields.anyLock, read, write]
  have opened : (t.switchRanges s c).anyOpen r = true := by
    rw [anyOpen_eq, switchRanges_range, RangeFields.closedBy, read]; rfl
  exact switchRanges_key_of_losesLocks receives loses active opened (h.rootWrap_of_losesLocks receives loses)

end Switch

/-- The close of a RANGE-COMMIT's group: its records take effect, the ranges switch, what is held takes them, and the reply. -/
theorem groupClose_switch {s : State} {c : Commit} (scan : ScanFindings) (status : s.executor.status ≠ .free)
    (job : s.executor.job = .commit c) (ready : s.readyToClose (requestGroup (s.commitRecords c))) :
    ∃ t y staging authTimer, exec (.groupClose scan) s = .next (settle (y.endSwitch staging authTimer)) ∧ CommitInEffect c s t ∧
      y = forEach c.held (fun p s => s.takeHeld p) (t.switchRanges s c) ∧ Aside (t.switchRanges s c) y ∧
      y.executor = s.executor ∧ y.tableGeneration = s.tableGeneration + 1 ∧
      ∀ r : RangeId, staging[r] = { fields := (t.range r).fields, newKey := false } := by
  obtain ⟨t, closes, h⟩ := groupClose_commit scan job ready
  have aside := aside_held (t.switchRanges s c) c.held
  generalize taken : forEach c.held (fun p s => s.takeHeld p) (t.switchRanges s c) = y at aside
  have executor : y.executor = s.executor := by
    have e := congrArg State.executor aside.frame
    exact Eq.trans e h.executor
  have range (r : RangeId) : y.range r = t.range r := (aside.range r).trans (switchRanges_range t s c r)
  obtain ⟨staging, authTimer, ends, restaged⟩ := switch_end taken.symm (by rw [executor]; exact status)
  rw [ends] at closes
  refine ⟨t, y, staging, authTimer, closes, h, taken.symm, aside, executor, ?_, fun r => ?_⟩
  · rw [State.tableGeneration, range, ← h.tableGeneration]; rfl
  · rw [restaged, range]

/-- The entry of a range that receives a key while nothing refers to its entry is not DRAINING after the switch. -/
theorem CommitInEffect.unreferenced_of_receivesKey {c : Commit} {s t : State} (h : CommitInEffect c s t) {r : RangeId}
    (receives : s.receivesKey r = true) (refs : (s.key (.range r)).refs = 0) :
    ((t.switchRanges s c).key (.range r)).refs = 0 ∧ ((t.switchRanges s c).key (.range r)).state ≠ .draining := by
  rw [h.key_of_receivesKey receives]
  split
  · exact ⟨refs, nofun⟩
  · exact ⟨refs, nofun⟩

/-- What is held takes an affected range that is defined after the switch, and only if it was UPDATING (R20). -/
theorem CommitInEffect.takes_held {c : Commit} {s t y : State} (h : CommitInEffect c s t) (nodup : (c.held.map (·.1)).Nodup)
    (taken : y = forEach c.held (fun p s => s.takeHeld p) (t.switchRanges s c)) {r : RangeId} (affected : r ∈ c.affected.map (·.1)) :
    (t.defined r = false → y.table[r].service = .undefined ∧ (y.key (.range r)).state = .empty) ∧
    (t.defined r = true → s.table[r].service = .updating →
      (r ∉ c.held.map (·.1) → y.table[r].service = .active) ∧
      ((r, Held.lockdown) ∈ c.held → y.table[r].service = .lockdown ∧ y.table[r].inForce = (t.range r).fields.response ∧
        (y.key (.range r)).state ≠ .live ∧ ((t.range r).fields.response = .close → y.key (.range r) = emptyKey) ∧
        (s.receivesKey r = true → (s.key (.range r)).refs = 0 → (y.key (.range r)).state = .empty)) ∧
      ((r, Held.erasing) ∈ c.held → y.table[r].service = .erasing ∧ y.key (.range r) = emptyKey ∧ r ∉ y.binding.gated)) := by
  subst taken
  refine ⟨fun undefined => ?_, fun defined updating => ?_⟩
  · obtain ⟨service, empty, -⟩ := switchRanges_undefined (old := s) affected undefined
    have apart := held_of_inactive (t.switchRanges s c) nodup (r := r) (by rw [service]; exact nofun)
    obtain ⟨n, key⟩ := apart.key
    refine ⟨(congrArg RangeLive.service apart.live).trans service, ?_⟩
    rw [key, released_state_of_not_draining (by rw [empty]; exact nofun), empty]
  · have active := h.active_of_updating affected defined updating
    refine ⟨fun other => (congrArg RangeLive.service (apart_held _ other).live).trans active, fun m => ?_,
      fun m => held_erasing _ nodup m active⟩
    obtain ⟨service, inForce, notLive, closed, emptied⟩ := held_lockdown _ nodup m active
    rw [switchRanges_range] at inForce closed
    refine ⟨service, inForce, notLive, closed, fun receives refs => ?_⟩
    obtain ⟨refs', state⟩ := h.unreferenced_of_receivesKey receives refs
    exact emptied refs' state

/-- Settles O56: the close's records take effect, the ranges switch one by one, and what is held takes them. -/
theorem commitSwitchesAtClose : Obligations.CommitSwitchesAtClose := by
  refine ⟨fun s scan c status job held ready => ?_, fun s scan c status job nodup ready => ?_⟩
  · obtain ⟨t, y, staging, authTimer, closes, h, taken, -, executor, generation, restaged⟩ := groupClose_switch scan status job ready
    obtain rfl : y = t.switchRanges s c := by rw [taken, held]; rfl
    have range (r : RangeId) : ((t.switchRanges s c).endSwitch staging authTimer).range r = t.range r := switchRanges_range t s c r
    have cred (i : SlotId) : ((t.switchRanges s c).endSwitch staging authTimer).cred i = t.cred i := switchRanges_cred t s c i
    refine ⟨_, closes, generation, fun r => ?_, fun i => ?_, (mem_withEvent _ _ _).2 (.inl rfl), rfl, h.authority, ?_⟩
    · rw [range]
      refine ⟨h.fields r, restaged r, fun receives => ?_, fun receives => ?_, (h.switched_locks r).1, (h.switched_locks r).2,
        fun affected defined updating => h.active_of_updating affected ((switchRanges_defined t s c r).symm.trans defined) updating,
        fun affected undefined => switchRanges_undefined affected ((switchRanges_defined t s c r).symm.trans undefined),
        h.service_of_notMem, h.rootWrap⟩
      · obtain ⟨number, origin⟩ := h.range_of_receivesKey receives
        have key := h.key_of_receivesKey receives
        refine ⟨number, origin, fun active opened => key.trans (if_pos ⟨active, opened⟩), fun active closed => ?_⟩
        exact congrArg KeyEntry.state (key.trans (if_neg fun loaded => Bool.false_ne_true (closed.symm.trans loaded.2)))
      · obtain ⟨number, origin⟩ := h.range_of_keepsKey receives
        exact ⟨number, origin, fun defined kept active read write before => h.key_of_unlocked receives defined kept active read write before⟩
    · rw [cred]
      refine ⟨h.cred_eq i, fun r => ?_⟩
      rw [range]
      exact ⟨h.wraps_of_taken, h.wrap_of_stays, h.wrap_of_made⟩
    · show _ ++ _ = _
      rw [h.sent, executor, generation]
  · obtain ⟨t, y, staging, authTimer, closes, h, taken, aside, executor, generation, -⟩ := groupClose_switch scan status job ready
    obtain ⟨between, sent, noReply⟩ := aside.sent
    have range (r : RangeId) : y.range r = t.range r := (aside.range r).trans (switchRanges_range t s c r)
    have defined (r : RangeId) : (y.endSwitch staging authTimer).defined r = t.defined r := by
      show decide _ = decide _
      rw [← range r]
      rfl
    refine ⟨_, between, closes, noReply, generation, (mem_withEvent _ _ _).2 (.inl rfl), rfl, ?_, fun r affected => ?_⟩
    · show _ ++ _ = _
      rw [sent, h.sent, executor, generation]
    · have takes := h.takes_held nodup taken affected
      rw [← defined r, ← range r] at takes
      exact takes

end Sys2Proof.Machine

namespace Sys2Proof.Machine

/-! ### Releases and the rest of the state (R36) -/

theorem releaseRefs_nil (s : State) : s.releaseRefs [] = s := rfl

theorem releaseRefs_append (s : State) (l m : List Owner) : (s.releaseRefs l).releaseRefs m = s.releaseRefs (l ++ m) := by
  simp [State.releaseRefs, forEach, List.foldl_append]

/-- An update that neither reads nor writes the Key Cache can be made before or after a release. -/
theorem releaseRefs_comm (f : State → State) (key : ∀ s o, (f s).key o = s.key o)
    (setKey : ∀ s o k, f (s.setKey o k) = (f s).setKey o k) (l : List Owner) (s : State) :
    f (s.releaseRefs l) = (f s).releaseRefs l := by
  induction l generalizing s with
  | nil => rfl
  | cons o l ih =>
    have one : f (s.modKey o KeyEntry.release) = (f s).modKey o KeyEntry.release := by
      rw [State.modKey, setKey, State.modKey, key]
    exact (ih _).trans (congrArg (State.releaseRefs · l) one)

section Releases

variable (s : State) (l : List Owner)

theorem say_releaseRefs (m : Sent) : (s.releaseRefs l).say m = (s.say m).releaseRefs l :=
  releaseRefs_comm (State.say · m) (fun _ o => by cases o <;> rfl) (fun _ o _ => by cases o <;> rfl) l s

theorem setTransfer_releaseRefs (t : Tag) (x : Option Transfer) :
    (s.releaseRefs l).setTransfer t x = (s.setTransfer t x).releaseRefs l :=
  releaseRefs_comm (State.setTransfer · t x) (fun _ o => by cases o <;> rfl) (fun _ o _ => by cases o <;> rfl) l s

@[simp] theorem releaseRefs_inflight : (s.releaseRefs l).inflight = s.inflight :=
  forEach_keeps State.inflight _ (fun o s => State.setKey_inflight s o _) l s

@[simp] theorem releaseRefs_lanes : (s.releaseRefs l).lanes = s.lanes :=
  forEach_keeps State.lanes _ (fun o s => State.setKey_lanes s o _) l s

@[simp] theorem releaseRefs_sent : (s.releaseRefs l).sent = s.sent :=
  forEach_keeps State.sent _ (fun o s => State.setKey_sent s o _) l s

/-- A release changes Key Cache entries alone. -/
theorem releaseRefs_eq :
    s.releaseRefs l = { s with cache := (s.releaseRefs l).cache, shadowEntry := (s.releaseRefs l).shadowEntry } := by
  have aside := forEach_keeps (fun u : State => ({ u with cache := s.cache, shadowEntry := s.shadowEntry } : State))
    (fun o u => u.modKey o KeyEntry.release) (fun o u => by cases o <;> rfl) l s
  have back := congrArg (fun u : State =>
    ({ u with cache := (s.releaseRefs l).cache, shadowEntry := (s.releaseRefs l).shadowEntry } : State)) aside
  exact back

end Releases

/-! ### The references of a transfer (R33) -/

/-- How many references a list of segments holds on an owner's entry. -/
theorem count_keyRefs (l : List Segment) (o : Owner) :
    (l.filterMap (·.keyRef)).count o = (l.filter (fun g => g.keyRef = some o)).length := by
  rw [List.count, List.countP_filterMap, List.countP_eq_length_filter]
  congr 2
  funext g
  cases g.keyRef <;> simp [beq_eq_decide]

/-- The references on an entry held by the segments that satisfy `p`. -/
theorem holds_eq_count (x : Transfer) (o : Owner) (p : Segment → Bool) :
    x.holds o p = ((x.segments.filter p).filterMap (·.keyRef)).count o := by
  rw [count_keyRefs, List.filter_filter]
  unfold Transfer.holds
  congr 2
  funext g
  simp [Bool.and_comm]

theorem holds_all (x : Transfer) (o : Owner) : x.holds o (fun _ => true) = x.refs.count o := by
  rw [holds_eq_count, List.filter_true]; rfl

/-- A change of one segment that takes its reference takes that one from the transfer's. -/
theorem count_refs_modify (l : List Segment) {i : Nat} {g : Segment} (h : l[i]? = some g) (f : Segment → Segment)
    (none : (f g).keyRef = none) (o : Owner) :
    ((l.modify i f).filterMap (·.keyRef)).count o + g.keyRef.toList.count o = (l.filterMap (·.keyRef)).count o := by
  induction l generalizing i with
  | nil => simp at h
  | cons a l ih =>
    cases i with
    | zero =>
      obtain rfl : a = g := by simpa using h
      cases k : a.keyRef <;> simp [none, k, List.count_cons]
    | succ i =>
      have rest := ih (by simpa using h)
      cases k : a.keyRef <;> simp [k, List.count_cons] <;> omega

/-- A change of one segment that keeps its reference keeps all the transfer's. -/
theorem refs_modify (l : List Segment) (i : Nat) (f : Segment → Segment) (keeps : ∀ g, (f g).keyRef = g.keyRef) :
    (l.modify i f).filterMap (·.keyRef) = l.filterMap (·.keyRef) := by
  induction l generalizing i with
  | nil => simp
  | cons a l ih =>
    cases i with
    | zero => simp [List.filterMap_cons, keeps]
    | succ i => simp [List.filterMap_cons, ih]

/-! ### What the ends of segments and transfers do (R32, R33, R36) -/

section Ends

variable {s : State} {t : Tag} {x : Transfer}

theorem discardWaiting_of_entry (h : s.inflight[t] = some x) :
    s.discardWaiting t = (s.setTransfer t (some { x with segments := x.segments.map Segment.discard })).releaseRefs
      ((x.segments.filter (fun g => g.step = .waiting)).filterMap (·.keyRef)) := by
  simp only [State.discardWaiting, h]

theorem endSegment_of_entry (h : s.inflight[t] = some x) {i : Nat} {g : Segment} (segment : x.segments[i]? = some g) (step : SegStep) :
    s.endSegment t i step =
      (s.setTransfer t (some (x.modSegment i (fun g => { g with step := step, keyRef := none })))).releaseRefs g.keyRef.toList := by
  simp only [State.endSegment, h, segment]

theorem endTransfer_of_entry (h : s.inflight[t] = some x) (final : TransferState) :
    s.endTransfer t final = ((s.setTransfer t none).say
      (.completion t final (if final = .aborted then x.abortReason else none)
        (if final = .mediaError ∨ final = .cancelled then x.failingLba else none))).releaseRefs x.refs := by
  simp only [State.endTransfer, h, say_releaseRefs]

end Ends

end Sys2Proof.Machine

namespace Sys2Proof.Machine

/-! ### The Key Cache against the transfers in flight (R33, R34)

`State.keysRight` is put together from what each Key Cache entry is by itself, what each in-flight entry is by itself, and the count of
references. An operation keeps it when it keeps these parts. -/

/-- Material is absent exactly in EMPTY, and a DRAINING entry has references (R34). -/
def KeyEntry.right (e : KeyEntry) : Prop := (e.material = none ↔ e.state = .empty) ∧ (e.state = .draining → 0 < e.refs)

/-- The transfer is live, and only its WAITING and IN_LANE segments hold references, each on its own owner's entry (R33). -/
def Transfer.right (x : Transfer) : Prop :=
  x.live = true ∧ ∀ g ∈ x.segments, ∀ o, g.keyRef = some o → g.owner = o ∧ g.unfinished = true

/-- The references that an in-flight entry holds; none when its tag is free. -/
def entryRefs (x : Option Transfer) : List Owner := (x.map Transfer.refs).getD []

/-- How many references the in-flight table holds on an owner's entry. -/
def heldBy (v : Vector (Option Transfer) 32) (o : Owner) : Nat := (allTags.map (fun t => (entryRefs v[t]).count o)).sum

theorem references_of_right {x : Transfer} (h : x.right) (o : Owner) : x.references o = x.refs.count o := by
  rw [← holds_all]
  unfold Transfer.references Transfer.holds
  congr 1
  refine List.filter_congr fun g m => ?_
  by_cases k : g.keyRef = some o
  · simp [k, (h.2 g m o k).2]
  · simp [k]

theorem references_eq {s : State} (h : ∀ (t : Tag) (x : Transfer), s.inflight[t] = some x → x.right) (o : Owner) :
    s.references o = heldBy s.inflight o := by
  unfold State.references heldBy
  congr 1
  refine List.map_congr_left fun t _ => ?_
  cases entry : s.inflight[t] with
  | none => simp [entryRefs]
  | some x => exact references_of_right (h t x entry) o

theorem keysRight_iff (s : State) : s.keysRight ↔
    (∀ o, (s.key o).right) ∧ (∀ (t : Tag) x, s.inflight[t] = some x → x.right) ∧ ∀ o, (s.key o).refs = heldBy s.inflight o := by
  constructor
  · rintro ⟨material, draining, count, entries⟩
    exact ⟨fun o => ⟨material o, draining o⟩, entries, fun o => (count o).trans (references_eq entries o)⟩
  · rintro ⟨key, entries, count⟩
    exact ⟨fun o => (key o).1, fun o => (key o).2, fun o => (count o).trans (references_eq entries o).symm, entries⟩

/-! #### References counted over the in-flight table -/

theorem sum_map_exchange {α : Type} (l : List α) (nodup : l.Nodup) {a : α} (m : a ∈ l) (f g : α → Nat)
    (others : ∀ b ∈ l, b ≠ a → f b = g b) : (l.map f).sum + g a = (l.map g).sum + f a := by
  induction l with
  | nil => cases m
  | cons b l ih =>
    obtain ⟨notMem, nodup⟩ := List.nodup_cons.1 nodup
    simp only [List.map_cons, List.sum_cons]
    rcases List.mem_cons.1 m with rfl | m
    · have rest : l.map f = l.map g := List.map_congr_left fun b mb => others b (.tail _ mb) fun e => notMem (e ▸ mb)
      rw [rest]; omega
    · have rest := ih nodup m fun b mb => others b (.tail _ mb)
      have head := others b List.mem_cons_self fun e => notMem (e ▸ m)
      omega

/-- Another entry under one tag changes the count by what that entry holds. -/
theorem heldBy_set (v : Vector (Option Transfer) 32) (t : Tag) (new : Option Transfer) (o : Owner) :
    heldBy (v.set t new) o + (entryRefs v[t]).count o = heldBy v o + (entryRefs new).count o := by
  have exchanged := sum_map_exchange allTags (by decide) (allTags_mem t) (fun u => (entryRefs (v.set t new)[u]).count o)
    (fun u => (entryRefs v[u]).count o) fun u _ other => by
      have : t.val ≠ u.val := fun e => other (Fin.ext e.symm)
      simp [this]
  simpa [heldBy] using exchanged

theorem count_le_heldBy (v : Vector (Option Transfer) 32) (t : Tag) (o : Owner) : (entryRefs v[t]).count o ≤ heldBy v o := by
  have := heldBy_set v t none o
  simp only [entryRefs, Option.map_none, Option.getD_none, List.count_nil] at this ⊢
  omega

/-! #### Key Cache entries -/

theorem emptyKey_right : emptyKey.right := by simp [KeyEntry.right, emptyKey]

theorem released_refs (e : KeyEntry) (n : Nat) : (e.released n).refs = e.refs - n := by
  unfold KeyEntry.released
  split
  · next h => exact h.2.1.symm
  · rfl

theorem released_right {e : KeyEntry} (h : e.right) (n : Nat) : (e.released n).right := by
  unfold KeyEntry.released
  split
  · exact emptyKey_right
  · next stays =>
    refine ⟨h.1, fun draining => ?_⟩
    have := h.2 draining
    by_cases none : n = 0
    · simpa [none] using this
    · exact Nat.pos_of_ne_zero fun zero => stays ⟨none, zero, draining⟩

theorem load_right {e : KeyEntry} (key : Key) (generation : Option Count32) (h : e.right) : (e.load key generation).right := by
  unfold KeyEntry.load
  split
  · simp [KeyEntry.right]
  · exact h
  · next draining => exact ⟨by simpa [draining] using h.1, nofun⟩

theorem load_refs (e : KeyEntry) (key : Key) (generation : Option Count32) : (e.load key generation).refs = e.refs := by
  unfold KeyEntry.load; split <;> rfl

theorem makeLive_right {e : KeyEntry} (h : e.right) : e.makeLive.right := by
  unfold KeyEntry.makeLive
  split
  · exact h
  · exact h
  · next draining => exact ⟨by simpa [draining] using h.1, nofun⟩

theorem makeLive_refs (e : KeyEntry) : e.makeLive.refs = e.refs := by
  unfold KeyEntry.makeLive; split <;> rfl

theorem erase_right (e : KeyEntry) : e.erase.right := by simp [KeyEntry.right, KeyEntry.erase]

theorem drain_right {e : KeyEntry} (h : e.right) : e.drain.right := by
  unfold KeyEntry.drain
  split
  · next live =>
    split
    · exact erase_right e
    · next held => exact ⟨by simpa [live] using h.1, fun _ => Nat.pos_of_ne_zero held⟩
  · exact h
  · exact h

/-! #### Updates of the state -/

namespace State.keysRight

variable {s u : State} (h : s.keysRight)
include h

theorem entry_right {t : Tag} {x : Transfer} (entry : s.inflight[t] = some x) : x.right := ((keysRight_iff s).1 h).2.1 t x entry

/-- An update that leaves the Key Cache and the in-flight table. -/
theorem same (inflight : u.inflight = s.inflight) (cache : u.cache = s.cache) (shadowEntry : u.shadowEntry = s.shadowEntry) :
    u.keysRight := by
  have key (o : Owner) : u.key o = s.key o := by cases o <;> simp [State.key, cache, shadowEntry]
  rw [keysRight_iff] at h ⊢
  simpa only [key, inflight] using h

/-- A change of one entry that keeps its count. -/
theorem modKey (o : Owner) {f : KeyEntry → KeyEntry} (right : ∀ e : KeyEntry, e.right → (f e).right)
    (refs : ∀ e : KeyEntry, (f e).refs = e.refs) : (s.modKey o f).keysRight := by
  obtain ⟨key, entries, count⟩ := (keysRight_iff s).1 h
  have inflight : (s.modKey o f).inflight = s.inflight := State.setKey_inflight s o _
  rw [keysRight_iff, inflight]
  refine ⟨fun p => ?_, entries, fun p => ?_⟩
  · rw [key_modKey]; split
    · exact right _ (key p)
    · exact key p
  · rw [key_modKey, apply_ite KeyEntry.refs, refs, ite_self, count]

/-- An in-flight entry is exchanged for another, and the references that this takes are released. -/
theorem exchange (t : Tag) (new : Option Transfer) (l : List Owner) (right : ∀ x, new = some x → x.right)
    (count : ∀ o, (entryRefs new).count o + l.count o = (entryRefs s.inflight[t]).count o) :
    ((s.setTransfer t new).releaseRefs l).keysRight := by
  obtain ⟨key, entries, refs⟩ := (keysRight_iff s).1 h
  have before (o : Owner) : (s.setTransfer t new).key o = s.key o := by cases o <;> rfl
  rw [keysRight_iff, releaseRefs_inflight]
  simp only [releaseRefs_key, before]
  show _ ∧ (∀ (u : Tag) x, (s.inflight.set t new)[u] = some x → _) ∧ ∀ o, _ = heldBy (s.inflight.set t new) o
  refine ⟨fun o => released_right (key o) _, fun u x entry => ?_, fun o => ?_⟩
  · by_cases same : u = t
    · subst same; exact right x (by simpa using entry)
    · have : t.val ≠ u.val := fun e => same (Fin.ext e.symm)
      exact entries u x (by simpa [this] using entry)
  · have exchanged := heldBy_set s.inflight t new o
    have atMost := count_le_heldBy s.inflight t o
    rw [released_refs, refs]
    have := count o
    omega

/-- An in-flight entry is exchanged for one that holds the same references. -/
theorem replace (t : Tag) {x y : Transfer} (entry : s.inflight[t] = some x) (right : y.right) (refs : y.refs = x.refs) :
    (s.setTransfer t (some y)).keysRight :=
  h.exchange t (some y) [] (fun _ e => Option.some.inj e ▸ right) fun o => by simp [entry, entryRefs, refs]

theorem ite {c : Prop} [Decidable c] (k : u.keysRight) : (if c then s else u).keysRight := by split <;> assumption

theorem forEach {α : Type} {f : α → State → State} (step : ∀ a (s : State), s.keysRight → (f a s).keysRight) (l : List α) :
    (forEach l f s).keysRight := by
  induction l generalizing s with
  | nil => exact h
  | cons a l ih => exact ih (step a s h)

end State.keysRight

end Sys2Proof.Machine

namespace Sys2Proof.Machine

/-! ### The fixed-size tables -/

@[simp] theorem tab32_get {α : Type} (f : Fin 32 → α) (t : Fin 32) : (tab32 f)[t] = f t := by fin_cases t <;> rfl
@[simp] theorem tab16_get {α : Type} (f : Fin 16 → α) (r : Fin 16) : (tab16 f)[r] = f r := by fin_cases r <;> rfl
@[simp] theorem tab8_get {α : Type} (f : Fin 8 → α) (i : Fin 8) : (tab8 f)[i] = f i := by fin_cases i <;> rfl
@[simp] theorem tab4_get {α : Type} (f : Fin 4 → α) (l : Fin 4) : (tab4 f)[l] = f l := by fin_cases l <;> rfl

theorem inflight_set_same (v : Vector (Option Transfer) 32) (t : Tag) (x : Option Transfer) : (v.set t x)[t] = x := by simp
theorem inflight_set_other (v : Vector (Option Transfer) 32) {t u : Tag} (x : Option Transfer) (h : u ≠ t) :
    (v.set t x)[u] = v[u] := by
  have : t.val ≠ u.val := fun e => h (Fin.ext e.symm)
  simp [this]

/-! ### Transfers that change with their references -/

theorem of_mem_modify {α : Type} {l : List α} {i : Nat} {f : α → α} {b : α} (m : b ∈ l.modify i f) : b ∈ l ∨ ∃ a ∈ l, b = f a := by
  obtain ⟨j, e⟩ := List.mem_iff_getElem?.1 m
  rw [List.getElem?_modify] at e
  cases old : l[j]? with
  | none => simp [old] at e
  | some a =>
    have mem := List.mem_of_getElem? old
    simp only [old, Option.map_eq_map, Option.map_some, Option.some.injEq] at e
    split at e
    · exact .inr ⟨a, mem, e.symm⟩
    · exact .inl (e ▸ mem)

/-- Discarding the WAITING segments takes their references from the transfer's. -/
theorem count_refs_discard (l : List Segment) (o : Owner) :
    ((l.map Segment.discard).filterMap (·.keyRef)).count o +
      ((l.filter (fun g => g.step = .waiting)).filterMap (·.keyRef)).count o = (l.filterMap (·.keyRef)).count o := by
  rw [List.filterMap_map]
  induction l with
  | nil => rfl
  | cons g l ih =>
    by_cases w : g.step = .waiting <;> cases k : g.keyRef <;>
      simp [Segment.discard, w, k, List.count_cons] <;> omega

namespace Transfer.right

variable {x : Transfer} (h : x.right)
include h

/-- Segments that hold no references that their transfer did not hold. -/
theorem withSegments {l : List Segment}
    (segments : ∀ g ∈ l, g.keyRef = none ∨ ∃ a ∈ x.segments, g.keyRef = a.keyRef ∧ g.owner = a.owner ∧ (a.unfinished = true → g.unfinished = true)) :
    ({ x with segments := l } : Transfer).right := by
  refine ⟨h.1, fun g m o ref => ?_⟩
  rcases segments g m with none | ⟨a, mem, keyRef, owner, unfinished⟩
  · cases none.symm.trans ref
  · obtain ⟨owned, unfinished'⟩ := h.2 a mem o (keyRef.symm.trans ref)
    exact ⟨owner.trans owned, unfinished unfinished'⟩

theorem modSegment (i : Nat) {f : Segment → Segment}
    (segment : ∀ a : Segment, (f a).keyRef = none ∨ (f a).keyRef = a.keyRef ∧ (f a).owner = a.owner ∧ (a.unfinished = true → (f a).unfinished = true)) :
    (x.modSegment i f).right :=
  h.withSegments fun g m => by
    rcases of_mem_modify m with m | ⟨a, old, rfl⟩
    · exact .inr ⟨g, m, rfl, rfl, id⟩
    · exact (segment a).imp_right fun same => ⟨a, old, same⟩

theorem discard : ({ x with segments := x.segments.map Segment.discard } : Transfer).right :=
  h.withSegments fun g m => by
    obtain ⟨a, old, rfl⟩ := List.mem_map.1 m
    unfold Segment.discard
    split
    · exact .inl rfl
    · exact .inr ⟨a, old, rfl, rfl, id⟩

end Transfer.right

/-! ### The ends of segments and transfers -/

theorem endTransfer_inflight (s : State) (t : Tag) (final : TransferState) : (s.endTransfer t final).inflight = s.inflight.set t none := by
  cases entry : s.inflight[t] with
  | none =>
    have same : s.inflight.set t none = s.inflight := by rw [← entry]; exact Vector.set_getElem_self t.isLt
    simp only [State.endTransfer, entry, same]
  | some x => rw [endTransfer_of_entry entry, releaseRefs_inflight]; rfl

theorem endSegment_inflight_other (s : State) {t u : Tag} (h : u ≠ t) (i : Nat) (step : SegStep) :
    (s.endSegment t i step).inflight[u] = s.inflight[u] := by
  cases entry : s.inflight[t] with
  | none => simp only [State.endSegment, entry]
  | some x =>
    simp only [State.endSegment, entry, releaseRefs_inflight]
    exact inflight_set_other _ _ h

theorem laneOf_task {s : State} {t : Tag} {l : LaneId} (h : s.laneOf t = some l) : ∃ i, s.lanes[l].task = some (.transfer t i) := by
  have found := List.find?_some h
  split at found
  · next u i task => exact ⟨i, (of_decide_eq_true found) ▸ task⟩
  · cases found

/-- A stop of a lane reaches the in-flight entry of its own transfer alone, and ends it when it is complete at once (R38, R45). -/
theorem stopLane_inflight {s : State} {l : LaneId} {t : Tag} {i : Nat} (task : s.lanes[l].task = some (.transfer t i)) :
    (s.stopLane l).inflight = s.inflight ∨
      (s.stopLane l).inflight[t] = none ∧ ∀ u, u ≠ t → (s.stopLane l).inflight[u] = s.inflight[u] := by
  unfold State.stopLane State.reportIfStopped
  split
  · refine .inr ?_
    have working : (s.setLane l { s.lanes[l] with stopping := true, fetched := [] }).lanes[l].task = some (.transfer t i) := by
      simpa [State.setLane] using task
    simp only [State.reportStop, working, endTransfer_inflight]
    refine ⟨inflight_set_same _ _ _, fun u other => ?_⟩
    rw [inflight_set_other _ _ other, endSegment_inflight_other _ other]
    rfl
  · exact .inl rfl

/-- The entry of a transfer that an abort has reached: all its references are released (R37). -/
def Transfer.aborting (x : Transfer) (reason : AbortReason) : Transfer :=
  { x with
    segments := x.segments.map (fun g => { g.discard with keyRef := none }), state := .aborting, abortReason := some reason }

theorem aborting_refs (x : Transfer) (reason : AbortReason) : (x.aborting reason).refs = [] := by
  simp [Transfer.refs, Transfer.aborting, List.filterMap_map]

theorem aborting_right (x : Transfer) (reason : AbortReason) : (x.aborting reason).right := by
  refine ⟨rfl, fun g m o ref => ?_⟩
  obtain ⟨a, -, rfl⟩ := List.mem_map.1 m
  cases ref

/-- An abort of a transfer leaves its entry gone or without references, and every other entry as it was (R37). -/
theorem abortTransfer_inflight (s : State) (t : Tag) (reason : AbortReason) :
    entryRefs (s.abortTransfer t reason).inflight[t] = [] ∧
      ∀ u, u ≠ t → (s.abortTransfer t reason).inflight[u] = s.inflight[u] := by
  cases entry : s.inflight[t] with
  | none => simp [State.abortTransfer, entry, entryRefs]
  | some x =>
    have aborted : s.abortTransfer t reason =
        match s.laneOf t with
        | some l => ((s.setTransfer t (some (x.aborting reason))).releaseRefs x.refs).stopLane l
        | none => ((s.setTransfer t (some (x.aborting reason))).releaseRefs x.refs).endTransfer t .aborted := by
      simp only [State.abortTransfer, entry]
      rfl
    have marked (u : Tag) : ((s.setTransfer t (some (x.aborting reason))).releaseRefs x.refs).inflight[u] =
        if u = t then some (x.aborting reason) else s.inflight[u] := by
      rw [releaseRefs_inflight]
      split
      · next e => subst e; exact inflight_set_same _ _ _
      · next e => exact inflight_set_other _ _ e
    rw [aborted]
    cases lane : s.laneOf t with
    | none =>
      simp only [endTransfer_inflight]
      refine ⟨by rw [inflight_set_same]; rfl, fun u other => ?_⟩
      rw [inflight_set_other _ _ other, marked, if_neg other]
    | some l =>
      obtain ⟨i, task⟩ := laneOf_task lane
      have task' : ((s.setTransfer t (some (x.aborting reason))).releaseRefs x.refs).lanes[l].task = some (.transfer t i) := by
        rw [releaseRefs_lanes]; exact task
      rcases stopLane_inflight task' with same | ⟨gone, others⟩
      · simp only [same]
        refine ⟨?_, fun u other => by rw [marked, if_neg other]⟩
        rw [marked, if_pos rfl]
        exact aborting_refs x reason
      · refine ⟨by simp only [gone]; rfl, fun u other => ?_⟩
        simp only [others u other]
        rw [marked, if_neg other]

namespace State.keysRight

variable {s : State} (h : s.keysRight)
include h

theorem say (m : Sent) : (s.say m).keysRight := h.same rfl rfl rfl
theorem setLane (l : LaneId) (x : Lane) : (s.setLane l x).keysRight := h.same rfl rfl rfl

theorem discardWaiting (t : Tag) : (s.discardWaiting t).keysRight := by
  cases entry : s.inflight[t] with
  | none => simpa only [State.discardWaiting, entry] using h
  | some x =>
    rw [discardWaiting_of_entry entry]
    refine h.exchange t _ _ (fun y e => Option.some.inj e ▸ (h.entry_right entry).discard) fun o => ?_
    rw [entry]
    exact count_refs_discard x.segments o

theorem endSegment (t : Tag) (i : Nat) (step : SegStep) : (s.endSegment t i step).keysRight := by
  cases entry : s.inflight[t] with
  | none => simpa only [State.endSegment, entry] using h
  | some x =>
    have right : (x.modSegment i (fun g => { g with step := step, keyRef := none })).right :=
      (h.entry_right entry).modSegment i fun _ => .inl rfl
    cases segment : x.segments[i]? with
    | none =>
      have unchanged : x.modSegment i (fun g => { g with step := step, keyRef := none }) = x := by
        rw [Transfer.modSegment, List.modify_eq_self (by simpa using segment)]
      simp only [State.endSegment, entry, segment, releaseRefs_nil]
      exact h.replace t entry right (by rw [unchanged])
    | some g =>
      rw [endSegment_of_entry entry segment]
      refine h.exchange t _ _ (fun y e => Option.some.inj e ▸ right) fun o => ?_
      rw [entry]
      exact count_refs_modify x.segments segment _ rfl o

theorem endTransfer (t : Tag) (final : TransferState) : (s.endTransfer t final).keysRight := by
  cases entry : s.inflight[t] with
  | none => simpa only [State.endTransfer, entry] using h
  | some x =>
    simp only [State.endTransfer, entry]
    refine (h.exchange t none x.refs nofun fun o => ?_).say _
    rw [entry]
    simp [entryRefs]

theorem reportStop (l : LaneId) : (s.reportStop l).keysRight := by
  unfold State.reportStop
  dsimp only
  split
  · exact ((h.setLane l _).endSegment _ _ _).endTransfer _ _
  · exact h.setLane l _

theorem reportIfStopped (l : LaneId) : (s.reportIfStopped l).keysRight := (h.reportStop l).ite h

theorem stopLane (l : LaneId) : (s.stopLane l).keysRight := (h.setLane l _).reportIfStopped l

theorem abortTransfer (t : Tag) (reason : AbortReason) : (s.abortTransfer t reason).keysRight := by
  cases entry : s.inflight[t] with
  | none => simpa only [State.abortTransfer, entry] using h
  | some x =>
    have marked : ((s.setTransfer t (some (x.aborting reason))).releaseRefs x.refs).keysRight := by
      refine h.exchange t _ _ (fun y e => Option.some.inj e ▸ aborting_right x reason) fun o => ?_
      rw [entry]
      simp [entryRefs, aborting_refs]
    simp only [State.abortTransfer, entry]
    split
    · exact marked.stopLane _
    · exact marked.endTransfer _ _

/-- The sweep of an abort over the tags: none of those it has passed holds a reference on the owner's entry any more (R37). -/
theorem sweep (o : Owner) (reason : AbortReason) (l : List Tag) :
    let swept := Machine.forEach l (fun t s =>
      match s.inflight[t] with
      | some x => if x.live ∧ x.segments.any (fun g => g.owner = o) then s.abortTransfer t (x.firstReason reason) else s
      | none => s) s
    swept.keysRight ∧ ∀ t : Tag, t ∈ l ∨ (entryRefs s.inflight[t]).count o = 0 → (entryRefs swept.inflight[t]).count o = 0 := by
  induction l generalizing s with
  | nil => exact ⟨h, fun t free => free.resolve_left List.not_mem_nil⟩
  | cons a l ih =>
    have step : ∃ u, u = (match s.inflight[a] with
        | some x => if x.live ∧ x.segments.any (fun g => g.owner = o) then s.abortTransfer a (x.firstReason reason) else s
        | none => s) ∧ u.keysRight ∧
        ∀ t : Tag, t = a ∨ (entryRefs s.inflight[t]).count o = 0 → (entryRefs u.inflight[t]).count o = 0 := by
      refine ⟨_, rfl, ?_⟩
      cases entry : s.inflight[a] with
      | none => exact ⟨h, fun t free => free.elim (fun e => by rw [e, entry]; rfl) id⟩
      | some x =>
        have right := h.entry_right entry
        dsimp only
        split
        · obtain ⟨gone, others⟩ := abortTransfer_inflight s a (x.firstReason reason)
          refine ⟨h.abortTransfer a _, fun t free => ?_⟩
          by_cases e : t = a
          · subst e; simp only [gone, List.count_nil]
          · rw [others t e]; exact free.resolve_left e
        · next unowned =>
          refine ⟨h, fun t free => free.elim (fun e => ?_) id⟩
          rw [e, entry]
          refine List.count_eq_zero.2 fun m => unowned ⟨right.1, ?_⟩
          obtain ⟨g, mg, ref⟩ := List.mem_filterMap.1 m
          exact List.any_eq_true.2 ⟨g, mg, by simpa using (right.2 g mg o ref).1⟩
    obtain ⟨u, e, right, free⟩ := step
    obtain ⟨done, freed⟩ := ih right
    subst e
    refine ⟨done, fun t m => freed t ?_⟩
    rcases m with m | m
    · exact (List.mem_cons.1 m).symm.imp_right fun e => free t (.inl e)
    · exact .inr (free t (.inr m))

theorem abortOwner (o : Owner) (reason : AbortReason) : (s.abortOwner o reason).keysRight := by
  obtain ⟨right, free⟩ := h.sweep o reason allTags
  unfold State.abortOwner
  generalize Machine.forEach allTags _ s = swept at right free
  obtain ⟨key, entries, refs⟩ := (keysRight_iff _).1 right
  have none : heldBy swept.inflight o = 0 := by
    unfold heldBy
    rw [List.sum_eq_zero_iff]
    intro n m
    obtain ⟨t, mt, rfl⟩ := List.mem_map.1 m
    exact free t (.inl mt)
  have emptied (p : Owner) : (swept.setKey o emptyKey).key p = if o = p then emptyKey else swept.key p :=
    key_modKey swept o p (fun _ => emptyKey)
  rw [keysRight_iff, State.setKey_inflight]
  refine ⟨fun p => ?_, entries, fun p => ?_⟩
  · rw [emptied]; split
    · exact emptyKey_right
    · exact key p
  · rw [emptied]; split
    · next e => rw [← e, none]; rfl
    · exact refs p

theorem abortAll : s.abortAll.keysRight := h.forEach (fun t _ h => (h.abortTransfer t _).ite h) _

end State.keysRight

end Sys2Proof.Machine

namespace Sys2Proof.Machine

namespace State.keysRight

variable {s : State} (h : s.keysRight)
include h

/-! #### Lanes (R38, R41, R42) -/

theorem issueBlock (l : LaneId) (x : Transfer) (g : Segment) (n : Nat) : (s.issueBlock l x g n).keysRight := by
  unfold State.issueBlock
  dsimp only
  split <;> exact h.same rfl rfl rfl

theorem issueOne (l : LaneId) : (s.issueOne l).keysRight := by
  unfold State.issueOne
  split
  · split
    · split
      · split
        · exact h.issueBlock _ _ _ _
        · exact h
      · exact h
    · exact h
  · exact h

theorem fillLane (l : LaneId) : (s.fillLane l).keysRight := h.forEach (fun _ _ h => h.issueOne l) _

theorem completeSegment (l : LaneId) (t : Tag) (i : Nat) : (s.completeSegment l t i).keysRight := by
  have done : ((s.setLane l idleLane).endSegment t i .finished).keysRight := (h.setLane l _).endSegment t i _
  unfold State.completeSegment
  dsimp only
  split
  · exact done
  · split
    · exact (done.endTransfer t _).ite done
    · exact done.endTransfer t _
    · exact done

theorem failSegment (l : LaneId) (t : Tag) (i : Nat) : (s.failSegment l t i).keysRight := by
  have stopped (lane : Lane) : (((s.setLane l lane).endSegment t i .stopped).discardWaiting t).keysRight :=
    ((h.setLane l lane).endSegment t i _).discardWaiting t
  unfold State.failSegment
  dsimp only
  split
  · exact stopped _
  · split <;> exact (stopped _).endTransfer t _

theorem failIfReady (l : LaneId) (t : Tag) (i : Nat) : (s.failIfReady l t i).keysRight := by
  unfold State.failIfReady
  split
  · exact h
  · split
    · exact (h.failSegment l t i).ite h
    · exact h

/-- One more block moved leaves the transfer's references. -/
theorem raiseProgress {t : Tag} {x : Transfer} (entry : s.inflight[t] = some x) (i : Nat) :
    (s.setTransfer t (some (x.modSegment i (fun g => { g with progress := g.progress + 1 })))).keysRight :=
  h.replace t entry ((h.entry_right entry).modSegment i fun _ => .inr ⟨rfl, rfl, id⟩) (refs_modify _ _ _ fun _ => rfl)

theorem moveBlock (l : LaneId) (t : Tag) (i : Nat) : (s.moveBlock l t i).keysRight := by
  unfold State.moveBlock
  split
  · exact h
  · next entry =>
    split
    · exact h
    · have moved := h.raiseProgress entry i
      exact (moved.completeSegment l t i).ite ((moved.fillLane l).failIfReady l t i)

theorem answerTransfer (l : LaneId) (t : Tag) (i : Nat) (data : List Byte) : (s.answerTransfer l t i data).keysRight := by
  unfold State.answerTransfer
  split
  · exact h
  · dsimp only
    split
    · exact (h.setLane l _).reportIfStopped l
    · split
      · exact h.setLane l _
      · split
        · exact (h.setLane l _).ite ((h.setLane l _).setLane l _)
        · exact ((h.setLane l _).failIfReady l t i).ite ((h.setLane l _).moveBlock l t i)

theorem deliverTransfer (l : LaneId) (t : Tag) (i : Nat) : (s.deliverTransfer l t i).keysRight := by
  unfold State.deliverTransfer
  split
  · exact h
  · split
    · exact h
    · split
      · exact h
      · split
        · exact (h.say _).moveBlock l t i
        · split
          · exact h
          · exact ((h.setLane l _).say _).moveBlock l t i

theorem errorTransfer (l : LaneId) (t : Tag) (i n : Nat) : (s.errorTransfer l t i n).keysRight := by
  unfold State.errorTransfer
  split
  · exact h
  · next m _ _ =>
    split
    · exact h
    · dsimp only
      split
      · exact (h.setLane l _).reportIfStopped l
      · split
        · exact (h.setLane l _).failIfReady l t i
        · split
          · exact h.setLane l _
          · next x entry =>
            have right : x.right := h.entry_right entry
            exact (((h.setLane l _).setLane l _).replace t (y := { x with failingLba := some m }) entry right rfl).failIfReady l t i

theorem answerCleared (l : LaneId) : (s.answerCleared l).keysRight := by
  unfold State.answerCleared
  split
  · exact h
  · exact (h.setLane l _).reportIfStopped l

/-! #### Replies, authority and submissions (R72, R78, R164) -/

theorem raise (k : EventKind) : (s.raise k).keysRight := h.same rfl rfl rfl
theorem setBinding (b : Binding) : (s.setBinding b).keysRight := h.same rfl rfl rfl
theorem setWipe (w : Wipe) : (s.setWipe w).keysRight := h.same rfl rfl rfl
theorem setLockdown (x : LockdownRecord) : (s.setLockdown x).keysRight := h.same rfl rfl rfl
theorem modRange (r : RangeId) (f : RangeLive → RangeLive) : (s.modRange r f).keysRight := h.same rfl rfl rfl
theorem ungate (r : RangeId) : (s.ungate r).keysRight := h.same rfl rfl rfl
theorem restage (r : RangeId) : (s.restage r).keysRight := h.same rfl rfl rfl
theorem setOpenAt (i : SlotId) (t : Nat) : (s.setOpenAt i t).keysRight := h.same rfl rfl rfl
theorem startJob (j : Job) (stage : JobStage) : (s.startJob j stage).keysRight := h.same rfl rfl rfl
theorem reachTime (t : Nat) : (s.reachTime t).keysRight := h.same rfl rfl rfl
theorem draw : s.draw.2.keysRight := h.same rfl rfl rfl
theorem withPower (p : Power) : ({ s with power := p } : State).keysRight := h.same rfl rfl rfl
theorem endAuthority : s.endAuthority.keysRight := h.same rfl rfl rfl
theorem revokeAuthority : s.revokeAuthority.keysRight := (h.endAuthority.raise _).ite h.endAuthority

theorem reply (code : Code) (payload : Payload) : (s.reply code payload).keysRight := by
  unfold State.reply
  split
  · exact h.same rfl rfl rfl
  · exact h.same rfl rfl rfl
  · exact h

theorem restartIdle : s.restartIdle.keysRight := by
  rw [restartIdle_eq]; exact h.same rfl rfl rfl

theorem take (kind : Nat) (tag : Byte) : (s.take kind tag).keysRight := by
  rw [take_eq]; exact h.same rfl rfl rfl

theorem submit (g : Group) : (s.submit g).keysRight := by
  unfold State.submit
  split
  · exact h.same rfl rfl rfl
  · exact h

/-! #### Keys and ranges (R5, R11, R12, R35) -/

theorem loadRange (r : RangeId) (key : Key) : (s.loadRange r key).keysRight :=
  h.modKey _ (fun _ => load_right _ _) fun _ => load_refs _ _ _

theorem loadFromRoot (r : RangeId) : (s.loadFromRoot r).keysRight := by
  unfold State.loadFromRoot
  split
  · exact h.loadRange r _
  · exact h

theorem loadShadow : s.loadShadow.keysRight := h.modKey _ (fun _ => load_right _ _) fun _ => load_refs _ _ _
theorem emptyKeyOf (o : Owner) : (s.emptyKeyOf o).keysRight := h.modKey o (fun e _ => erase_right e) fun _ => rfl
theorem drainKey (o : Owner) : (s.drainKey o).keysRight := h.modKey o (fun _ => drain_right) drain_refs
theorem makeLive (o : Owner) : (s.modKey o KeyEntry.makeLive).keysRight := h.modKey o (fun _ => makeLive_right) makeLive_refs
theorem drainIfClosed (r : RangeId) : (s.drainIfClosed r).keysRight := (h.drainKey _).ite h
theorem closeRange (r : RangeId) : (s.closeRange r).keysRight := h.modRange r _
theorem relock : s.relock.keysRight := h.forEach (fun r _ h => (h.closeRange r).drainIfClosed r) _
theorem setLocks (r : RangeId) (d : DirSet) (b : Bool) : (s.setLocks r d b).keysRight := h.modRange r _

theorem applyUnlock (i : SlotId) (u : Unwrap) (x : Unlock) : (s.applyUnlock i u x).keysRight := by
  have opened : ((s.setLocks x.range x.dirs false).ungate x.range).keysRight := (h.setLocks _ _ _).ungate _
  unfold State.applyUnlock
  dsimp only
  split
  · exact opened.makeLive _
  · split
    · exact opened.loadRange _ _
    · exact opened

theorem revertCommit (c : Commit) : (s.revertCommit c).keysRight :=
  h.forEach (fun _ _ h => ((h.modRange _ _).drainIfClosed _).ite h) _

theorem endCommit (code : Code) (payload : Payload) : (s.endCommit code payload).keysRight := by
  unfold State.endCommit
  split
  · exact (h.revertCommit _).reply _ _
  · exact h

theorem holdAgainst (r : RangeId) (x : Held) : (s.holdAgainst r x).keysRight := by
  unfold State.holdAgainst
  split
  · exact h.same rfl rfl rfl
  · exact h

theorem lockRangeDown (r : RangeId) : (s.lockRangeDown r).keysRight := by
  unfold State.lockRangeDown
  dsimp only
  split
  · exact (h.modRange r _).drainKey _
  · exact (h.modRange r _).abortOwner _ _

theorem lockdownRange (r : RangeId) : (s.lockdownRange r).keysRight := by
  unfold State.lockdownRange
  split
  · exact h.lockRangeDown r
  · exact h.holdAgainst r _
  all_goals exact h

theorem enterLockdown : s.enterLockdown.keysRight :=
  ((h.endCommit _ _).ite h).forEach (fun r _ h => h.lockdownRange r) _

theorem unlockdownRange (r : RangeId) : (s.unlockdownRange r).keysRight := by
  have active : ((s.modRange r (fun e => { e with service := .active })).closeRange r).keysRight := (h.modRange r _).closeRange r
  exact ((active.loadFromRoot r).ite ((active.makeLive _).ite active)).ite h

theorem leaveLockdown : s.leaveLockdown.keysRight := h.forEach (fun r _ h => h.unlockdownRange r) _

theorem eraseRange (r : RangeId) : (s.eraseRange r).keysRight := ((h.modRange r _).ungate r).abortOwner _ _

theorem markErasing (r : RangeId) : (s.markErasing r).keysRight := by
  have ended := h.endCommit .slotState (.range (some r))
  unfold State.markErasing
  split
  · exact h.eraseRange r
  · exact h.eraseRange r
  · exact h
  · exact h
  · exact ((ended.eraseRange r).ite ended).ite ((h.holdAgainst r _).ungate r)

theorem noteRelocked {f : State → State} (step : ∀ {s : State}, s.keysRight → (f s).keysRight) : (noteRelocked f s).keysRight :=
  ((step h).withPower _).ite (step h)

theorem dropRange (r : RangeId) : (s.dropRange r).keysRight :=
  (((h.closeRange r).drainKey _).ite (h.closeRange r)).ite h

theorem sleepDropAll : s.sleepDropAll.keysRight := h.forEach (fun r _ h => h.dropRange r) _

/-! #### The Wipe Engine (R125 to R133) -/

theorem submitPlan (p : WipePlan) (l : List Record) (e : List Effect) (b : Bool) : (s.submitPlan p l e b).keysRight :=
  (h.setWipe _).submit _

theorem markTarget (o : Owner) : (s.markTarget o).keysRight := by
  cases o with
  | range r => exact h.markErasing r
  | shadow => exact h.abortOwner .shadow .erase

theorem markAccepted (targets : List Owner) (full : Bool) : (s.markAccepted targets full).keysRight := by
  have marked := h.forEach (f := fun t s => s.markTarget t) (fun t _ h => h.markTarget t)
    (targets.filter (fun t => (s.wipe.intended.item t).isNone))
  have ranges := marked.forEach (f := fun r s => if s.defined r then s.markErasing r else s)
    (fun r _ h => (h.markErasing r).ite h) allRanges
  exact ((ranges.abortOwner _ _).ite ranges).ite marked

theorem acceptWipe (targets : List Owner) (overwrite full answers : Bool) : (s.acceptWipe targets overwrite full answers).1.keysRight := by
  unfold State.acceptWipe
  dsimp only
  split
  · exact h
  · exact (h.noteRelocked fun h => h.markAccepted _ _).submitPlan _ _ _ _

theorem stepSent : s.stepSent.keysRight := h.setWipe _

theorem keyStepRange (r : RangeId) : (s.keyStepRange r).keysRight := by
  unfold State.keyStepRange
  dsimp only
  split
  · exact h.ite (h.submit _).stepSent
  · exact h.ite (h.draw.submitPlan _ _ _ _).stepSent

theorem keyStepShadow : s.keyStepShadow.keysRight := h.ite (h.draw.submitPlan _ _ _ _).stepSent

theorem skipItem (o : Owner) : (s.skipItem o).keysRight := (h.submitPlan _ _ _ _).stepSent

theorem beginItem (o : Owner) : (s.beginItem o).keysRight := by
  cases o with
  | shadow => exact h.keyStepShadow
  | range r =>
    have marked : (if s.defined r then Machine.noteRelocked (fun s => s.markErasing r) s else s).keysRight :=
      (h.noteRelocked fun h => h.markErasing r).ite h
    unfold State.beginItem
    dsimp only
    split
    · exact marked
    · exact marked.skipItem _
    · exact marked.keyStepRange r

theorem finishOverwrite (o : Owner) : (s.finishOverwrite o).keysRight := ((h.setWipe _).submitPlan _ _ _ _).stepSent

theorem askLane (o : Owner) : (s.askLane o).keysRight := by
  unfold State.askLane
  split
  · exact h.finishOverwrite o
  · exact h.setWipe _

theorem startOverwrite : s.startOverwrite.keysRight := by
  unfold State.startOverwrite
  split
  · exact h
  · exact ((h.setWipe _).askLane _).ite h

theorem resumeOverwrite : s.resumeOverwrite.keysRight := h.startOverwrite.ite h

theorem issueOverwrite (l : LaneId) : (s.issueOverwrite l).keysRight := by
  unfold State.issueOverwrite
  split
  · exact ((h.setLane l _).say _).ite h
  · exact h

theorem fillOverwrite (l : LaneId) : (s.fillOverwrite l).keysRight := h.forEach (fun _ _ h => h.issueOverwrite l) _

theorem overwriteMoved (o : Owner) (next written : Nat) : (s.overwriteMoved o next written).keysRight := by
  unfold State.overwriteMoved
  dsimp only
  split
  · exact (h.setWipe _).finishOverwrite o
  · refine ite (askLane (ite ?cursored ?placed) o) (ite ?cursored ?placed)
    case cursored => exact (((h.setWipe _).setWipe _).setWipe _).submitPlan _ _ _ _
    case placed => exact (h.setWipe _).setWipe _

theorem endOverwriteSegment (l : LaneId) (next written : Nat) : (s.endOverwriteSegment l next written).keysRight := by
  unfold State.endOverwriteSegment
  dsimp only
  split
  · exact (h.setLane l _).overwriteMoved _ _ _
  · exact h.setLane l _

theorem answerOverwrite (l : LaneId) (first count progress : Nat) : (s.answerOverwrite l first count progress).keysRight := by
  unfold State.answerOverwrite
  split
  · exact h
  · dsimp only
    split
    · exact (h.setLane l _).reportIfStopped l
    · split
      · exact ((h.setLane l _).endOverwriteSegment l _ _).ite (h.setLane l _)
      · exact ((h.setLane l _).endOverwriteSegment l _ _).ite (((h.setLane l _).setLane l _).fillOverwrite l)

theorem errorOverwrite (l : LaneId) (first block : Nat) : (s.errorOverwrite l first block).keysRight := by
  unfold State.errorOverwrite
  split
  · exact h
  · exact h.ite (((h.setLane l _).reportIfStopped l).ite
      (((h.setLane l _).endOverwriteSegment l _ _).ite ((h.setLane l _).setLane l _)))

theorem stopOverwrite : s.stopOverwrite.keysRight := by
  unfold State.stopOverwrite
  dsimp only
  split
  · exact (h.setWipe _).stopLane _
  · exact h.setWipe _

theorem restartOverwrite : s.restartOverwrite.keysRight := ((h.stopOverwrite.setWipe _).startOverwrite).ite h

theorem startFinal : s.startFinal.keysRight := h.same rfl rfl rfl

theorem submitFinal (salt : Word32) : (s.submitFinal salt).keysRight := (h.draw.draw.setWipe _).submit _

theorem advanceWipe : s.advanceWipe.keysRight := by
  have started : (if s.finalDue then s.startFinal else s).keysRight := h.startFinal.ite h
  unfold State.advanceWipe
  refine h.ite ?_
  dsimp only
  split
  · exact started.ite (started.submitFinal _)
  · split
    · exact (started.finishOverwrite _).ite started
    · exact started

end State.keysRight

end Sys2Proof.Machine

namespace Sys2Proof.Machine

/-! #### Parts without transfers (R46, R48) -/

theorem heldBy_of_free {v : Vector (Option Transfer) 32} (h : ∀ t : Tag, v[t] = none) (o : Owner) : heldBy v o = 0 := by
  simp [heldBy, h, entryRefs]

/-- A part without transfers whose entries have no references. -/
theorem keysRight_of_free {s : State} (free : ∀ t : Tag, s.inflight[t] = none) (right : ∀ o, (s.key o).right)
    (refs : ∀ o, (s.key o).refs = 0) : s.keysRight := by
  refine (keysRight_iff s).2 ⟨right, fun t x entry => ?_, fun o => ?_⟩
  · cases (free t).symm.trans entry
  · rw [refs, heldBy_of_free free]

theorem keysRight_of_empty {s : State} (inflight : s.inflight = tab32 fun _ => none) (cache : s.cache = tab16 fun _ => emptyKey)
    (shadowEntry : s.shadowEntry = emptyKey) : s.keysRight := by
  have key (o : Owner) : s.key o = emptyKey := by
    cases o with
    | range r => simp only [State.key, cache, tab16_get]
    | shadow => exact shadowEntry
  refine keysRight_of_free (fun t => ?_) (fun o => ?_) fun o => ?_
  · rw [inflight, tab32_get]
  · rw [key]; exact emptyKey_right
  · rw [key]; rfl

namespace State.keysRight

variable {s : State} (h : s.keysRight)
include h

/-! #### The Trigger Unit (R113 to R120) -/

theorem bringRecordUp : s.bringRecordUp.keysRight := h.submit _
theorem compareRecord : s.compareRecord.keysRight := h.ite h.bringRecordUp
theorem leave : s.leave.keysRight := ((h.setLockdown _).leaveLockdown).raise _
theorem exitDecision : s.exitDecision.keysRight := h.leave.bringRecordUp.ite h
theorem exitIfCleared (old : State) (t : Trigger) : (s.exitIfCleared old t).keysRight := h.exitDecision.ite h
theorem relockAction : s.relockAction.keysRight := (h.noteRelocked fun h => h.relock).revokeAuthority

theorem lockdownFromNormal (t : Trigger) : (s.lockdownFromNormal t).keysRight :=
  ((((h.setLockdown _).noteRelocked fun h => h.enterLockdown).revokeAuthority).raise _).bringRecordUp

theorem lockdownAgain (t : Trigger) : (s.lockdownAgain t).keysRight := by
  have entered (x : LockdownRecord) : (Machine.noteRelocked State.enterLockdown (s.setLockdown x)).revokeAuthority.keysRight :=
    ((h.setLockdown x).noteRelocked fun h => h.enterLockdown).revokeAuthority
  exact (entered _).ite (entered _).bringRecordUp

theorem wipeAction : s.wipeAction.keysRight := (h.acceptWipe _ _ _ _).revokeAuthority
theorem noteFiring (t : Trigger) : (s.noteFiring t).keysRight := h.same rfl rfl rfl

theorem act (t : Trigger) (a : Action) : (s.act t a).keysRight := by
  cases a with
  | note => exact h
  | relock => exact h.relockAction
  | lockdown => exact (h.lockdownAgain t).ite (h.lockdownFromNormal t)
  | wipe => exact h.wipeAction

theorem carryOut (t : Trigger) : (s.carryOut t).keysRight := (h.noteFiring t).act t _

theorem fire (t : Trigger) : (s.fire t).keysRight := by
  unfold State.fire
  split
  · exact h.noteFiring t
  · exact (h.carryOut t).ite (h.same rfl rfl rfl)
  · exact h.carryOut t

theorem carryOutHeld : s.carryOutHeld.keysRight :=
  (h.same (u := { s with trigger := { s.trigger with held := [] } }) rfl rfl rfl).forEach (f := fun t s => s.carryOut t)
    (fun t _ h => h.carryOut t) _

theorem handOverG : s.handOverG.keysRight := (h.fire _).ite h

theorem takeBayChange (level : BayLevel) : (s.takeBayChange level).keysRight := by
  unfold State.takeBayChange
  dsimp only
  split
  · refine fire (h.same ?_ ?_ ?_) _ <;> rfl
  · refine exitDecision (h.same ?_ ?_ ?_) <;> rfl

/-! #### The Binding Unit (R92 to R102) -/

theorem sendPage (k : PageKind) (m : Bool) (i : Nat) (p : Word16) (e : Exchange) : (s.sendPage k m i p e).keysRight := h.same rfl rfl rfl
theorem sendAck (b : Bool) (i : Nat) : (s.sendAck b i).keysRight := h.same rfl rfl rfl
theorem startRound : s.startRound.keysRight := h.same rfl rfl rfl
theorem startCheck (b : BindingState) : (s.startCheck b).keysRight := ((h.setBinding _).startRound).ite h

theorem endCheck (result : BindingState) : (s.endCheck result).keysRight := by
  refine ite ?gate (raise ?gate _)
  refine ite (setBinding ?decided _) ?decided
  refine ite (exitDecision ?fired) ?fired
  exact ite (h.setBinding _) (fire (h.setBinding _) _)

theorem failRound : s.failRound.keysRight := ((h.setBinding _).endCheck _).ite (h.setBinding _)

theorem abandonCheck : s.abandonCheck.keysRight := by
  unfold State.abandonCheck
  split <;> exact h.setBinding _

theorem stopExchange : s.stopExchange.keysRight := h.setBinding _
theorem startEnrolExchange (x : Word32) : (s.startEnrolExchange x).keysRight := (h.setBinding _).sendPage _ _ _ _ _
theorem startEnrolment : s.startEnrolment.keysRight := (h.draw.setBinding _).startEnrolExchange _
theorem failEnrolment : s.failEnrolment.keysRight := ((h.setBinding _).reply _ _).ite (h.setBinding _)

theorem enrolTaken (digest : Word16) : (s.enrolTaken digest).keysRight := by
  unfold State.enrolTaken
  split
  · exact h.same rfl rfl rfl
  · exact h

theorem abandonEnrolment : s.abandonEnrolment.keysRight := by
  unfold State.abandonEnrolment
  split
  · exact h.setBinding _
  · exact h

theorem enrolClosed (digest : Word16) : (s.enrolClosed digest).keysRight := by
  refine reply (ite ?gate (raise ?gate _)) _ _
  exact setBinding (exitIfCleared (h.setBinding _) s .unbound) _

theorem failExchange : s.failExchange.keysRight := by
  unfold State.failExchange
  split
  · exact h
  · exact h.failRound
  · exact h.failEnrolment

theorem acknowledged : s.acknowledged.keysRight := by
  unfold State.acknowledged
  split
  · exact h.sendPage _ _ _ _ _
  · exact h.setBinding _
  · exact h.sendPage _ _ _ _ _
  · exact h.setBinding _
  · exact h

theorem pageTaken (payload : Word16) : (s.pageTaken payload).keysRight := by
  unfold State.pageTaken
  split
  · exact (h.setBinding _).ite (h.endCheck _)
  · exact h.setBinding _
  · exact (h.endCheck _).ite (h.endCheck _)
  · exact h.enrolTaken _
  · exact h

theorem takePage (p : TetherPage) : (s.takePage p).keysRight := ((h.setBinding _).sendAck _ _).pageTaken _

theorem receivePage (p : TetherPage) : (s.receivePage p).keysRight := by
  unfold State.receivePage
  split
  · exact (h.sendAck _ _).ite h
  · exact h.acknowledged.ite h.failExchange
  · exact (h.sendAck _ _).ite ((h.takePage p).ite h.failExchange)
  · exact h

/-! #### The Credential Engine (R58 to R69) -/

theorem restartBackoff : s.restartBackoff.keysRight :=
  h.forEach (fun i _ h => h.ite (h.setOpenAt i _)) _

theorem attemptGoesOn (a : Attempt) (p : AttemptPhase) (stage : JobStage) : (s.attemptGoesOn a p stage).keysRight := h.startJob _ _
theorem verdictReached (a : Attempt) : (s.verdictReached a).keysRight := (h.ite h.endAuthority).attemptGoesOn _ _ _

theorem applyUnlockSet (i : SlotId) (u : Unwrap) (l : List Unlock) : (State.applyUnlockSet i u l s).1.keysRight := by
  induction l generalizing s with
  | nil => exact h
  | cons x l ih =>
    unfold State.applyUnlockSet
    dsimp only
    split
    · exact ih h
    · exact ih (h.applyUnlock i u x)

theorem grantAuthority (i : SlotId) (u : Unwrap) : (s.grantAuthority i u).keysRight := by
  unfold State.grantAuthority
  split
  · exact h.same rfl rfl rfl
  · exact h

theorem successClosed (old : State) (a : Attempt) : (s.successClosed old a).keysRight := by
  unfold State.successClosed
  dsimp only
  split
  · exact ((((h.setOpenAt _ _).applyUnlockSet _ _ _).grantAuthority _ _).reply _ _).exitIfCleared _ _
  · exact ((h.setOpenAt _ _).reply _ _).exitIfCleared _ _

theorem raiseIfLockedOut (i : SlotId) : (s.raiseIfLockedOut i).keysRight := (h.raise _).ite h
theorem settledFailed (a : Attempt) : (s.settledFailed a).keysRight := ((h.setOpenAt _ _).handOverG).raiseIfLockedOut _
theorem failedClosed (a : Attempt) : (s.failedClosed a).keysRight := (h.settledFailed a).reply _ _
theorem settlementClosed (a : Attempt) : (s.settlementClosed a).keysRight := ((h.settledFailed a).raise _).reply _ _

theorem attemptClosed (old : State) (a : Attempt) : (s.attemptClosed old a).keysRight := by
  unfold State.attemptClosed
  split
  · split
    · exact h.attemptGoesOn _ _ _
    · exact h.same rfl rfl rfl
  · exact h
  · exact h.successClosed old a
  · exact h.failedClosed a
  · exact h.settlementClosed a

theorem renewUnwrap (i : SlotId) (u : Unwrap) : (s.renewUnwrap i u).keysRight := by
  unfold State.renewUnwrap
  split
  · split
    · exact h.same rfl rfl rfl
    · exact h
  · exact h

theorem credSetClosed (j : CredSetJob) : (s.credSetClosed j).keysRight :=
  (((h.setOpenAt _ _).forEach (f := fun r s => s.restage r) (fun r _ h => h.restage r) _).renewUnwrap _ _).reply _ _

theorem credPolicyClosed (old : State) (i : SlotId) : (s.credPolicyClosed old i).keysRight := ((h.raise _).ite h).reply _ _

theorem credStateClosed (i : SlotId) (a : CredAction) : (s.credStateClosed i a).keysRight := by
  have opened := (h.setOpenAt i s.clock).ite (c := a = .reopen) h
  exact ((opened.raise _).ite opened).reply _ _

/-! #### RANGE-COMMIT (R18 to R22) -/

theorem startCommit : s.startCommit.keysRight := by
  unfold State.startCommit
  refine startJob (h.forEach (fun r s h => ?_) _) _ _
  exact (h.modRange r _).ite h

theorem endDrainWait : s.endDrainWait.keysRight := by
  unfold State.endDrainWait
  split
  · split
    · exact h.same rfl rfl rfl
    · exact h
  · exact h

theorem drawKeys (l : List RangeId) : (State.drawKeys l s).2.keysRight := by
  induction l generalizing s with
  | nil => exact h
  | cons r l ih => exact ih h.draw

theorem switchFlags (old : State) (r : RangeId) : (s.switchFlags old r).keysRight := h.modRange r _

theorem leaveUpdating (r : RangeId) : (s.leaveUpdating r).keysRight :=
  (((h.modRange r _).emptyKeyOf _).ungate r).ite ((h.modRange r _).ite h)

theorem switchKey (old : State) (c : Commit) (r : RangeId) : (s.switchKey old c r).keysRight := by
  have emptied := h.emptyKeyOf (.range r)
  exact ((emptied.loadRange r _).ite emptied).ite (((h.loadFromRoot r).ite ((h.makeLive _).ite h)).ite h)

theorem takeHeld (p : RangeId × Held) : (s.takeHeld p).keysRight := by
  unfold State.takeHeld
  refine h.ite ?_
  split
  · exact h.lockRangeDown _
  · exact h.eraseRange _

theorem switch (old : State) (c : Commit) : (s.switch old c).keysRight := by
  have flags := h.forEach (f := fun r s => s.switchFlags old r) (fun r _ h => h.switchFlags old r) allRanges
  have served := flags.forEach (f := fun p s => s.leaveUpdating p.1) (fun p _ h => h.leaveUpdating p.1) c.affected
  have keyed := served.forEach (f := fun r s => s.switchKey old c r) (fun r _ h => h.switchKey old c r) allRanges
  have drained := keyed.forEach (f := fun p s => s.drainIfClosed p.1) (fun p _ h => h.drainIfClosed p.1) c.affected
  have held := drained.forEach (f := fun p s => s.takeHeld p) (fun p _ h => h.takeHeld p) c.held
  have staged := held.forEach (f := fun r s => s.restage r) (fun r _ h => h.restage r) allRanges
  exact (staged.raise _).reply _ _

/-! #### The executor's groups (R129, R166) -/

theorem prepareJob : s.prepareJob.keysRight := by
  unfold State.prepareJob
  split
  · exact (h.drawKeys _).same rfl rfl rfl
  · exact h

theorem submitJob : s.submitJob.keysRight :=
  (h.prepareJob.same (u := { s.prepareJob with executor := { s.prepareJob.executor with stage := .submitted } }) rfl rfl rfl).submit _

theorem refuseJob : s.refuseJob.keysRight := by
  unfold State.refuseJob
  split
  · exact h.endCommit _ _
  · exact (h.setBinding _).reply _ _
  · exact h.reply _ _

theorem advanceExecutor : s.advanceExecutor.keysRight :=
  h.ite (h.refuseJob.ite (h.ite ((h.reply _ _).ite h.submitJob)))

/-! #### FAILSAFE (R81, R85) -/

theorem wipeFailed : s.wipeFailed.keysRight := h.same rfl rfl rfl

theorem refuseWipe : s.refuseWipe.keysRight := by
  unfold State.refuseWipe
  split
  · exact h.reply _ _
  · exact h

theorem groupFailed (g : Group) : (s.groupFailed g).keysRight := by
  unfold State.groupFailed
  split
  · exact h.refuseJob.ite h
  · exact h.wipeFailed.refuseWipe.ite h.wipeFailed
  · exact h

theorem refuseWaiting : s.refuseWaiting.keysRight := by
  unfold State.refuseWaiting
  split
  · split
    · exact h.refuseJob
    · exact h.refuseJob
    · exact h
  · exact h

theorem enterFailsafe : s.enterFailsafe.keysRight := by
  have closed := h.endAuthority.relock.forEach (f := fun o s => s.drainKey o) (fun o _ h => h.drainKey o) allOwners
  exact closed.stopOverwrite.wipeFailed.stopExchange.refuseWaiting.withPower _

theorem storeFailed (g : Group) (cells : List Cell) : (s.storeFailed g cells).keysRight := by
  unfold State.storeFailed
  dsimp only
  refine forEach (raise (ite ?noted (enterFailsafe ?noted)) _) (fun g _ h => h.groupFailed g) _
  refine groupFailed (h.same ?_ ?_ ?_) g <;> rfl

/-! #### The Power Unit (R139 to R155) -/

theorem presentShadow (x : ShadowState) : (s.presentShadow x).keysRight := by
  have on : ({ s with shadow := x } : State).keysRight := h.same rfl rfl rfl
  exact (on.ite on.loadShadow).raise _

theorem removeShadow : s.removeShadow.keysRight := by
  have off : ({ s with shadow := .off } : State).keysRight := h.same rfl rfl rfl
  exact ((off.drainKey _).raise _).ite h

theorem scanFailed : s.scanFailed.keysRight := h.same rfl rfl rfl

theorem startCharge : s.startCharge.keysRight := by
  unfold State.startCharge
  split
  · exact h.submit _
  · exact h.withPower _

omit h in
theorem startVolatile (store : Store) (cause : StartCause) (b : Bool) : (s.startVolatile store cause b).keysRight :=
  keysRight_of_empty rfl rfl rfl

omit h in
theorem startUp (cause : StartCause) (found : ScanFindings) : (s.startUp cause found).keysRight := by
  have bare := startVolatile (s := s) (s.store.scan found).store cause (s.store.scan found).rolledBack
  refine ite (scanFailed ?rolled) (startCharge ?rolled)
  exact (bare.raise _).ite bare

theorem chargeClosed (b : Bool) : (s.chargeClosed b).keysRight := by
  have charged := (h.withPower { s.power with attemptCharged := true }).raise .attemptCharged
  exact ((charged.raise _).ite charged).handOverG.withPower _

theorem restoreLockdown : s.restoreLockdown.keysRight := ((h.setLockdown _).enterLockdown).ite h

theorem restoreMarks : s.restoreMarks.keysRight := by
  have items := h.forEach (f := fun i s => s.markTarget i.target) (fun i _ h => h.markTarget i.target)
    (s.plan.items.filter (fun i => i.step ≠ .done))
  have ranges := items.forEach (f := fun r s => if s.defined r then s.markErasing r else s)
    (fun r _ h => (h.markErasing r).ite h) allRanges
  exact (ranges.abortOwner .shadow .erase).ite items

theorem restoreKeys : s.restoreKeys.keysRight := h.forEach (fun r _ h => (h.loadFromRoot r).ite h) _
theorem restoreBay : s.restoreBay.keysRight := ((h.same rfl rfl rfl : ((s.raise .bayChanged).latchOpen .open).keysRight).fire _).ite h

theorem restoreStage : s.restoreStage.keysRight := by
  have locks := h.forEach (f := fun r s => s.closeRange r) (fun r _ h => h.closeRange r) allRanges
  exact (locks.restoreLockdown.restoreMarks.restoreKeys.restartBackoff.restoreBay.withPower _).carryOutHeld.exitDecision

theorem takeAssertion : s.takeAssertion.keysRight := (h.withPower _).ite h

theorem readyStage : s.readyStage.keysRight := by
  refine ite (takeAssertion ?ready) ?ready
  exact withPower (ite (h.presentShadow _) h) _

theorem beginRestart : s.beginRestart.keysRight := by
  unfold State.beginRestart
  exact stopOverwrite (abortAll (withPower h.endAuthority.stopExchange _))

theorem enterSleep : s.enterSleep.keysRight := h.same rfl rfl rfl
theorem applySleepDrop : s.applySleepDrop.keysRight := (h.noteRelocked fun h => h.sleepDropAll).withPower _
theorem goAsleep : s.goAsleep.keysRight := ((h.raise _).withPower _).abandonCheck
theorem leaveSleepEntry : s.leaveSleepEntry.keysRight := (h.withPower _).resumeOverwrite
theorem wakeGate : s.wakeGate.keysRight := ((h.setBinding _).startCheck _).ite (h.setBinding _)
theorem wakeShadow : s.wakeShadow.keysRight := (h.presentShadow _).ite h
theorem wake : s.wake.keysRight := (h.restartBackoff.wakeGate.wakeShadow.withPower _).resumeOverwrite

/-! #### The close of a group (R77) -/

theorem shadowConfigClosed (old : State) (enabled : Option Bool) (size : Option Nat) :
    (s.shadowConfigClosed old enabled size).keysRight := by
  have removed := h.removeShadow.ite (c := enabled = some false) h
  exact ((removed.raise _).ite removed).reply _ _

theorem triggerSetClosed (limit : Option Nat) : (s.triggerSetClosed limit).keysRight := by
  unfold State.triggerSetClosed
  refine exitDecision (reply (ite (h.same ?_ ?_ ?_) h) _ _) <;> rfl

theorem wrongTokenClosed : s.wrongTokenClosed.keysRight := h.handOverG.reply _ _

theorem requestClosed (old : State) : (s.requestClosed old).keysRight := by
  unfold State.requestClosed
  split
  · exact h
  · exact h.attemptClosed old _
  · exact h.switch old _
  · exact h.credSetClosed _
  · exact h.credPolicyClosed old _
  · exact h.credStateClosed _ _
  · exact h.shadowConfigClosed old _ _
  · exact h.triggerSetClosed _
  · exact h.reply _ _
  · exact h.reply _ _
  · exact h.wrongTokenClosed
  · exact h
  · exact h.enrolClosed _
  · exact h

theorem planClosed : s.planClosed.keysRight := by
  unfold State.planClosed
  split
  · exact h.reply _ _
  · exact h

theorem clearItem : s.clearItem.keysRight := h.setWipe _
theorem trimClosed (r : RangeId) : (s.trimClosed r).keysRight := (h.restage r).setWipe _
theorem forgetKey (r : RangeId) : (s.forgetKey r).keysRight := h.same rfl rfl rfl

theorem keyStepClosed (o : Owner) (key : Key) : (s.keyStepClosed o key).keysRight := by
  have kept := fun w => (h.clearItem.emptyKeyOf o).setWipe w
  cases o with
  | range r => exact (((kept _).modRange r _).restage r).forgetKey r
  | shadow => exact kept _

theorem leaveErasing (r : RangeId) : (s.leaveErasing r).keysRight :=
  h.ite ((h.modRange r _).ite ((h.modRange r _).loadFromRoot r))

theorem itemDone (o : Owner) : (s.itemDone o).keysRight := by
  unfold State.itemDone
  refine h.ite (h.clearItem.ite ?_)
  split
  · exact h.clearItem.leaveErasing _
  · exact h.clearItem.loadShadow.ite h.clearItem

theorem factoryTable (key : Key) : (s.factoryTable key).keysRight := by
  have entry (o : Owner) : (s.factoryTable key).key o =
      if o = .range 0 then (s.key o).erase.load key (some (s.range 0).generation) else (s.key o).erase := by
    cases o with
    | range r =>
      simp only [State.factoryTable, State.key, tab16_get, Owner.range.injEq]
    | shadow => rfl
  obtain ⟨-, entries, refs⟩ := (keysRight_iff s).1 h
  refine (keysRight_iff _).2 ⟨fun o => ?_, entries, fun o => ?_⟩
  · rw [entry]; split
    · exact load_right _ _ (erase_right _)
    · exact erase_right _
  · rw [entry, apply_ite KeyEntry.refs, load_refs, ite_self]
    exact refs o

theorem factoryBinding : s.factoryBinding.keysRight := (h.setBinding _).ite ((h.setBinding _).raise _)
theorem factoryLockdown : s.factoryLockdown.keysRight := ((h.setLockdown _).raise _).ite h
theorem factoryWipe : s.factoryWipe.keysRight := h.clearItem.setWipe _

theorem discardAttempt : s.discardAttempt.keysRight := by
  unfold State.discardAttempt
  split
  · exact h.ite ((h.same rfl rfl rfl : ({ s with derivations := s.derivations.filter (fun d => d ≠ .executor) } : State).keysRight).reply _ _)
  · exact h

theorem restartRepaired (found : ScanFindings) : (s.restartRepaired found).keysRight := by
  unfold State.restartRepaired
  dsimp only
  split
  · exact startUp _ _
  · exact h.beginRestart

theorem finalClosed (key : Key) (found : ScanFindings) : (s.finalClosed key found).keysRight := by
  have factory := (h.revokeAuthority.factoryTable key).factoryBinding.factoryLockdown.factoryWipe
  refine ite (restartRepaired ?settled found) ?settled
  exact discardAttempt (raise (raise factory _) _)

theorem closeEffect (old : State) (found : ScanFindings) (e : Effect) : (s.closeEffect old found e).keysRight := by
  cases e with
  | request => exact h.requestClosed old
  | chargeStage i b => exact h.chargeClosed b
  | lockdownRecord => exact h
  | planAccepted => exact h.planClosed
  | trimmed r => exact h.trimClosed r
  | keyStep o key => exact h.keyStepClosed o key
  | cursor => exact h.raise _
  | itemDone o => exact h.itemDone o
  | planEnded o => exact h.ite (h.raise _)
  | finalCommit key => exact h.finalClosed key found

theorem closeGroup (w : Writing) (found : ScanFindings) : (s.closeGroup w found).keysRight := by
  have closed : ({ s with store := s.store.close w } : State).keysRight := h.same rfl rfl rfl
  refine ite (compareRecord ?after) ?after
  exact forEach (ite (closed.raise _) closed) (fun e _ h => h.closeEffect s found e) _

end State.keysRight

end Sys2Proof.Machine

namespace Sys2Proof.Machine

/-! #### FRONT_RESET's releases (R46, R47) -/

theorem allOwners_mem (o : Owner) : o ∈ allOwners := by
  cases o with
  | range r => simp [allOwners, allRanges_mem]
  | shadow => simp [allOwners]

theorem allOwners_nodup : allOwners.Nodup := by decide

/-- One change of every owner's entry. -/
theorem key_forEach_modKey (f : KeyEntry → KeyEntry) {l : List Owner} (nodup : l.Nodup) (s : State) (p : Owner) :
    (forEach l (fun o s => s.modKey o f) s).key p = if p ∈ l then f (s.key p) else s.key p := by
  induction l generalizing s with
  | nil => rfl
  | cons o l ih =>
    obtain ⟨notMem, nodup⟩ := List.nodup_cons.1 nodup
    show (forEach l (fun o s => s.modKey o f) (s.modKey o f)).key p = _
    rw [ih nodup, key_modKey]
    by_cases e : o = p
    · subst e; simp [notMem]
    · simp [e, Ne.symm e]

theorem clearRefs_eq (e : KeyEntry) : e.clearRefs = if e.state = .draining then emptyKey else { e with refs := 0 } := rfl

/-- The Key Cache after FRONT_RESET (R46, R47). -/
theorem clearTransfers_key (s : State) (o : Owner) :
    s.clearTransfers.key o = ((forEach allLanes (fun l s => s.clearLane l) s).key o).clearRefs := by
  have cleared := key_forEach_modKey KeyEntry.clearRefs allOwners_nodup
    { forEach allLanes (fun l s => s.clearLane l) s with inflight := tab32 fun _ => none } o
  rw [if_pos (allOwners_mem o)] at cleared
  refine cleared.trans ?_
  cases o <;> rfl

theorem clearTransfers_inflight (s : State) : s.clearTransfers.inflight = tab32 fun _ => none :=
  forEach_keeps State.inflight _ (fun o s => State.setKey_inflight s o _) _ _

/-! #### Admission (R29) -/

/-- What a run of a split becomes under a disposition waits, and references its own owner's entry or none (R29, R33). -/
theorem segmentsOf_waiting (s : State) (d : Direction) (runs : List Run) :
    ∀ g ∈ s.segmentsOf d runs, g.step = .waiting ∧ ∀ o, g.keyRef = some o → g.owner = o := by
  induction runs with
  | nil => exact fun g m => absurd m List.not_mem_nil
  | cons r runs ih =>
    unfold State.segmentsOf
    split
    · exact ih
    · intro g m
      rcases List.mem_cons.1 m with rfl | m
      · refine ⟨rfl, fun o ref => ?_⟩
        unfold State.segmentOf at ref ⊢
        dsimp only at ref ⊢
        split at ref
        · cases ref
        · exact Option.some.inj ref
      · exact ih g m

/-- References taken on several entries. -/
theorem addRefs_key (l : List Owner) (s : State) (o : Owner) :
    (s.addRefs l).key o = { s.key o with refs := (s.key o).refs + l.count o } := by
  induction l generalizing s with
  | nil => rfl
  | cons p l ih =>
    show ((s.modKey p KeyEntry.addRef).addRefs l).key o = _
    rw [ih, key_modKey]
    by_cases e : p = o
    · subst e; simp [KeyEntry.addRef]; omega
    · simp [e]

theorem addRefs_inflight (l : List Owner) (s : State) : (s.addRefs l).inflight = s.inflight :=
  forEach_keeps State.inflight _ (fun o s => State.setKey_inflight s o _) l s

namespace State.keysRight

variable {s : State} (h : s.keysRight)
include h

theorem clearLane (l : LaneId) : (s.clearLane l).keysRight := by
  unfold State.clearLane
  split
  · exact (h.setLane l _).reportIfStopped l
  · exact h

theorem clearTransfers : s.clearTransfers.keysRight := by
  have stopped := h.forEach (f := fun l s => s.clearLane l) (fun l _ h => h.clearLane l) allLanes
  refine keysRight_of_free (fun t => by rw [clearTransfers_inflight, tab32_get]) (fun o => ?_) fun o => ?_
  · have entry := ((keysRight_iff _).1 stopped).1 o
    rw [clearTransfers_key, clearRefs_eq]
    split
    · exact emptyKey_right
    · next stays => exact ⟨entry.1, fun draining => absurd draining stays⟩
  · rw [clearTransfers_key, clearRefs_eq]
    split <;> rfl

theorem abandonAttempt (a : Attempt) : (s.abandonAttempt a).keysRight := by
  unfold State.abandonAttempt
  split
  · split <;> exact h.same rfl rfl rfl
  all_goals exact h.same rfl rfl rfl

theorem freeAbandoned : s.freeAbandoned.keysRight := h.same rfl rfl rfl

theorem abandonRequest : s.abandonRequest.keysRight := by
  have marked : s.markAbandoned.keysRight := h.same rfl rfl rfl
  unfold State.abandonRequest
  refine h.ite ?_
  split
  · exact h.abandonAttempt _
  · exact marked
  · exact marked
  · refine marked.ite (freeAbandoned (h.same ?_ ?_ ?_)) <;> rfl
  · exact marked.ite (freeAbandoned (h.abandonEnrolment.setBinding _))
  · exact marked.ite h.freeAbandoned

theorem frontReset : s.frontReset.keysRight := h.clearTransfers.restartOverwrite.endAuthority.restartIdle.abandonRequest

theorem admitSegments (t : Tag) (d : Direction) (a n : Nat) {segments : List Segment} (free : s.inflight[t] = none)
    (waiting : ∀ g ∈ segments, g.step = .waiting ∧ ∀ o, g.keyRef = some o → g.owner = o) :
    (s.admitSegments t d a n segments).keysRight := by
  obtain ⟨key, entries, refs⟩ := (keysRight_iff s).1 h
  unfold State.admitSegments
  dsimp only
  refine say (restartIdle ?_) _
  generalize entered : Transfer.mk d a n s.tableGeneration s.nextSequence segments .running none none = x
  have right : x.right := by
    subst entered
    exact ⟨rfl, fun g m o ref => ⟨(waiting g m).2 o ref, by simp [Segment.unfinished, (waiting g m).1]⟩⟩
  have before (o : Owner) : (({ s with nextSequence := s.nextSequence + 1 } : State).setTransfer t (some x)).key o = s.key o := by
    cases o <;> rfl
  rw [keysRight_iff, addRefs_inflight]
  simp only [addRefs_key, before]
  show _ ∧ (∀ (u : Tag) y, (s.inflight.set t (some x))[u] = some y → _) ∧ ∀ o, _ = heldBy (s.inflight.set t (some x)) o
  refine ⟨fun o => ?_, fun u y entry => ?_, fun o => ?_⟩
  · exact ⟨(key o).1, fun draining => Nat.lt_of_lt_of_le ((key o).2 draining) (Nat.le_add_right _ _)⟩
  · by_cases same : u = t
    · subst same
      rw [inflight_set_same] at entry
      exact Option.some.inj entry ▸ right
    · rw [inflight_set_other _ _ same] at entry
      exact entries u y entry
  · have exchanged := heldBy_set s.inflight t (some x) o
    rw [free] at exchanged
    rw [refs]
    simp only [entryRefs, Option.map_none, Option.getD_none, List.count_nil, Option.map_some, Option.getD_some] at exchanged
    omega

theorem admitTransfer (tag : Byte) (t : Tag) (d : Direction) (a n : Nat) : (s.admitTransfer tag t d a n).keysRight := by
  unfold State.admitTransfer
  split
  · exact h.say _
  · next free =>
    refine (h.say _).ite ?_
    dsimp only
    split
    · exact h.say _
    · exact h.admitSegments t d a n (by simpa using free) (segmentsOf_waiting s d _)

theorem takeAdmit (tag direction : Byte) (a n : Nat) : (s.takeAdmit tag direction a n).keysRight := by
  unfold State.takeAdmit
  split
  · split
    · exact h.say _
    · exact h.admitTransfer _ _ _ _ _
  · exact h.say _

theorem cancelRunning (t : Tag) (x : Transfer) : (s.cancelRunning t x).keysRight := by
  have discarded := h.discardWaiting t
  unfold State.cancelRunning
  dsimp only
  split
  · split
    · next y entry =>
      have right := discarded.entry_right entry
      exact discarded.replace t (y := { y with state := .cancelling }) entry ⟨rfl, right.2⟩ rfl
    · exact discarded
  · exact discarded.endTransfer t _

theorem cancel (tag : Byte) : (s.cancel tag).keysRight := by
  unfold State.cancel
  split
  · exact h.say _
  · split
    · exact h.say _
    · exact ((h.say _).cancelRunning _ _).ite (h.say _)

/-! #### What falls in the same event -/

theorem grantTransfer (l : LaneId) (t : Tag) (i : Nat) : (s.grantTransfer l t i).keysRight := by
  unfold State.grantTransfer
  split
  · exact h
  · next x entry =>
    have marked := h.replace t entry ((h.entry_right entry).modSegment i (f := fun g => { g with step := .inLane })
      fun _ => .inr ⟨rfl, rfl, fun _ => rfl⟩) (refs_modify _ _ _ fun _ => rfl)
    refine fillLane (same (marked.setLane l { idleLane with task := some (.transfer t i) }) ?_ ?_ ?_) l <;> rfl

theorem grantWipe (l : LaneId) : (s.grantWipe l).keysRight := by
  unfold State.grantWipe
  split
  · exact h.setWipe _
  · split
    · exact h
    · refine fillOverwrite (h.same ?_ ?_ ?_) l <;> rfl

theorem grantLane (l : LaneId) : (s.grantLane l).keysRight := by
  unfold State.grantLane
  refine h.ite ?_
  split
  · exact (h.grantWipe l).ite (h.grantTransfer l _ _)
  · exact (h.grantWipe l).ite h

theorem grantLanes : s.grantLanes.keysRight := h.forEach (fun l _ h => h.grantLane l) _

theorem advanceEnrolment : s.advanceEnrolment.keysRight := by
  unfold State.advanceEnrolment
  split
  · exact h.startEnrolment.ite h
  · exact h

theorem tendIdle : s.tendIdle.keysRight := by
  unfold State.tendIdle
  split
  · split
    · exact h.same rfl rfl rfl
    · exact h
    · exact h
  · exact h.same rfl rfl rfl

theorem tendRecheck : s.tendRecheck.keysRight := by
  unfold State.tendRecheck
  split
  · split
    · exact h.setBinding _
    · exact h
  · exact h.setBinding _

theorem tendAuthority : s.tendAuthority.keysRight := by
  unfold State.tendAuthority
  split
  · split
    · exact h.same rfl rfl rfl
    · exact h
  · exact h.same rfl rfl rfl

theorem advanceSleep : s.advanceSleep.keysRight := by
  refine ite (goAsleep ?dropped) ?dropped
  refine ite (applySleepDrop ?entered) ?entered
  exact h.enterSleep.ite h

theorem settleAlert : (settleAlert s).keysRight := h.same rfl rfl rfl

theorem settle : (settle s).keysRight := by
  have worked := h.endDrainWait.advanceEnrolment.advanceExecutor.advanceWipe.grantLanes
  unfold Machine.settle
  exact settleAlert worked.advanceSleep.advanceWipe.tendIdle.tendRecheck.tendAuthority

theorem whilePowered {f : State → State} (step : (f s).keysRight) : (s.whilePowered f).keysRight := step.settle.ite h

theorem atOnce {f : State → State} (step : (f s).keysRight) : (s.atOnce f).keysRight := step.ite h

/-! #### Requests -/

/-- A request keeps the Key Cache right when its owner's checks and effects do (R165). -/
theorem request {α : Type} (kind : Nat) (tag : Byte) (body : Body α) {run : α → State → State}
    (step : ∀ (a : α) {s : State}, s.keysRight → (run a s).keysRight) : (s.request kind tag body run).keysRight := by
  unfold State.request
  split
  · exact h.say _
  · refine (h.say _).ite ?_
    split
    · exact (h.take kind tag).reply _ _
    · exact step _ (h.take kind tag)

theorem adminOnly {α : Type} {run : α → State → State} (step : ∀ (a : α) {s : State}, s.keysRight → (run a s).keysRight) (a : α) :
    (adminOnly run a s).keysRight := (step a h).ite (h.reply _ _)

theorem ownRequest {α : Type} {kind : Nat} {tag : Byte} {body : Body α} {run : α → State → State}
    (step : ∀ (a : α) {s : State}, s.keysRight → (run a s).keysRight) :
    (s.whilePowered fun s => s.request kind tag body run).keysRight := h.whilePowered (h.request _ _ _ step)

theorem adminRequest {α : Type} {kind : Nat} {tag : Byte} {body : Body α} {run : α → State → State}
    (step : ∀ (a : α) {s : State}, s.keysRight → (run a s).keysRight) :
    (s.whilePowered fun s => s.request kind tag body (Machine.adminOnly run)).keysRight :=
  h.ownRequest fun a _ h => h.adminOnly step a

theorem eventsEnable (codes : List Nat) : (s.eventsEnable codes).keysRight := by
  unfold State.eventsEnable
  split
  · exact h.reply _ _
  · refine reply (h.same ?_ ?_ ?_) _ _ <;> rfl

theorem eventsAck (codes : List Nat) : (s.eventsAck codes).keysRight := by
  unfold State.eventsAck
  split
  · exact h.reply _ _
  · refine reply (h.same ?_ ?_ ?_) _ _ <;> rfl

theorem authenticate (x : AuthArgs) : (s.authenticate x).keysRight := by
  unfold State.authenticate
  split
  · split
    · split
      · exact h.reply _ _
      · exact h.startJob _ _
    · exact h.reply _ _
  · exact h.reply _ _

theorem authorityEnd (x : Unit) : (s.authorityEnd x).keysRight := (h.endAuthority.reply _ _).ite (h.reply _ _)

theorem credSet (x : CredSetArgs) : (s.credSet x).keysRight := by
  unfold State.credSet
  split
  · exact h.reply _ _
  · refine (h.reply _ _).ite ((h.reply _ _).ite ((h.reply _ _).ite ((h.reply _ _).ite ?_)))
    exact h.same rfl rfl rfl

theorem credPolicy (x : CredPolicyArgs) : (s.credPolicy x).keysRight := by
  unfold State.credPolicy
  split
  · exact h.reply _ _
  · exact h.startJob _ _

theorem credStateOn (i : SlotId) (a : CredAction) : (s.credStateOn i a).keysRight := by
  unfold State.credStateOn
  split
  · exact h.reply _ _
  · exact (reply (ite (h.setOpenAt i _) h) _ _).ite (h.startJob _ _)

theorem credStateChange (a : CredAction) (x : CredStateArgs) : (s.credStateChange a x).keysRight := by
  unfold State.credStateChange
  refine (h.reply _ _).ite ?_
  split
  · exact h.reply _ _
  · exact (h.reply _ _).ite (h.credStateOn _ a)

theorem unlockBy (a : Authority) (u : Unlock) : (s.unlockBy a u).keysRight := by
  unfold State.unlockBy
  split
  · exact h.reply _ _
  · exact (h.applyUnlock _ _ u).reply _ _

theorem rangeUnlock (x : RangeDirs) : (s.rangeUnlock x).keysRight := by
  unfold State.rangeUnlock
  split
  · exact h.reply _ _
  · refine (h.reply _ _).ite ?_
    split
    · exact h.unlockBy _ _
    · exact h.reply _ _

theorem rangeLock (x : RangeDirs) : (s.rangeLock x).keysRight := by
  unfold State.rangeLock
  split
  · exact h.reply _ _
  · exact (h.reply _ _).ite ((h.reply _ _).ite (((h.setLocks _ _ _).drainIfClosed _).reply _ _))

theorem rangeStage (x : StageArgs) : (s.rangeStage x).keysRight := by
  unfold State.rangeStage
  split
  · refine (h.reply _ _).ite ((h.reply _ _).ite (reply (h.same ?_ ?_ ?_) _ _)) <;> rfl
  · exact h.reply _ _

theorem rangeDiscard (x : Unit) : (s.rangeDiscard x).keysRight :=
  (h.forEach (f := fun r s => s.restage r) (fun r _ h => h.restage r) allRanges).reply _ _

theorem rangeCommit (x : Unit) : (s.rangeCommit x).keysRight := by
  unfold State.rangeCommit
  split
  · exact h.reply _ _
  · exact h.startCommit.ite (h.reply _ _)

theorem rangeRead (n : Nat) : (s.rangeRead n).keysRight := by
  unfold State.rangeRead
  split <;> exact h.reply _ _

theorem shadowConfig (x : ShadowArgs) : (s.shadowConfig x).keysRight := (h.reply _ _).ite (h.startJob _ _)

theorem openShadow : s.openShadow.keysRight := by
  unfold State.openShadow
  split
  · exact h.presentShadow _
  · exact h.same rfl rfl rfl
  · exact h

theorem shadowOpen (x : LoadArgs) : (s.shadowOpen x).keysRight :=
  (h.reply _ _).ite ((h.reply _ _).ite (h.openShadow.reply _ _))

theorem shadowClose (x : LoadArgs) : (s.shadowClose x).keysRight := by
  refine (h.reply _ _).ite (reply (h.same ?_ ?_ ?_) _ _) <;> rfl

theorem shadowDone (x : Unit) : (s.shadowDone x).keysRight := (h.removeShadow.reply _ _).ite (h.reply _ _)
theorem bindEnroll (x : Option Nat) : (s.bindEnroll x).keysRight := h.startJob _ _
theorem bindCheck (x : Unit) : (s.bindCheck x).keysRight := (h.reply _ _).ite ((h.startCheck _).reply _ _)

theorem triggerSet (x : TriggerArgs) : (s.triggerSet x).keysRight := by
  unfold State.triggerSet
  refine (h.reply _ _).ite ?_
  split
  · exact h.reply _ _
  · exact h.startJob _ _

theorem lockdownClear (x : Unit) : (s.lockdownClear x).keysRight :=
  (h.reply _ _).ite ((h.reply _ _).ite (h.leave.startJob _ _))

theorem resetPart (x : Unit) : (s.resetPart x).keysRight := (h.reply _ _).beginRestart
theorem wipeTokenSet (x : List Byte) : (s.wipeTokenSet x).keysRight := h.startJob _ _
theorem wipeTokenClear (x : Unit) : (s.wipeTokenClear x).keysRight := h.startJob _ _

theorem takeWipe (x : WipeArgs) (targets : List Owner) : (s.takeWipe x targets).keysRight := by
  have accepted := (h.startJob .wipe .submitted).acceptWipe targets x.overwrite (x.scope = .all) true
  exact accepted.ite (accepted.reply _ _)

theorem wipeInFailsafe (x : WipeArgs) (targets : List Owner) : (s.wipeInFailsafe x targets).keysRight := by
  unfold State.wipeInFailsafe
  split
  · refine (h.reply _ _).ite (ite (takeWipe (h.same ?_ ?_ ?_) _ _) (h.reply _ _)) <;> rfl
  · exact h.reply _ _

theorem wipeInReady (x : WipeArgs) (targets : List Owner) : (s.wipeInReady x targets).keysRight := by
  unfold State.wipeInReady
  split
  · exact (h.takeWipe _ _).ite (h.startJob _ _)
  · exact (h.takeWipe _ _).ite (h.reply _ _)

theorem wipeRequest (x : WipeArgs) : (s.wipeRequest x).keysRight := by
  unfold State.wipeRequest
  split
  · exact h.reply _ _
  · exact (h.reply _ _).ite ((h.wipeInFailsafe _ _).ite (h.wipeInReady _ _))

/-! #### Events of the other ports -/

theorem laneReceives (l : LaneId) (e : LaneEvent) : (s.laneReceives l e).keysRight := by
  unfold State.laneReceives
  split
  · exact h.answerTransfer _ _ _ _
  · exact h.deliverTransfer _ _ _
  · exact h.answerCleared l
  · exact h.answerOverwrite _ _ _ _
  all_goals exact h

theorem laneFails (l : LaneId) (block : Nat) : (s.laneFails l block).keysRight := by
  unfold State.laneFails
  split
  · exact h.errorTransfer _ _ _ _
  · exact (h.answerCleared l).ite h
  · exact h.errorOverwrite _ _ _
  · exact h

theorem copyWriteDone (passed : Bool) : (s.copyWriteDone passed).keysRight := by
  unfold State.copyWriteDone
  split
  · exact h.same rfl rfl rfl
  · refine storeFailed (h.same ?_ ?_ ?_) _ _ <;> rfl

theorem drainLimitExpires : s.drainLimitExpires.keysRight := by
  unfold State.drainLimitExpires
  split
  · exact ((h.reachTime _).endCommit _ _).ite h
  · exact h

theorem executorDerived : s.executorDerived.keysRight := by
  unfold State.executorDerived
  split
  · split
    · exact h.verdictReached _
    · exact h
  · exact (h.startJob _ _).ite h
  · exact h

theorem wipeDerived : s.wipeDerived.keysRight := by
  unfold State.wipeDerived
  split
  · exact h.setWipe _
  · exact h

theorem derivationEnds : s.derivationEnds.keysRight := by
  unfold State.derivationEnds
  split
  · exact h
  · refine executorDerived (h.same ?_ ?_ ?_) <;> rfl
  · refine wipeDerived (h.same ?_ ?_ ?_) <;> rfl

theorem authorityExpires : s.authorityExpires.keysRight := by
  unfold State.authorityExpires
  split
  · exact (h.reachTime _).revokeAuthority
  · exact h

theorem stabilityExpires : s.stabilityExpires.keysRight := by
  unfold State.stabilityExpires
  split
  · exact (h.reachTime _).takeBayChange _
  · exact h

theorem idleExpires : s.idleExpires.keysRight := by
  unfold State.idleExpires
  split
  · refine fire (h.same ?_ ?_ ?_) _ <;> rfl
  · exact h
  · exact h

theorem recheckExpires : s.recheckExpires.keysRight := by
  unfold State.recheckExpires
  split
  · exact (h.reachTime _).startCheck _
  · exact h

theorem pageArrives (bytes : List Byte) : (s.pageArrives bytes).keysRight := by
  unfold State.pageArrives
  split
  · exact h
  · exact h.failExchange.ite h
  · exact h.receivePage _

theorem badFrame (record : List Byte) : (s.badFrame record).keysRight := by
  unfold State.badFrame
  split
  · exact h.say _
  · exact h

theorem unknownKind (record : List Byte) : (s.unknownKind record).keysRight := by
  unfold State.unknownKind
  split
  · exact h
  · exact h.ite (h.say _)

theorem status (tag : Byte) (body : Body Unit) : (s.status tag body).keysRight := by
  cases body with
  | misfit => exact h.say _
  | fits a => exact h.same rfl rfl rfl

theorem takeRelease : s.takeRelease.keysRight := by
  unfold State.takeRelease
  split
  · exact h.withPower _
  · exact h.leaveSleepEntry
  · exact h.wake
  · exact h
  · exact h

end State.keysRight

end Sys2Proof.Machine

namespace Sys2Proof.Machine

/-- Every command keeps the Key Cache in agreement with the transfers in flight (R33, R34). -/
theorem exec_keysRight (c : Instr) {s : State} (h : s.keysRight) : ∃ t, exec c s = .next t ∧ t.keysRight := by
  cases c with
  | powerOn scan => exact ⟨_, rfl, h.ite (State.keysRight.startUp _ _).settle⟩
  | powerLoss midWrite => exact ⟨_, rfl, ((State.keysRight.startVolatile _ _ _).withPower _).ite h⟩
  | restore => exact ⟨_, rfl, h.whilePowered ((h.restoreStage.startCheck _).readyStage.ite h)⟩
  | partRestart scan => exact ⟨_, rfl, h.whilePowered ((State.keysRight.startUp _ _).ite h)⟩
  | admitRequest tag direction start countLessOne => exact ⟨_, rfl, h.whilePowered (h.takeAdmit _ _ _ _)⟩
  | cancel tag => exact ⟨_, rfl, h.whilePowered (h.cancel tag)⟩
  | frontReset => exact ⟨_, rfl, h.whilePowered h.frontReset⟩
  | mediaAcknowledge lane event => exact ⟨_, rfl, h.whilePowered (h.laneReceives lane event)⟩
  | mediaError lane block => exact ⟨_, rfl, h.whilePowered (h.laneFails lane block)⟩
  | copyWriteDone passed => exact ⟨_, rfl, h.whilePowered (h.copyWriteDone passed)⟩
  | groupClose scan =>
    refine ⟨_, rfl, h.whilePowered ?_⟩
    split
    · exact h.closeGroup _ scan
    · exact h
  | drainWaitEnd => exact ⟨_, rfl, h.whilePowered h.endDrainWait⟩
  | drainLimitExpiry => exact ⟨_, rfl, h.whilePowered h.drainLimitExpires⟩
  | derivationComplete => exact ⟨_, rfl, h.whilePowered h.derivationEnds⟩
  | authorityIdleExpiry => exact ⟨_, rfl, h.whilePowered h.authorityExpires⟩
  | bayEdge level =>
    have edge : (s.bayEdge level).keysRight := h.same rfl rfl rfl
    exact ⟨_, rfl, edge.settle.ite (h.same rfl rfl rfl)⟩
  | bayStabilityExpiry => exact ⟨_, rfl, h.whilePowered h.stabilityExpires⟩
  | idleTimerExpiry => exact ⟨_, rfl, h.whilePowered h.idleExpires⟩
  | recheckTimerExpiry => exact ⟨_, rfl, h.whilePowered h.recheckExpires⟩
  | tetherPageReceived page => exact ⟨_, rfl, h.whilePowered (h.pageArrives page.toList)⟩
  | tetherFault => exact ⟨_, rfl, h.whilePowered (h.failExchange.ite h)⟩
  | pageTimeout => exact ⟨_, rfl, h.whilePowered ((h.reachTime _).failExchange.ite h)⟩
  | roundWaitExpiry => exact ⟨_, rfl, h.whilePowered ((h.reachTime _).startRound.ite h)⟩
  | enrolRetryExpiry =>
    refine ⟨_, rfl, h.whilePowered ?_⟩
    split
    · exact ((h.reachTime _).startEnrolExchange _).ite h
    · exact h
  | slpAsserted => exact ⟨_, rfl, h.ite ((h.withPower _).takeAssertion.settle.ite (h.withPower _))⟩
  | sleepEntry => exact ⟨_, rfl, h.whilePowered (h.enterSleep.ite h)⟩
  | sleepDrop => exact ⟨_, rfl, h.whilePowered (h.applySleepDrop.ite h)⟩
  | sleepReady => exact ⟨_, rfl, h.whilePowered (h.goAsleep.ite h)⟩
  | slpReleased => exact ⟨_, rfl, h.ite ((h.withPower _).takeRelease.settle.ite (h.withPower _))⟩
  | keyStep =>
    refine ⟨_, rfl, h.whilePowered ?_⟩
    split
    · exact (h.beginItem _).ite h
    · exact h
  | overwriteStart => exact ⟨_, rfl, h.whilePowered h.startOverwrite⟩
  | badFrame record => exact ⟨_, rfl, h.atOnce (h.badFrame record)⟩
  | unknownKind record => exact ⟨_, rfl, h.atOnce (h.unknownKind record)⟩
  | status tag body => exact ⟨_, rfl, h.atOnce (h.status tag body)⟩
  | eventsEnable tag body => exact ⟨_, rfl, h.adminRequest fun a _ h => h.eventsEnable a⟩
  | eventsAck tag body => exact ⟨_, rfl, h.adminRequest fun a _ h => h.eventsAck a⟩
  | authenticate tag body => exact ⟨_, rfl, h.ownRequest fun a _ h => h.authenticate a⟩
  | authorityEnd tag body => exact ⟨_, rfl, h.ownRequest fun a _ h => h.authorityEnd a⟩
  | rangeUnlock tag body => exact ⟨_, rfl, h.ownRequest fun a _ h => h.rangeUnlock a⟩
  | rangeLock tag body => exact ⟨_, rfl, h.ownRequest fun a _ h => h.rangeLock a⟩
  | rangeStage tag body => exact ⟨_, rfl, h.adminRequest fun a _ h => h.rangeStage a⟩
  | rangeDiscard tag body => exact ⟨_, rfl, h.adminRequest fun a _ h => h.rangeDiscard a⟩
  | rangeCommit tag body => exact ⟨_, rfl, h.adminRequest fun a _ h => h.rangeCommit a⟩
  | rangeRead tag body => exact ⟨_, rfl, h.adminRequest fun a _ h => h.rangeRead a⟩
  | credSet tag body => exact ⟨_, rfl, h.ownRequest fun a _ h => h.credSet a⟩
  | credPolicy tag body => exact ⟨_, rfl, h.adminRequest fun a _ h => h.credPolicy a⟩
  | credStateEnable tag body => exact ⟨_, rfl, h.ownRequest fun a _ h => h.credStateChange .enable a⟩
  | credStateDisable tag body => exact ⟨_, rfl, h.ownRequest fun a _ h => h.credStateChange .disable a⟩
  | credStateReopen tag body => exact ⟨_, rfl, h.ownRequest fun a _ h => h.credStateChange .reopen a⟩
  | shadowConfig tag body => exact ⟨_, rfl, h.adminRequest fun a _ h => h.shadowConfig a⟩
  | shadowLoadOpen tag body => exact ⟨_, rfl, h.adminRequest fun a _ h => h.shadowOpen a⟩
  | shadowLoadClose tag body => exact ⟨_, rfl, h.adminRequest fun a _ h => h.shadowClose a⟩
  | shadowDone tag body => exact ⟨_, rfl, h.ownRequest fun a _ h => h.shadowDone a⟩
  | bindEnroll tag body => exact ⟨_, rfl, h.adminRequest fun a _ h => h.bindEnroll a⟩
  | bindCheck tag body => exact ⟨_, rfl, h.adminRequest fun a _ h => h.bindCheck a⟩
  | triggerSet tag body => exact ⟨_, rfl, h.adminRequest fun a _ h => h.triggerSet a⟩
  | lockdownClear tag body => exact ⟨_, rfl, h.adminRequest fun a _ h => h.lockdownClear a⟩
  | wipeTokenSet tag body => exact ⟨_, rfl, h.adminRequest fun a _ h => h.wipeTokenSet a⟩
  | wipeTokenClear tag body => exact ⟨_, rfl, h.adminRequest fun a _ h => h.wipeTokenClear a⟩
  | wipe tag body => exact ⟨_, rfl, h.ownRequest fun a _ h => h.wipeRequest a⟩
  | resetPart tag body => exact ⟨_, rfl, h.adminRequest fun a _ h => h.resetPart a⟩

/-- Settles O5: a step is a command on the queue's rest, or a tick, and every command keeps the agreement. -/
theorem everyStepKeepsKeyCache : Obligations.EveryStepKeepsKeyCache := by
  intro s h t stepped
  unfold step at stepped
  split at stepped
  · cases stepped
    exact h.same rfl rfl rfl
  · next c rest _ =>
    have front : ({ s with pending := rest } : State).keysRight := h.same rfl rfl rfl
    obtain ⟨u, next, right⟩ := exec_keysRight c front
    cases next.symm.trans stepped
    exact right

end Sys2Proof.Machine

namespace Sys2Proof.Machine

/-! ### Tweaks (R30) -/

/-- Settles O13: below 2^64 the tweak is read back as the number it carries, and that number, less the origin, is a number in base `k`. -/
theorem tweaksAreDistinct : Obligations.TweaksAreDistinct := by
  intro t x y i j hx hy hi hj below below' same
  have read (a b : Nat) (h : t.origin.toNat + (a - t.base) * t.k + b < 2 ^ 64) :
      (tweakOf t a b).toNat = t.origin.toNat + (a - t.base) * t.k + b := by
    rw [tweakOf, BitVec.toNat_ofNat, Nat.mod_eq_of_lt h, Nat.mod_eq_of_lt (h.trans (by norm_num))]
  have digits : (x - t.base) * t.k + i = (y - t.base) * t.k + j := by
    have := congrArg BitVec.toNat same
    rw [read x i below, read y j below'] at this
    omega
  have unit : i = j := by
    have := congrArg (· % t.k) digits
    simpa [Nat.mul_add_mod', Nat.mod_eq_of_lt hi, Nat.mod_eq_of_lt hj] using this
  have block : x - t.base = y - t.base := Nat.eq_of_mul_eq_mul_right (Nat.zero_lt_of_lt hi) (by omega)
  exact ⟨by omega, unit⟩

/-! ### The split (R26) -/

/-- The runs begin at `a`, follow one another without gap or overlap, and each has the one owner of its blocks. -/
def RunsFrom (own : Nat → Owner) : Nat → List Run → Prop
  | _, [] => True
  | a, r :: rest => r.first = a ∧ 0 < r.count ∧ (∀ x, a ≤ x → x < a + r.count → own x = r.owner) ∧ RunsFrom own (a + r.count) rest

/-- Neighbouring runs have different owners. -/
def RunsDiffer (l : List Run) : Prop := l.IsChain (fun p q => p.owner ≠ q.owner)

theorem joinRun_runsFrom {own : Nat → Owner} {a : Nat} {l : List Run} (h : RunsFrom own (a + 1) l) :
    RunsFrom own a (joinRun (own a) a l) := by
  have single {x : Nat} (low : a ≤ x) (high : x < a + 1) : own x = own a := by rw [show x = a by omega]
  cases l with
  | nil => exact ⟨rfl, Nat.one_pos, fun x => single, trivial⟩
  | cons r rest =>
    obtain ⟨first, positive, owned, next⟩ := h
    rw [joinRun]
    split
    · next same =>
      refine ⟨rfl, Nat.succ_pos _, fun x low high => ?_, ?_⟩
      · by_cases e : x = a
        · rw [e]
        · exact (owned x (by omega) (by dsimp only at high; omega)).trans same
      · dsimp only
        rwa [show a + (r.count + 1) = a + 1 + r.count by omega]
    · exact ⟨rfl, Nat.one_pos, fun x => single, first, positive, owned, next⟩

theorem joinRun_runsDiffer (o : Owner) (a : Nat) {l : List Run} (h : RunsDiffer l) : RunsDiffer (joinRun o a l) := by
  cases l with
  | nil => exact List.isChain_singleton _
  | cons r rest =>
    rw [joinRun]
    split
    · next same =>
      cases rest with
      | nil => exact List.isChain_singleton _
      | cons q rest =>
        obtain ⟨differs, later⟩ := List.isChain_cons_cons.1 h
        exact List.isChain_cons_cons.2 ⟨same ▸ differs, later⟩
    · next other => exact List.isChain_cons_cons.2 ⟨Ne.symm other, h⟩

theorem joinRun_sum (o : Owner) (a : Nat) (l : List Run) : ((joinRun o a l).map (·.count)).sum = (l.map (·.count)).sum + 1 := by
  cases l with
  | nil => rfl
  | cons r rest =>
    rw [joinRun]
    split
    · simp; omega
    · simp; omega

theorem split_spec (s : State) (a n : Nat) :
    RunsFrom s.ownerOf a (s.split a n) ∧ RunsDiffer (s.split a n) ∧ ((s.split a n).map (·.count)).sum = n := by
  induction n generalizing a with
  | zero => exact ⟨trivial, List.isChain_nil, rfl⟩
  | succ n ih =>
    obtain ⟨runs, differ, sum⟩ := ih (a + 1)
    exact ⟨joinRun_runsFrom runs, joinRun_runsDiffer _ a differ, (joinRun_sum _ a _).trans (congrArg (· + 1) sum)⟩

/-- The `i`th of runs that begin at `a`. -/
theorem RunsFrom.get {own : Nat → Owner} {a : Nat} {l : List Run} (h : RunsFrom own a l) (i : Nat) (hi : i < l.length) :
    l[i].first = a + ((l.take i).map (·.count)).sum ∧ 0 < l[i].count ∧
      ∀ x, l[i].first ≤ x → x < l[i].first + l[i].count → own x = l[i].owner := by
  induction l generalizing a i with
  | nil => exact absurd hi (Nat.not_lt_zero _)
  | cons r rest ih =>
    obtain ⟨first, positive, owned, next⟩ := h
    cases i with
    | zero => exact ⟨first, positive, by rw [List.getElem_cons_zero, first]; exact owned⟩
    | succ i =>
      obtain ⟨at_, rest⟩ := ih next i (Nat.lt_of_succ_lt_succ hi)
      refine ⟨?_, rest⟩
      rw [List.getElem_cons_succ, at_]
      simp; omega

/-! ### The owner of a block (R3, R26) -/

theorem ownerOf_shadow {s : State} {x : Nat} (present : s.shadow ≠ .off) (inside : x < s.shadowRecord.size) : s.ownerOf x = .shadow := by
  simp [State.ownerOf, State.windowPresent, present, inside]

theorem ownerOf_outside {s : State} {x : Nat} (h : s.shadow = .off ∨ s.shadowRecord.size ≤ x) :
    s.ownerOf x = .range ((s.definedOwner x).getD 0) := by
  have outside : ¬ (s.windowPresent = true ∧ x < s.shadowRecord.size) := by
    rcases h with off | beyond
    · simp [State.windowPresent, off]
    · exact fun present => absurd present.2 (by omega)
  rw [State.ownerOf, if_neg outside]
  cases s.definedOwner x <;> rfl

theorem definedOwner_owns {s : State} {x : Nat} {r : RangeId} (h : s.definedOwner x = some r) : s.owns r x := by
  simpa [State.owns] using List.find?_some h

theorem definedOwner_none {s : State} {x : Nat} (h : s.definedOwner x = none) (r : RangeId) : ¬ s.owns r x := by
  simpa [State.owns] using List.find?_eq_none.1 h r (allRanges_mem r)

/-- Settles O9: the runs by induction along the blocks, the owner by the range that is found. -/
theorem splitCoversTransfer : Obligations.SplitCoversTransfer := by
  refine ⟨fun s a n => ?_, fun s x => ⟨ownerOf_shadow, fun outside => ?_⟩⟩
  · obtain ⟨runs, differ, sum⟩ := split_spec s a n
    exact ⟨sum, runs.get, fun i h => List.isChain_iff_getElem.1 differ i h⟩
  · rw [ownerOf_outside outside]
    refine ⟨fun r owns only => ?_, fun unowned => ?_⟩
    · cases found : s.definedOwner x with
      | none => exact absurd owns (definedOwner_none found r)
      | some q => exact congrArg Owner.range (only q (definedOwner_owns found))
    · cases found : s.definedOwner x with
      | none => rfl
      | some q => exact absurd (definedOwner_owns found) (unowned q)

/-! ### Dispositions (R27, R28) -/

theorem unfinished_iff (p : WipePlan) (o : Owner) :
    p.unfinished o = true ↔ ∃ i, p.items.find? (fun i => i.target = o) = some i ∧ i.step ≠ .done := by
  simp only [WipePlan.unfinished, WipePlan.item, Option.any_eq_true, decide_eq_true_eq]

theorem shadowErasing_iff (s : State) : s.shadowErasing = true ↔ ∃ p, (p = s.plan ∨ p = s.wipe.intended) ∧
    (p.full = true ∨ ∃ i, p.items.find? (fun i => i.target = .shadow) = some i ∧ i.step ≠ .done) := by
  simp only [State.shadowErasing, Bool.or_eq_true, ← unfinished_iff, or_and_right, exists_or, exists_eq_left]
  tauto

/-- Settles O10: the table of each direction, row by row. -/
theorem dispositionTables : Obligations.DispositionTables := by
  intro s
  refine ⟨shadowErasing_iff s, fun e => ?_, fun e => ?_, fun e l => ?_, fun e on => ?_, fun r => ⟨fun e => ?_, fun e => ?_, fun e => ?_, fun e => ⟨?_, ?_, ?_, ?_⟩⟩⟩
  · simp [State.readTreatment, State.writeTreatment, e]
  · simp [State.readTreatment, e]
  · simp [State.writeTreatment, e, l]
  · simp [State.writeTreatment, e, on]
  · simp only [State.readTreatment, State.writeTreatment, e, and_self]
  · simp only [State.readTreatment, State.writeTreatment, e, and_self]
  · simp only [State.readTreatment, State.writeTreatment, e, and_true]
    cases s.table[r].inForce <;> rfl
  · intro closed
    simp only [State.readTreatment, e, closed, if_true]
    cases (s.range r).fields.lockedRead <;> rfl
  · intro closed
    simp only [State.writeTreatment, e, closed, if_true]
  · intro opened
    simp only [State.readTreatment, e, opened, Bool.false_eq_true, if_false]
    rfl
  · intro opened
    simp only [State.writeTreatment, e, opened, Bool.false_eq_true, if_false]
    rfl

end Sys2Proof.Machine

namespace Sys2Proof.Machine

/-! ### Admission (R24, R25, R29, R30) -/

theorem exec_admit {s : State} (powered : s.power.powered = true) (tag directionByte : Byte) (start : BitVec 40) (countLessOne : BitVec 16) :
    exec (.admitRequest tag directionByte start countLessOne) s =
      .next (settle (s.takeAdmit tag directionByte start.toNat (countLessOne.toNat + 1))) :=
  congrArg Host.Outcome.next (whilePowered_on _ powered)

section Admit

variable {s : State} {tag directionByte : Byte} {t : Tag} {d : Direction} {a n : Nat}

theorem takeAdmit_misformed (h : tagOf tag = none ∨ directionOf directionByte = none) :
    s.takeAdmit tag directionByte a n = s.say (.refused tag .badDescriptor none) := by
  unfold State.takeAdmit
  split
  · next ht hd => rcases h with h | h <;> simp_all
  · rfl

theorem takeAdmit_part (ht : tagOf tag = some t) (hd : directionOf directionByte = some d) {reason : RefuseReason}
    (part : admitPartRefusal s.power.part = some reason) :
    s.takeAdmit tag directionByte a n = s.say (.refused tag reason none) := by
  simp only [State.takeAdmit, ht, hd, part]

theorem takeAdmit_ready (ht : tagOf tag = some t) (hd : directionOf directionByte = some d) (ready : s.power.part = .ready) :
    s.takeAdmit tag directionByte a n = s.admitTransfer tag t d a n := by
  simp only [State.takeAdmit, ht, hd, ready, admitPartRefusal]

/-- The first run that is refused is the one that is named (R29). -/
theorem firstRefusal_append (s : State) (d : Direction) {before after : List Run} {run : Run} {reason : RefuseReason}
    (allowed : ∀ q ∈ before, ∃ p, s.treatment d q.owner = .ok p) (refused : s.treatment d run.owner = .error reason) :
    s.firstRefusal d (before ++ run :: after) = some (reason, run.owner) := by
  induction before with
  | nil => simp only [List.nil_append, State.firstRefusal, refused]
  | cons q before ih =>
    obtain ⟨p, ok⟩ := allowed q List.mem_cons_self
    simp only [List.cons_append, State.firstRefusal, ok]
    exact ih fun r m => allowed r (.tail _ m)

theorem firstRefusal_none (s : State) (d : Direction) {runs : List Run} (allowed : ∀ q ∈ runs, ∃ p, s.treatment d q.owner = .ok p) :
    s.firstRefusal d runs = none := by
  induction runs with
  | nil => rfl
  | cons q runs ih =>
    obtain ⟨p, ok⟩ := allowed q List.mem_cons_self
    simp only [State.firstRefusal, ok]
    exact ih fun r m => allowed r (.tail _ m)

end Admit

/-- Settles O12: each check in its turn answers by itself. -/
theorem admitRefusalLeavesNoTrace : Obligations.AdmitRefusalLeavesNoTrace := by
  intro s tag directionByte start countLessOne powered
  rw [exec_admit powered]
  refine ⟨fun h => ?_, fun t d ht hd => ⟨fun part => ?_, fun part => ?_, fun part => ?_, fun ready used => ?_, fun ready free =>
    ⟨fun beyond => ?_, fun within before after run reason runs allowed refused => ?_⟩⟩⟩
  · rw [takeAdmit_misformed h]
  · rw [takeAdmit_part ht hd (reason := .starting) (by rw [part]; rfl)]
  · rw [takeAdmit_part ht hd (reason := .asleep) (by rcases part with part | part <;> rw [part] <;> rfl)]
  · rw [takeAdmit_part ht hd (reason := .storeFault) (by rw [part]; rfl)]
  · rw [takeAdmit_ready ht hd ready, State.admitTransfer, if_pos used]
  · rw [takeAdmit_ready ht hd ready, State.admitTransfer, free, if_neg (by decide), if_pos beyond]
  · rw [takeAdmit_ready ht hd ready, State.admitTransfer, free, if_neg (by decide), if_neg (by omega)]
    simp only [runs, firstRefusal_append s d allowed refused]

/-- The segments of runs that are all allowed: one per run, with what their owners give them (R26, R29, R30). -/
theorem segmentsOf_allowed (s : State) (d : Direction) {runs : List Run} (allowed : ∀ q ∈ runs, ∃ p, s.treatment d q.owner = .ok p) :
    (s.segmentsOf d runs).map (fun g => (g.owner, g.first, g.count)) = runs.map (fun r => (r.owner, r.first, r.count)) ∧
      ∀ g ∈ s.segmentsOf d runs, ∃ r p, s.treatment d r.owner = .ok p ∧ g = s.segmentOf r p := by
  induction runs with
  | nil => exact ⟨rfl, fun g m => absurd m List.not_mem_nil⟩
  | cons q runs ih =>
    obtain ⟨p, ok⟩ := allowed q List.mem_cons_self
    obtain ⟨places, given⟩ := ih fun r m => allowed r (.tail _ m)
    simp only [State.segmentsOf, ok, List.map_cons, places]
    refine ⟨rfl, fun g m => ?_⟩
    rcases List.mem_cons.1 m with rfl | m
    · exact ⟨q, p, ok, rfl⟩
    · exact given g m

/-- What a segment records (R30, R33). -/
theorem segmentOf_fields (s : State) (r : Run) (p : Disposition) :
    (s.segmentOf r p).step = .waiting ∧ (s.segmentOf r p).progress = 0 ∧
      ((s.segmentOf r p).keyRef = if p = .zero then none else some r.owner) ∧
      (∀ q : RangeId, p = .cipher → r.owner = .range q → (s.segmentOf r p).tweak = some (s.recordedTweak q)) ∧
      (p ≠ .cipher → (s.segmentOf r p).tweak = none) := by
  refine ⟨rfl, rfl, ?_, ?_, ?_⟩
  · cases p <;> rfl
  · rintro q rfl owner
    simp only [State.segmentOf, owner]
  · cases p <;> simp [State.segmentOf]

theorem addRefs_eq (l : List Owner) (s : State) :
    s.addRefs l = { s with cache := (s.addRefs l).cache, shadowEntry := (s.addRefs l).shadowEntry } := by
  have aside := forEach_keeps (fun u : State => ({ u with cache := s.cache, shadowEntry := s.shadowEntry } : State))
    (fun o u => u.modKey o KeyEntry.addRef) (fun o u => by cases o <;> rfl) l s
  have back := congrArg (fun u : State => ({ u with cache := (s.addRefs l).cache, shadowEntry := (s.addRefs l).shadowEntry } : State)) aside
  exact back

theorem tagOf_eq_some {tag : Byte} {t : Tag} (h : tagOf tag = some t) : BitVec.ofNat 8 t.val = tag := by
  unfold tagOf at h
  split at h
  · cases h; simp
  · cases h

theorem restartIdle_with (s : State) : s.restartIdle = { s with trigger := s.restartIdle.trigger } := by
  unfold State.restartIdle
  split <;> rfl

/-- What an admission enters (R29). -/
theorem admitSegments_eq (s : State) (t : Tag) (d : Direction) (a n : Nat) (segments : List Segment) :
    s.admitSegments t d a n segments = { s with
      inflight := s.inflight.set t (some
        { direction := d, start := a, count := n, generation := s.tableGeneration, sequence := s.nextSequence, segments := segments,
          state := .running, abortReason := none, failingLba := none })
      nextSequence := s.nextSequence + 1
      cache := (s.admitSegments t d a n segments).cache, shadowEntry := (s.admitSegments t d a n segments).shadowEntry
      trigger := s.restartIdle.trigger
      sent := s.sent ++ [.admitted (BitVec.ofNat 8 t.val) segments.length s.tableGeneration] } := by
  unfold State.admitSegments
  dsimp only
  rw [restartIdle_with (State.addRefs _ _), restartIdle_trigger s _ (by rw [addRefs_eq]; rfl) (by rw [addRefs_eq]; rfl), addRefs_eq]
  rfl

theorem admitSegments_key (s : State) (t : Tag) (d : Direction) (a n : Nat) (segments : List Segment) (o : Owner) :
    (s.admitSegments t d a n segments).key o =
      { s.key o with refs := (s.key o).refs + (segments.filter (fun g => g.keyRef = some o)).length } := by
  rw [← count_keyRefs]
  unfold State.admitSegments
  dsimp only
  rw [restartIdle_with]
  have taken := addRefs_key (segments.filterMap (·.keyRef)) (({ s with nextSequence := s.nextSequence + 1 } : State).setTransfer t (some
    { direction := d, start := a, count := n, generation := s.tableGeneration, sequence := s.nextSequence, segments := segments,
      state := .running, abortReason := none, failingLba := none })) o
  cases o <;> exact taken

/-- Settles O11: no run is refused, and the segments enter with their references. -/
theorem admitEntersTransfer : Obligations.AdmitEntersTransfer := by
  intro s tag directionByte t d start countLessOne powered ready ht hd free within allowed
  obtain ⟨places, given⟩ := segmentsOf_allowed s d allowed
  rw [exec_admit powered, takeAdmit_ready ht hd ready, State.admitTransfer, free, if_neg (by decide), if_neg (by omega)]
  simp only [firstRefusal_none s d allowed]
  generalize s.segmentsOf d (s.split start.toNat (countLessOne.toNat + 1)) = segments at places given
  refine ⟨_, segments, rfl, places, fun g m => ?_, admitSegments_key s t d _ _ segments, ?_⟩
  · obtain ⟨r, p, ok, rfl⟩ := given g m
    obtain ⟨step, progress, keyRef, cipher, other⟩ := segmentOf_fields s r p
    exact ⟨ok, step, progress, keyRef, cipher, other⟩
  · rw [← tagOf_eq_some ht]
    exact admitSegments_eq s t d _ _ segments

end Sys2Proof.Machine

namespace Sys2Proof.Machine

/-! ### Lanes and in-flight entries, written and read back -/

@[simp] theorem setLane_here (s : State) (l : LaneId) (x : Lane) : (s.setLane l x).lanes[l] = x := by simp [State.setLane]

theorem setLane_there (s : State) {l k : LaneId} (x : Lane) (h : k ≠ l) : (s.setLane l x).lanes[k] = s.lanes[k] := by
  have : l.val ≠ k.val := fun e => h (Fin.ext e.symm)
  simp [State.setLane, this]

theorem setLane_setLane (s : State) (l : LaneId) (x y : Lane) : (s.setLane l x).setLane l y = s.setLane l y := by
  simp [State.setLane]

theorem setLane_self (s : State) (l : LaneId) : s.setLane l s.lanes[l] = s := by
  have same : s.lanes.set l s.lanes[l] = s.lanes := Vector.set_getElem_self l.isLt
  rw [State.setLane, same]

@[simp] theorem setTransfer_here (s : State) (t : Tag) (x : Option Transfer) : (s.setTransfer t x).inflight[t] = x := inflight_set_same _ _ _

theorem setTransfer_setTransfer (s : State) (t : Tag) (x y : Option Transfer) : (s.setTransfer t x).setTransfer t y = s.setTransfer t y := by
  simp [State.setTransfer]

theorem setTransfer_self {s : State} {t : Tag} {x : Option Transfer} (h : s.inflight[t] = x) : s.setTransfer t x = s := by
  have same : s.inflight.set t x = s.inflight := by rw [← h]; exact Vector.set_getElem_self t.isLt
  rw [State.setTransfer, same]

/-! ### Ends one after the other

What ends a segment or a transfer exchanges the transfer's entry and releases references. Several ends in a row release one after the
other what the first entry held. -/

section Exchanged

variable (s : State) (t : Tag) (x : Transfer) (l : List Owner)

theorem endSegment_exchanged (i : Nat) (step : SegStep) :
    ∃ r, ((s.setTransfer t (some x)).releaseRefs l).endSegment t i step =
        (s.setTransfer t (some (x.modSegment i (fun g => { g with step := step, keyRef := none })))).releaseRefs (l ++ r) ∧
      ∀ o, (x.modSegment i (fun g => { g with step := step, keyRef := none })).refs.count o + r.count o = x.refs.count o := by
  have entry : ((s.setTransfer t (some x)).releaseRefs l).inflight[t] = some x := by rw [releaseRefs_inflight, setTransfer_here]
  cases segment : x.segments[i]? with
  | none =>
    have unchanged : x.modSegment i (fun g => { g with step := step, keyRef := none }) = x := by
      rw [Transfer.modSegment, List.modify_eq_self (by simpa using segment)]
    refine ⟨[], ?_, fun o => by rw [unchanged]; rfl⟩
    simp only [State.endSegment, entry, segment, unchanged, releaseRefs_nil, setTransfer_releaseRefs, setTransfer_setTransfer,
      List.append_nil]
  | some g =>
    refine ⟨g.keyRef.toList, ?_, count_refs_modify x.segments segment _ rfl⟩
    rw [endSegment_of_entry entry segment, setTransfer_releaseRefs, setTransfer_setTransfer, releaseRefs_append]

theorem discardWaiting_exchanged :
    ((s.setTransfer t (some x)).releaseRefs l).discardWaiting t =
      (s.setTransfer t (some { x with segments := x.segments.map Segment.discard })).releaseRefs
        (l ++ (x.segments.filter (fun g => g.step = .waiting)).filterMap (·.keyRef)) := by
  have entry : ((s.setTransfer t (some x)).releaseRefs l).inflight[t] = some x := by rw [releaseRefs_inflight, setTransfer_here]
  rw [discardWaiting_of_entry entry, setTransfer_releaseRefs, setTransfer_setTransfer, releaseRefs_append]

theorem endTransfer_exchanged (final : TransferState) :
    ((s.setTransfer t (some x)).releaseRefs l).endTransfer t final =
      ((s.setTransfer t none).say (.completion t final (if final = .aborted then x.abortReason else none)
        (if final = .mediaError ∨ final = .cancelled then x.failingLba else none))).releaseRefs (l ++ x.refs) := by
  have entry : ((s.setTransfer t (some x)).releaseRefs l).inflight[t] = some x := by rw [releaseRefs_inflight, setTransfer_here]
  rw [endTransfer_of_entry entry, setTransfer_releaseRefs, setTransfer_setTransfer, say_releaseRefs, releaseRefs_append]

end Exchanged

/-- What releases every reference of a transfer, with its tag freed and messages sent, has ended it (R32, R36). -/
theorem transferEnded_of_release {s u : State} {t : Tag} {y : Transfer} {messages : List Sent} {l : List Owner}
    (inflight : u.inflight = s.inflight.set t none) (sent : u.sent = s.sent ++ messages) (key : ∀ o, u.key o = s.key o)
    (count : ∀ o, l.count o = y.refs.count o) : transferEnded s (u.releaseRefs l) t y messages :=
  ⟨(releaseRefs_inflight _ _).trans inflight, (releaseRefs_sent _ _).trans sent, fun o => by
    rw [releaseRefs_key, key, count, holds_all]⟩

/-! ### CANCEL (R43) -/

theorem exec_cancel {s : State} (powered : s.power.powered = true) (tag : Byte) : exec (.cancel tag) s = .next (settle (s.cancel tag)) :=
  congrArg Host.Outcome.next (whilePowered_on _ powered)

theorem cancel_free {s : State} {tag : Byte} (h : ∀ t, tagOf tag = some t → s.inflight[t] = none) :
    s.cancel tag = s.say (.cancelReply tag false) := by
  unfold State.cancel
  split
  · rfl
  · next t used => rw [h t used]

theorem cancel_entry {s : State} {tag : Byte} {t : Tag} {y : Transfer} (used : tagOf tag = some t) (entry : s.inflight[t] = some y) :
    s.cancel tag = if y.state = .running then (s.say (.cancelReply tag true)).cancelRunning t y else s.say (.cancelReply tag true) := by
  simp only [State.cancel, used, entry]

/-- Settles O14: by outcome state; the discards and the end release what the WAITING segments held and what is left. -/
theorem cancelByOutcomeState : Obligations.CancelByOutcomeState := by
  intro s tag powered
  rw [exec_cancel powered]
  refine ⟨fun free => by rw [cancel_free free], fun t y used entry => ?_⟩
  have discards := discardWaiting_exchanged (s.say (.cancelReply tag true)) t y []
  rw [releaseRefs_nil, setTransfer_self (by exact entry), List.nil_append] at discards
  rw [cancel_entry used entry]
  refine ⟨fun going => ?_, fun running noLane => ?_, fun running lane => ?_⟩
  · rw [if_neg (by rcases going with e | e <;> rw [e] <;> decide)]
  · rw [if_pos running, State.cancelRunning, discards, noLane, if_neg (by decide), endTransfer_exchanged]
    have ended := transferEnded_of_release (s := s) (t := t) (y := y)
      (u := ((s.say (.cancelReply tag true)).setTransfer t none).say (.completion t .cancelled none y.failingLba)) (messages := [_, _])
      rfl (List.append_assoc _ _ _) (fun o => by cases o <;> rfl) fun o =>
        (List.count_append.trans (Nat.add_comm _ _)).trans (count_refs_discard y.segments o)
    exact ⟨_, rfl, ended.2.2, by rw [releaseRefs_eq]; simp [State.say, State.setTransfer]⟩
  · rw [if_pos running, State.cancelRunning, discards]
    rw [lane, if_pos rfl]
    simp only [releaseRefs_inflight, setTransfer_here, setTransfer_releaseRefs, setTransfer_setTransfer]
    refine ⟨_, rfl, fun o => ?_, ?_⟩
    · rw [releaseRefs_key, holds_eq_count]
      cases o <;> rfl
    · rw [releaseRefs_eq]
      rfl

end Sys2Proof.Machine

namespace Sys2Proof.Machine

/-! ### The completion of a segment (R41) -/

/-- A transfer with one more block of a segment moved (R33). -/
def Transfer.moved (y : Transfer) (i : Nat) : Transfer := y.modSegment i (fun g => { g with progress := g.progress + 1 })

/-- A transfer with the last block of a segment moved and the segment FINISHED (R33, R41). -/
def Transfer.finished (y : Transfer) (i : Nat) : Transfer :=
  y.modSegment i (fun g => { g with progress := g.progress + 1, step := .finished, keyRef := none })

theorem modSegment_moved (y : Transfer) (i : Nat) (f : Segment → Segment) :
    (y.moved i).modSegment i f = y.modSegment i (fun g => f { g with progress := g.progress + 1 }) := by
  simp only [Transfer.moved, Transfer.modSegment, List.modify_modify_eq]
  rfl

theorem moved_segment {y : Transfer} {i : Nat} {g : Segment} (h : y.segments[i]? = some g) :
    (y.moved i).segments[i]? = some { g with progress := g.progress + 1 } := by
  simp [Transfer.moved, Transfer.modSegment, h]

theorem moved_length (y : Transfer) (i : Nat) : (y.moved i).segments.length = y.segments.length := List.length_modify ..

theorem finished_refs {y : Transfer} {i : Nat} {g : Segment} (h : y.segments[i]? = some g) (o : Owner) :
    (y.finished i).refs.count o + g.keyRef.toList.count o = y.refs.count o := count_refs_modify y.segments h _ rfl o

/-- The end of a segment whose last block has just been moved. -/
theorem endSegment_moved (s : State) (t : Tag) {y : Transfer} {i : Nat} {g : Segment} (h : y.segments[i]? = some g) :
    (s.setTransfer t (some (y.moved i))).endSegment t i .finished =
      (s.setTransfer t (some (y.finished i))).releaseRefs g.keyRef.toList := by
  rw [endSegment_of_entry (setTransfer_here _ _ _) (moved_segment h), setTransfer_setTransfer, modSegment_moved]
  rfl

section Completion

variable (s : State) (l : LaneId) (t : Tag) {y : Transfer} {i : Nat} {g : Segment} (h : y.segments[i]? = some g)
include h

/-- A RUNNING transfer goes on with a later segment (R41). -/
theorem completeSegment_later (running : y.state = .running) (later : i + 1 < y.segments.length) :
    (s.setTransfer t (some (y.moved i))).completeSegment l t i =
      ((s.setLane l idleLane).setTransfer t (some (y.finished i))).releaseRefs g.keyRef.toList := by
  have ended : ((s.setTransfer t (some (y.moved i))).setLane l idleLane).endSegment t i .finished = _ :=
    endSegment_moved (s.setLane l idleLane) t h
  have state : (y.moved i).state = .running := running
  simp only [State.completeSegment, ended, setTransfer_here, state, moved_length]
  rw [if_neg (Nat.ne_of_lt later)]

/-- A RUNNING transfer ends DONE with its last segment, and a CANCELLING one ends CANCELLED with any (R41, R43). -/
theorem completeSegment_ends (ending : y.state = .running ∧ i + 1 = y.segments.length ∨ y.state = .cancelling) :
    (s.setTransfer t (some (y.moved i))).completeSegment l t i =
      (((s.setLane l idleLane).setTransfer t none).say
        (.completion t (if y.state = .running then .done else .cancelled) none (if y.state = .running then none else y.failingLba))).releaseRefs
          (g.keyRef.toList ++ (y.finished i).refs) := by
  have ended : ((s.setTransfer t (some (y.moved i))).setLane l idleLane).endSegment t i .finished = _ :=
    endSegment_moved (s.setLane l idleLane) t h
  rcases ending with ⟨running, last⟩ | cancelling
  · have state : (y.moved i).state = .running := running
    simp only [State.completeSegment, ended, setTransfer_here, state, moved_length, endTransfer_exchanged, running]
    rw [if_pos last]
    rfl
  · have state : (y.moved i).state = .cancelling := cancelling
    simp only [State.completeSegment, ended, setTransfer_here, state, endTransfer_exchanged, cancelling]
    rfl

end Completion

/-- What the completion of a segment makes of the state in which its last block came, with what the lane had then and what was sent. -/
theorem segmentCompleted_of_moved {s v : State} {l : LaneId} {lane : Lane} {t : Tag} {y : Transfer} {i : Nat} {g : Segment}
    {data : List Sent} (h : y.segments[i]? = some g) (state : y.state = .running ∨ y.state = .cancelling)
    (began : v = { s with lanes := s.lanes.set l lane, sent := s.sent ++ data }) :
    segmentCompleted s ((v.setTransfer t (some (y.moved i))).completeSegment l t i) l t i y data := by
  have within : i < y.segments.length := (List.getElem?_eq_some_iff.1 h).1
  have idle : v.setLane l idleLane = { s with lanes := s.lanes.set l idleLane, sent := s.sent ++ data } := by
    rw [began]; simp [State.setLane]
  have key (o : Owner) : (v.setLane l idleLane).key o = s.key o := by rw [idle]; cases o <;> rfl
  have ends (ending : y.state = .running ∧ i + 1 = y.segments.length ∨ y.state = .cancelling) :
      transferEnded s ((v.setTransfer t (some (y.moved i))).completeSegment l t i) t y (data ++
        [.completion t (if y.state = .running then .done else .cancelled) none (if y.state = .running then none else y.failingLba)]) := by
    rw [completeSegment_ends v l t h ending]
    refine transferEnded_of_release (by rw [idle]; rfl) (by rw [idle]; exact List.append_assoc _ _ _)
      (fun o => (by cases o <;> rfl : _ = (v.setLane l idleLane).key o).trans (key o)) fun o => ?_
    rw [List.count_append, Nat.add_comm]
    exact finished_refs h o
  refine ⟨?_, fun running later => ?_, fun running last => ?_, fun cancelling => ?_⟩
  · by_cases later : y.state = .running ∧ i + 1 < y.segments.length
    · rw [completeSegment_later v l t h later.1 later.2, idle, releaseRefs_eq]
      rfl
    · have ending : y.state = .running ∧ i + 1 = y.segments.length ∨ y.state = .cancelling :=
        state.imp_left fun running => ⟨running, by have := mt (And.intro running) later; omega⟩
      rw [completeSegment_ends v l t h ending, idle, releaseRefs_eq]
      rfl
  · rw [completeSegment_later v l t h running later]
    refine ⟨?_, ?_, fun o => ?_⟩
    · rw [releaseRefs_sent, idle]; rfl
    · rw [releaseRefs_inflight, idle]; rfl
    · have same : ((v.setLane l idleLane).setTransfer t (some (y.finished i))).key o = s.key o :=
        (by cases o <;> rfl : _ = (v.setLane l idleLane).key o).trans (key o)
      rw [releaseRefs_key, same, h]
      congr 1
      cases ref : g.keyRef <;> simp [List.count_singleton, ref]
  · have ended := ends (.inl ⟨running, last⟩)
    rwa [running] at ended
  · have ended := ends (.inr cancelling)
    rwa [cancelling] at ended

/-! ### One block moved (R38) -/

section MoveBlock

variable {s : State} {l : LaneId} {t : Tag} {y : Transfer} {i : Nat} {g : Segment}

theorem moveBlock_last (entry : s.inflight[t] = some y) (segment : y.segments[i]? = some g) (working : s.lanes[l].failing = none)
    (last : g.progress + 1 = g.count) :
    s.moveBlock l t i = (s.setTransfer t (some (y.moved i))).completeSegment l t i := by
  simp only [State.moveBlock, entry, segment]
  rw [if_pos ⟨last, working⟩]
  rfl

theorem failIfReady_working (working : s.lanes[l].failing = none) : s.failIfReady l t i = s := by
  unfold State.failIfReady
  split
  · rfl
  · rw [working]
    split
    · next h => cases h
    · rfl

/-- A block moved that is not the segment's last: the lane issues its next media operations. -/
theorem moveBlock_more (task : s.lanes[l].task = some (.transfer t i)) (entry : s.inflight[t] = some y)
    (segment : y.segments[i]? = some g) (working : s.lanes[l].failing = none) (more : g.progress + 1 < g.count) :
    s.moveBlock l t i = (s.setTransfer t (some (y.moved i))).withIssued l y.direction { g with progress := g.progress + 1 }
      (s.issues s.lanes[l] { g with progress := g.progress + 1 }) := by
  have filled := fillLane_eq (s.setTransfer t (some (y.moved i))) l t i (y.moved i) _ task (setTransfer_here _ _ _) (moved_segment segment)
  simp only [State.moveBlock, entry, segment]
  rw [if_neg fun h => absurd h.1 (Nat.ne_of_lt more)]
  show ((s.setTransfer t (some (y.moved i))).fillLane l).failIfReady l t i = _
  rw [filled]
  exact failIfReady_working (by simp [State.withIssued]; exact working)

end MoveBlock

end Sys2Proof.Machine

namespace Sys2Proof.Machine

/-! ### Deliveries and answers of a lane (R8, R31, R38) -/

theorem exec_answer {s : State} (powered : s.power.powered = true) {l : LaneId} {t : Tag} {i : Nat}
    (task : s.lanes[l].task = some (.transfer t i)) (data : List Byte) :
    exec (.mediaAcknowledge l (.answer data)) s = .next (settle (s.answerTransfer l t i data)) := by
  refine congrArg Host.Outcome.next ((whilePowered_on _ powered).trans (congrArg settle ?_))
  simp only [State.laneReceives, task]

theorem exec_delivered {s : State} (powered : s.power.powered = true) {l : LaneId} {t : Tag} {i : Nat}
    (task : s.lanes[l].task = some (.transfer t i)) :
    exec (.mediaAcknowledge l .delivered) s = .next (settle (s.deliverTransfer l t i)) := by
  refine congrArg Host.Outcome.next ((whilePowered_on _ powered).trans (congrArg settle ?_))
  simp only [State.laneReceives, task]

theorem exec_mediaError {s : State} (powered : s.power.powered = true) {l : LaneId} {t : Tag} {i : Nat}
    (task : s.lanes[l].task = some (.transfer t i)) (n : Nat) :
    exec (.mediaError l n) s = .next (settle (s.errorTransfer l t i n)) := by
  refine congrArg Host.Outcome.next ((whilePowered_on _ powered).trans (congrArg settle ?_))
  simp only [State.laneFails, task]

section Lane

variable {s : State} {l : LaneId} {t : Tag} {i n : Nat} {rest : List Nat} {y : Transfer} {g : Segment} {data clear : List Byte}
  {later : List (Nat × List Byte)}

/-- What a lane delivers of a READ (R8, R31, R38): its next block, in the clear, and then the block is moved. -/
theorem deliverTransfer_eq (going : s.lanes[l].stopping = false) (entry : s.inflight[t] = some y) (read : y.direction = .read)
    (segment : y.segments[i]? = some g)
    (block : (g.disposition = .zero ∧ n = g.first + g.progress ∧ clear = List.replicate s.profile.blockSize 0 ∧ later = s.lanes[l].fetched) ∨
      (g.disposition ≠ .zero ∧ ∃ data, s.lanes[l].fetched = (n, data) :: later ∧
        clear = overUnits Config.decipher (s.laneKey g.owner) g.tweakBase s.profile.blockSize n data)) :
    s.deliverTransfer l t i = ((s.setLane l { s.lanes[l] with fetched := later }).say (.data t n clear)).moveBlock l t i := by
  have goes : ¬ (s.lanes[l].stopping = true ∨ y.direction = .write) := by rw [going, read]; decide
  simp only [State.deliverTransfer, entry, segment]
  rw [if_neg goes]
  rcases block with ⟨zero, rfl, rfl, rfl⟩ | ⟨nonzero, data, fetched, rfl⟩
  · rw [if_pos zero, setLane_self]
  · rw [if_neg nonzero, fetched]

theorem answerTransfer_read (issued : s.lanes[l].issued = n :: rest) (going : s.lanes[l].stopping = false)
    (working : s.lanes[l].failing = none) (entry : s.inflight[t] = some y) (read : y.direction = .read) :
    s.answerTransfer l t i data = s.setLane l { s.lanes[l] with issued := rest, fetched := s.lanes[l].fetched ++ [(n, data)] } := by
  simp only [State.answerTransfer, issued, going, working, entry, read, Option.isSome_none, Bool.false_eq_true, if_false, setLane_setLane]

theorem answerTransfer_write (issued : s.lanes[l].issued = n :: rest) (going : s.lanes[l].stopping = false)
    (working : s.lanes[l].failing = none) (entry : s.inflight[t] = some y) (write : y.direction = .write) :
    s.answerTransfer l t i data = (s.setLane l { s.lanes[l] with issued := rest }).moveBlock l t i := by
  simp only [State.answerTransfer, issued, going, working, entry, write, Option.isSome_none, Bool.false_eq_true, if_false]

/-- What a block moved that is not the last makes of the state in which it came, with what the lane had then and what was sent. -/
theorem moveBlock_issues {v : State} {lane : Lane} {messages : List Sent} {d : Direction} (direction : y.direction = d) (task : lane.task = some (.transfer t i))
    (working : lane.failing = none) (entry : s.inflight[t] = some y) (segment : y.segments[i]? = some g)
    (more : g.progress + 1 < g.count) (began : v = { s with lanes := s.lanes.set l lane, sent := s.sent ++ messages }) :
    let blocks := s.issues lane { g with progress := g.progress + 1 }
    v.moveBlock l t i = { s with
      lanes := s.lanes.set l { lane with issued := lane.issued ++ blocks }
      inflight := s.inflight.set t (some { y with segments := y.segments.modify i (fun g => { g with progress := g.progress + 1 }) })
      sent := s.sent ++ (messages ++ s.mediaOps l d g blocks)
      entropy := s.entropy + match d with
        | .read => 0
        | .write => blocks.length } := by
  subst direction
  have here : v.lanes[l] = lane := by rw [began]; simp
  have moved := moveBlock_more (s := v) (g := g) (by rw [here]; exact task) (by rw [began]; exact entry) segment
    (by rw [here]; exact working) more
  have issues : v.issues lane { g with progress := g.progress + 1 } = s.issues lane { g with progress := g.progress + 1 } := by
    rw [began]; rfl
  rw [here, issues] at moved
  rw [moved]
  generalize s.issues lane { g with progress := g.progress + 1 } = blocks
  have lanes : v.lanes.set l { lane with issued := lane.issued ++ blocks } = s.lanes.set l { lane with issued := lane.issued ++ blocks } := by
    rw [began]; simp
  have ops : (v.setTransfer t (some (y.moved i))).mediaOps l y.direction { g with progress := g.progress + 1 } blocks =
      s.mediaOps l y.direction g blocks := by
    rw [began]
    unfold State.mediaOps
    cases g.owner <;> rfl
  unfold State.withIssued
  rw [ops]
  show ({ v with
    inflight := v.inflight.set t (some (y.moved i)), lanes := v.lanes.set l { v.lanes[l] with issued := v.lanes[l].issued ++ blocks }
    sent := v.sent ++ s.mediaOps l y.direction g blocks, entropy := v.entropy + _ } : State) = _
  rw [here, lanes, began, List.append_assoc]
  rfl

end Lane

/-- Settles O17: the places, keys and tweaks by definition; a delivery and an answer by the block they move. -/
theorem deliveredBlockIsDeciphered : Obligations.DeliveredBlockIsDeciphered := by
  refine ⟨fun s r o key g b x j => ⟨rfl, rfl, fun material => ?_, fun tweak => ?_, fun tweak => ?_, ?_⟩,
    fun s l t i y g n clear later powered task going working entry read segment block => ⟨fun more => ?_, fun last state => ?_⟩,
    fun s l t i n rest y g data powered task issued going working entry segment => ⟨fun read => ?_, fun write more => ?_⟩⟩
  · rw [State.laneKey, material]; rfl
  · rw [Segment.tweakBase, tweak]; rfl
  · have plain : g.tweakBase = { k := 1, base := 0, origin := 0 } := by rw [Segment.tweakBase, tweak]; rfl
    rw [plain, tweakOf, BitVec.toNat_ofNat, Nat.mod_eq_of_lt ((Nat.mod_lt _ (by norm_num)).trans (by norm_num))]
    simp
  · rw [tweakOf, BitVec.toNat_ofNat, Nat.mod_eq_of_lt ((Nat.mod_lt _ (by norm_num)).trans (by norm_num))]
  · rw [exec_delivered powered task, deliverTransfer_eq going entry read segment block]
    have moved := moveBlock_issues (l := l) (lane := { s.lanes[l] with fetched := later }) (messages := [.data t n clear]) read task working entry
      segment more rfl
    exact congrArg (fun x => Host.Outcome.next (settle x)) moved
  · rw [exec_delivered powered task, deliverTransfer_eq going entry read segment block]
    rw [moveBlock_last (s := (s.setLane l _).say _) entry segment (by simp [State.say]; exact working) last]
    exact ⟨_, rfl, segmentCompleted_of_moved segment state rfl⟩
  · rw [exec_answer powered task, answerTransfer_read issued going working entry read]
    rfl
  · rw [exec_answer powered task, answerTransfer_write issued going working entry write]
    have moved := moveBlock_issues (l := l) (lane := { s.lanes[l] with issued := rest }) (messages := []) write task working entry
      segment more (v := s.setLane l { s.lanes[l] with issued := rest }) (by rw [List.append_nil]; rfl)
    exact congrArg (fun x => Host.Outcome.next (settle x)) moved

end Sys2Proof.Machine

namespace Sys2Proof.Machine

/-! ### Media errors and stops (R38, R42, R45) -/

/-- What a lane is left with that gives up a segment at a media error (R42, log 66). -/
def Lane.givenUp (x : Lane) : Lane :=
  if x.issued = [] then idleLane else { idleLane with task := some (.cleared none), issued := x.issued, stopping := true }

/-- A transfer with a segment STOPPED and its reference given up (R33, R36). -/
def Transfer.stopped (y : Transfer) (i : Nat) : Transfer := y.modSegment i fun g => { g with step := .stopped, keyRef := none }

section Failure

variable {s v : State} {l : LaneId} {lane : Lane} {t : Tag} {y z : Transfer}

/-- The end of a transfer at a media error: the segment is STOPPED, the WAITING ones are discarded and the rest is released (R42). -/
theorem failSegment_of_entry (entry : s.inflight[t] = some z) (state : z.state = .running ∨ z.state = .cancelling) (i : Nat) :
    ∃ r, s.failSegment l t i = (((s.setLane l s.lanes[l].givenUp).setTransfer t none).say
        (.completion t (if z.state = .running then .mediaError else .cancelled) none z.failingLba)).releaseRefs r ∧
      ∀ o, r.count o = z.refs.count o := by
  have stopped := endSegment_exchanged (s.setLane l s.lanes[l].givenUp) t z [] i .stopped
  rw [releaseRefs_nil, setTransfer_self (by exact entry)] at stopped
  obtain ⟨r, stopped, count⟩ := stopped
  rw [List.nil_append] at stopped
  refine ⟨(r ++ ((z.stopped i).segments.filter (fun g => g.step = .waiting)).filterMap (·.keyRef)) ++
    { z.stopped i with segments := (z.stopped i).segments.map Segment.discard }.refs, ?_, fun o => ?_⟩
  · have ended : ((s.setLane l s.lanes[l].givenUp).endSegment t i .stopped).discardWaiting t = _ :=
      (congrArg (State.discardWaiting · t) stopped).trans (discardWaiting_exchanged _ t _ r)
    show (match s.inflight[t] with
      | none => ((s.setLane l s.lanes[l].givenUp).endSegment t i .stopped).discardWaiting t
      | some x => match x.state with
        | .cancelling => (((s.setLane l s.lanes[l].givenUp).endSegment t i .stopped).discardWaiting t).endTransfer t .cancelled
        | _ => (((s.setLane l s.lanes[l].givenUp).endSegment t i .stopped).discardWaiting t).endTransfer t .mediaError) = _
    rw [ended, entry]
    rcases state with e | e <;> simp only [e, endTransfer_exchanged] <;> rfl
  · have discarded := count_refs_discard (z.stopped i).segments o
    have held : (z.stopped i).refs.count o + r.count o = z.refs.count o := count o
    rw [List.count_append, List.count_append]
    simp only [Transfer.refs] at held discarded ⊢
    omega

/-- What a media error that ends a transfer makes of the state in which it came, with what the lane had and the entry was then. -/
theorem failSegment_ends (refs : z.refs = y.refs) (same : z.state = y.state) (state : y.state = .running ∨ y.state = .cancelling)
    (began : v = { s with lanes := s.lanes.set l lane, inflight := s.inflight.set t (some z) }) (i : Nat) :
    transferEnded s (v.failSegment l t i) t y
        [.completion t (if y.state = .running then .mediaError else .cancelled) none z.failingLba] ∧
      v.failSegment l t i = { s with
        lanes := s.lanes.set l lane.givenUp, inflight := (v.failSegment l t i).inflight, cache := (v.failSegment l t i).cache
        shadowEntry := (v.failSegment l t i).shadowEntry, sent := (v.failSegment l t i).sent } := by
  obtain ⟨r, failed, count⟩ := failSegment_of_entry (l := l) (s := v) (t := t) (z := z) (by rw [began]; exact inflight_set_same _ _ _) (same ▸ state) i
  have here : v.lanes[l] = lane := by rw [began]; simp
  have lanes : v.lanes.set l lane.givenUp = s.lanes.set l lane.givenUp := by rw [began]; simp
  rw [here, same, State.setLane, lanes] at failed
  rw [failed]
  refine ⟨transferEnded_of_release (by rw [began]; simp [State.say, State.setTransfer]) (by rw [began]; rfl)
    (fun o => by rw [began]; cases o <;> rfl) (fun o => refs ▸ count o), ?_⟩
  rw [releaseRefs_eq, began]
  simp [State.say, State.setTransfer]

/-- A stopping lane whose last operation is answered ends its ABORTING transfer (R38, R45). -/
theorem reportStop_ends {i : Nat} (task : lane.task = some (.transfer t i)) (entry : s.inflight[t] = some y)
    (began : v = { s with lanes := s.lanes.set l lane }) :
    transferEnded s (v.reportStop l) t y [.completion t .aborted y.abortReason none] ∧
      v.reportStop l = { s with
        lanes := s.lanes.set l idleLane, inflight := (v.reportStop l).inflight, cache := (v.reportStop l).cache
        shadowEntry := (v.reportStop l).shadowEntry, sent := (v.reportStop l).sent } := by
  have here : v.lanes[l] = lane := by rw [began]; simp
  have idle : v.setLane l idleLane = { s with lanes := s.lanes.set l idleLane } := by rw [began]; simp [State.setLane]
  have stopped := endSegment_exchanged (v.setLane l idleLane) t y [] i .stopped
  rw [releaseRefs_nil, setTransfer_self (by rw [idle]; exact entry)] at stopped
  obtain ⟨r, stopped, count⟩ := stopped
  rw [List.nil_append] at stopped
  have ended : v.reportStop l = (((v.setLane l idleLane).setTransfer t none).say (.completion t .aborted y.abortReason none)).releaseRefs
      (r ++ (y.stopped i).refs) := by
    have reports : v.reportStop l = ((v.setLane l idleLane).endSegment t i .stopped).endTransfer t .aborted := by
      rw [State.reportStop, here, task]
    rw [reports, stopped, endTransfer_exchanged]
    rfl
  rw [ended, idle]
  refine ⟨transferEnded_of_release rfl rfl (fun o => by cases o <;> rfl) fun o => ?_, ?_⟩
  · rw [List.count_append, Nat.add_comm]
    exact count o
  · rw [releaseRefs_eq]
    rfl

end Failure

/-! ### What an error or an answer makes of the lane -/

section Lane

variable {s : State} {l : LaneId} {t : Tag} {i n m : Nat} {rest : List Nat} {y : Transfer} {g : Segment} {data : List Byte}

/-- A media error for the oldest unanswered operation of a lane that has met none (R42). -/
theorem errorTransfer_first (issued : s.lanes[l].issued = n :: rest) (going : s.lanes[l].stopping = false)
    (working : s.lanes[l].failing = none) (entry : s.inflight[t] = some y) :
    s.errorTransfer l t i n = ({ s with
      lanes := s.lanes.set l { s.lanes[l] with issued := rest, failing := some n }
      inflight := s.inflight.set t (some { y with failingLba := some n }) } : State).failIfReady l t i := by
  simp only [State.errorTransfer, issued, going, working, entry, ne_eq, not_true_eq_false, if_false, Option.isSome_none, Bool.false_eq_true,
    setLane_setLane]
  rfl

/-- A later media error or answer of a lane that works a WRITE and has met an error (R42). -/
theorem errorTransfer_later (issued : s.lanes[l].issued = n :: rest) (going : s.lanes[l].stopping = false)
    (failing : s.lanes[l].failing = some m) :
    s.errorTransfer l t i n = (s.setLane l { s.lanes[l] with issued := rest }).failIfReady l t i := by
  simp only [State.errorTransfer, issued, going, failing, ne_eq, not_true_eq_false, if_false, Option.isSome_some, Bool.false_eq_true, if_true]

theorem answerTransfer_later (issued : s.lanes[l].issued = n :: rest) (going : s.lanes[l].stopping = false)
    (failing : s.lanes[l].failing = some m) (entry : s.inflight[t] = some y) (write : y.direction = .write) :
    s.answerTransfer l t i data = (s.setLane l { s.lanes[l] with issued := rest }).failIfReady l t i := by
  simp only [State.answerTransfer, issued, going, failing, entry, write, if_false, Option.isSome_some, Bool.false_eq_true, if_true]

theorem errorTransfer_stopping (issued : s.lanes[l].issued = n :: rest) (stopping : s.lanes[l].stopping = true) :
    s.errorTransfer l t i n = (s.setLane l { s.lanes[l] with issued := rest }).reportIfStopped l := by
  simp only [State.errorTransfer, issued, stopping, ne_eq, not_true_eq_false, if_false, if_true]

theorem answerTransfer_stopping (issued : s.lanes[l].issued = n :: rest) (stopping : s.lanes[l].stopping = true) :
    s.answerTransfer l t i data = (s.setLane l { s.lanes[l] with issued := rest }).reportIfStopped l := by
  simp only [State.answerTransfer, issued, stopping, if_true]

/-- The lane finishes with its segment where the transfer has come to the failing block and no write is unanswered (R42). -/
theorem failIfReady_ready (entry : s.inflight[t] = some y) (segment : y.segments[i]? = some g) (failing : s.lanes[l].failing = some n)
    (come : g.first + g.progress = n) (answered : y.direction = .write → s.lanes[l].issued = []) :
    s.failIfReady l t i = s.failSegment l t i := by
  simp only [State.failIfReady, entry, segment, failing]
  exact if_pos ⟨come, answered⟩

theorem failIfReady_waits (entry : s.inflight[t] = some y) (write : y.direction = .write) (unanswered : s.lanes[l].issued ≠ []) :
    s.failIfReady l t i = s := by
  unfold State.failIfReady
  rw [entry]
  dsimp only
  split
  · exact if_neg fun h => unanswered (h.2 write)
  · rfl

end Lane

/-- Settles O16: each answer or error leads to the completion, the media error's end or the lane's report, which release what the transfer
still held. -/
theorem laneAnswerEndsTransfer : Obligations.LaneAnswerEndsTransfer := by
  refine ⟨fun s l t i n rest y g data powered task issued going working entry write state segment last => ?_,
    fun s l t i n rest y g powered task issued going working entry state segment come answered => ?_,
    fun s l t i n m rest y g powered task going entry write state segment => ⟨fun issued working => ?_, fun c hc issued failing come => ?_⟩,
    fun s l t i n y c powered task stopping entry aborting hc => ?_⟩
  · rw [exec_answer powered task, answerTransfer_write issued going working entry write,
      moveBlock_last (s := s.setLane l _) entry segment (by rw [setLane_here]; exact working) last]
    exact ⟨_, rfl, segmentCompleted_of_moved segment state (by rw [List.append_nil]; rfl)⟩
  · rw [exec_mediaError powered task, errorTransfer_first issued going working entry,
      failIfReady_ready (y := { y with failingLba := some n }) (inflight_set_same _ _ _) segment (by simp) come fun write => by simpa using answered write]
    obtain ⟨ended, changed⟩ := failSegment_ends (s := s) (l := l) (t := t) (y := y) (z := { y with failingLba := some n }) rfl rfl state rfl i
    have lanes := congrArg State.lanes changed
    refine ⟨_, rfl, ended, ?_, fun k other => ?_, fun none => ?_⟩
    · rw [lanes]; exact changed
    · rw [lanes]; exact setLane_there s _ other
    · rw [lanes]
      exact (setLane_here s l _).trans (if_pos none)
  · rw [exec_mediaError powered task, errorTransfer_first issued going working entry,
      failIfReady_waits (y := { y with failingLba := some n }) (inflight_set_same _ _ _) write (by simp)]
  · have ready : exec c s = .next (settle ((s.setLane l { s.lanes[l] with issued := [] }).failSegment l t i)) := by
      have done := failIfReady_ready (s := s.setLane l { s.lanes[l] with issued := [] }) (l := l) (t := t) (i := i) entry segment
        (by rw [setLane_here]; exact failing) come fun _ => congrArg Lane.issued (setLane_here s l _)
      rcases hc with rfl | ⟨data, rfl⟩
      · rw [exec_mediaError powered task, errorTransfer_later issued going failing, done]
      · rw [exec_answer powered task, answerTransfer_later issued going failing entry write, done]
    have same : s.inflight.set t (some y) = s.inflight := congrArg State.inflight (setTransfer_self entry)
    exact ⟨_, ready, failSegment_ends rfl rfl state (by rw [same]) i⟩
  · have taken (rest : List Nat) (issued : s.lanes[l].issued = n :: rest) :
        exec c s = .next (settle ((s.setLane l { s.lanes[l] with issued := rest }).reportIfStopped l)) := by
      rcases hc with rfl | ⟨data, rfl⟩
      · rw [exec_mediaError powered task, errorTransfer_stopping issued stopping]
      · rw [exec_answer powered task, answerTransfer_stopping issued stopping]
    refine ⟨fun issued => ?_, fun m rest issued => ?_⟩
    · rw [taken [] issued, State.reportIfStopped, setLane_here, if_pos ⟨stopping, rfl⟩]
      exact ⟨_, rfl, reportStop_ends (lane := { s.lanes[l] with issued := [] }) task entry rfl⟩
    · rw [taken _ issued, State.reportIfStopped, setLane_here, if_neg fun h => List.cons_ne_nil _ _ h.2]
      rfl

end Sys2Proof.Machine

namespace Sys2Proof.Machine

/-! ### The transfer side of the arbiter (R39) -/

/-- A transfer waits with the head segment `i` (R39). -/
theorem head_eq_some {x : Transfer} {i : Nat} : x.head = some i ↔ x.state = .running ∧ (∀ g ∈ x.segments, g.step ≠ .inLane) ∧
    (∀ j g, j < i → x.segments[j]? = some g → g.step = .finished) ∧ ∃ g, x.segments[i]? = some g ∧ g.step = .waiting := by
  have lane : x.inLane = false ↔ ∀ g ∈ x.segments, g.step ≠ .inLane := by simp [Transfer.inLane]
  have first : x.segments.findIdx? (fun g => g.step ≠ .finished) = some i ↔
      (∃ g, x.segments[i]? = some g ∧ g.step ≠ .finished) ∧ ∀ j g, j < i → x.segments[j]? = some g → g.step = .finished := by
    rw [List.findIdx?_eq_some_iff_getElem]
    constructor
    · rintro ⟨within, unfinished, before⟩
      refine ⟨⟨_, List.getElem?_eq_getElem within, by simpa using unfinished⟩, fun j g lt segment => ?_⟩
      obtain ⟨_, rfl⟩ := List.getElem?_eq_some_iff.1 segment
      simpa using before j lt
    · rintro ⟨⟨g, segment, unfinished⟩, before⟩
      obtain ⟨within, rfl⟩ := List.getElem?_eq_some_iff.1 segment
      exact ⟨within, by simpa using unfinished, fun j lt => by
        simpa using before j _ lt (List.getElem?_eq_getElem (lt.trans within))⟩
  rw [← lane]
  constructor
  · intro h
    unfold Transfer.head at h
    split at h
    · next waits =>
      split at h
      · next j found =>
        split at h
        · next g segment =>
          split at h
          · next waiting =>
            cases h
            exact ⟨waits.1, waits.2, (first.1 found).2, g, segment, waiting⟩
          · cases h
        · cases h
      · cases h
    · cases h
  · rintro ⟨running, none, before, g, segment, waiting⟩
    have found := first.2 ⟨⟨g, segment, by rw [waiting]; decide⟩, before⟩
    unfold Transfer.head
    rw [if_pos ⟨running, none⟩, found]
    dsimp only
    rw [segment]
    exact if_pos waiting

section NextTransfer

variable {s : State}

theorem earlier_free {t : Tag} (h : ∀ x, s.inflight[t] = some x → x.head = none) (best : Option (Tag × Nat × Nat)) :
    s.earlier best t = best := by
  unfold State.earlier
  cases entry : s.inflight[t] with
  | none => rfl
  | some x => simp only [h x entry]

theorem nextTransfer_none (h : ∀ (t : Tag) (x : Transfer), s.inflight[t] = some x → x.head = none) : s.nextTransfer = none := by
  have all (l : List Tag) : l.foldl s.earlier none = none := by
    induction l with
    | nil => rfl
    | cons t l ih => rw [List.foldl_cons, earlier_free (h t), ih]
  rw [State.nextTransfer, all]
  rfl

variable {t : Tag} {x : Transfer} {i : Nat}

/-- The transfer admitted first stays the best candidate (R39). -/
theorem earlier_first (entry : s.inflight[t] = some x)
    (first : ∀ (u : Tag) (y : Transfer), u ≠ t → s.inflight[u] = some y → y.head ≠ none → x.sequence < y.sequence) (u : Tag) : s.earlier (some (t, i, x.sequence)) u = some (t, i, x.sequence) := by
  unfold State.earlier
  cases other : s.inflight[u] with
  | none => rfl
  | some y =>
    dsimp only
    cases waits : y.head with
    | none => rfl
    | some j =>
      by_cases same : u = t
      · subst same
        cases entry.symm.trans other
        exact if_neg (lt_irrefl _)
      · exact if_neg (lt_asymm (first u y same other (by rw [waits]; exact Option.some_ne_none j)))

/-- A candidate that was admitted later, or none, gives way to the transfer admitted first (R39). -/
theorem earlier_takes (entry : s.inflight[t] = some x) (head : x.head = some i) {best : Option (Tag × Nat × Nat)} (later : ∀ b ∈ best, x.sequence < b.2.2) :
    s.earlier best t = some (t, i, x.sequence) := by
  unfold State.earlier
  simp only [entry, head]
  cases best with
  | none => rfl
  | some b => exact if_pos (later b rfl)

/-- Any other transfer leaves a candidate that was admitted later, or none (R39). -/
theorem earlier_later
    (first : ∀ (u : Tag) (y : Transfer), u ≠ t → s.inflight[u] = some y → y.head ≠ none → x.sequence < y.sequence)
    {u : Tag} (other : u ≠ t) {best : Option (Tag × Nat × Nat)} (later : ∀ b ∈ best, x.sequence < b.2.2) :
    ∀ b ∈ s.earlier best u, x.sequence < b.2.2 := by
  unfold State.earlier
  cases held : s.inflight[u] with
  | none => exact later
  | some y =>
    dsimp only
    cases waits : y.head with
    | none => exact later
    | some j =>
      have after := first u y other held (by rw [waits]; exact Option.some_ne_none j)
      cases best with
      | none => rintro _ ⟨⟩; exact after
      | some b =>
        dsimp only
        split
        · rintro _ ⟨⟩; exact after
        · exact later

theorem nextTransfer_first (entry : s.inflight[t] = some x) (head : x.head = some i)
    (first : ∀ (u : Tag) (y : Transfer), u ≠ t → s.inflight[u] = some y → y.head ≠ none → x.sequence < y.sequence) :
    s.nextTransfer = some (t, i) := by
  have stays (l : List Tag) : l.foldl s.earlier (some (t, i, x.sequence)) = some (t, i, x.sequence) := by
    induction l with
    | nil => rfl
    | cons u l ih => rw [List.foldl_cons, earlier_first entry first, ih]
  have comes (l : List Tag) (best : Option (Tag × Nat × Nat)) (later : ∀ b ∈ best, x.sequence < b.2.2) (among : t ∈ l) :
      l.foldl s.earlier best = some (t, i, x.sequence) := by
    induction l generalizing best with
    | nil => cases among
    | cons u l ih =>
      rw [List.foldl_cons]
      by_cases same : u = t
      · subst same
        rw [earlier_takes entry head later, stays]
      · exact ih _ (earlier_later first same later) ((List.mem_cons.1 among).resolve_left (Ne.symm same))
  rw [State.nextTransfer, comes allTags none (fun b h => by cases h) (allTags_mem t)]
  rfl

end NextTransfer

/-- A transfer with a segment IN_LANE (R33). -/
def Transfer.granted (x : Transfer) (i : Nat) : Transfer := x.modSegment i fun g => { g with step := .inLane }

/-- The state with a segment of a transfer handed to a lane that has issued nothing yet (R39). -/
def State.transferGranted (s : State) (l : LaneId) (t : Tag) (i : Nat) (x : Transfer) : State :=
  { (s.setTransfer t (some (x.granted i))).setLane l { idleLane with task := some (.transfer t i) } with lastGranted := .transfer }

/-- A grant to the transfer side (R38, R39): the segment goes to the lane, which issues its first blocks. -/
theorem grantTransfer_eq {s : State} {l : LaneId} {t : Tag} {x : Transfer} {i : Nat} {g : Segment} (entry : s.inflight[t] = some x)
    (segment : x.segments[i]? = some g) :
    s.grantTransfer l t i = (s.transferGranted l t i x).withIssued l x.direction { g with step := .inLane } (s.issues idleLane g) := by
  have marked : (x.granted i).segments[i]? = some { g with step := .inLane } := by
    simp [Transfer.granted, Transfer.modSegment, segment]
  have here : (s.transferGranted l t i x).lanes[l] = { idleLane with task := some (.transfer t i) } := setLane_here _ _ _
  have filled := fillLane_eq (s.transferGranted l t i x) l t i (x.granted i) _ (congrArg Lane.task here)
    (setTransfer_here _ _ _) marked
  rw [here] at filled
  unfold State.grantTransfer
  rw [entry]
  exact filled

theorem grantTransfer_spec {s : State} {l : LaneId} {t : Tag} {x : Transfer} {i : Nat} {g : Segment} (entry : s.inflight[t] = some x)
    (segment : x.segments[i]? = some g) :
    let granted := s.grantTransfer l t i
    granted.lastGranted = .transfer ∧ granted.lanes = s.lanes.set l
        { idleLane with task := some (.transfer t i), issued := s.issues idleLane g } ∧
      granted.inflight = s.inflight.set t (some (x.granted i)) ∧ granted.wipe = s.wipe ∧
      granted.sent = s.sent ++ s.mediaOps l x.direction g (s.issues idleLane g) := by
  have here : (s.transferGranted l t i x).lanes[l] = { idleLane with task := some (.transfer t i) } := setLane_here _ _ _
  rw [grantTransfer_eq entry segment]
  refine ⟨rfl, ?_, rfl, rfl, ?_⟩
  · unfold State.withIssued
    rw [here]
    exact Vector.set_set ..
  · have ops : (s.transferGranted l t i x).mediaOps l x.direction { g with step := .inLane } (s.issues idleLane g) =
        s.mediaOps l x.direction g (s.issues idleLane g) := by
      unfold State.mediaOps
      cases g.owner <;> rfl
    exact congrArg (s.sent ++ ·) ops

/-! ### The wipe side of the arbiter (R40, R130) -/

/-- A bound lowered by the values of some entries. -/
theorem foldl_min {α : Type} (p : α → Prop) [DecidablePred p] (f : α → Nat) (l : List α) (e : Nat) :
    let low := l.foldl (fun e q => if p q then min e (f q) else e) e
    low ≤ e ∧ (∀ q ∈ l, p q → low ≤ f q) ∧ (low = e ∨ ∃ q ∈ l, p q ∧ low = f q) := by
  induction l generalizing e with
  | nil => exact ⟨le_rfl, fun _ h => absurd h List.not_mem_nil, .inl rfl⟩
  | cons a l ih =>
    obtain ⟨below, lower, reached⟩ := ih (if p a then min e (f a) else e)
    rw [List.foldl_cons]
    refine ⟨below.trans (by split <;> omega), fun q among h => ?_, ?_⟩
    · rcases List.mem_cons.1 among with rfl | among
      · rw [if_pos h] at below ⊢
        exact below.trans (min_le_right _ _)
      · exact lower q among h
    · rcases reached with same | ⟨q, among, h, same⟩
      · by_cases h : p a
        · rw [if_pos h] at same ⊢
          rcases min_choice e (f a) with e' | e' <;> rw [e'] at same ⊢
          · exact .inl same
          · exact .inr ⟨a, List.mem_cons_self, h, same⟩
        · rw [if_neg h] at same ⊢
          exact .inl same
      · exact .inr ⟨q, List.mem_cons_of_mem _ among, h, same⟩

section Extent

variable (s : State)

/-- The blocks of range 0 are those below the capacity that no defined range owns (R3, R130). -/
theorem extentNext_zero (x : Nat) : s.extentNext (.range 0) x = some x ↔ (∀ r, ¬ s.owns r x) ∧ x < s.profile.capacity := by
  constructor
  · intro h
    have inside : s.nextFree x < s.profile.capacity ∧ s.nextFree x = x := by
      simpa [State.extentNext] using h
    have free := nextFree_free s x
    rw [inside.2] at free
    exact ⟨definedOwner_none free, inside.2 ▸ inside.1⟩
  · rintro ⟨free, inside⟩
    have none : s.definedOwner x = none := by
      cases found : s.definedOwner x with
      | none => rfl
      | some r => exact absurd (definedOwner_owns found) (free r)
    simp [State.extentNext, nextFree_of_free s x none, inside]

theorem extentNext_range {r : RangeId} (h : r ≠ 0) (x : Nat) : s.extentNext (.range r) x = some x ↔ s.owns r x := by
  rw [State.owns, and_iff_right h]
  simp only [State.extentNext, if_neg h]
  split
  · rw [Option.some.injEq]; omega
  · simp only [reduceCtorEq, false_iff]; omega

theorem extentNext_shadow (x : Nat) : s.extentNext .shadow x = some x ↔ x < s.shadowRecord.size := by
  simp [State.extentNext]

/-- The run of consecutive blocks of an extent from one of its blocks on (R130). -/
theorem runEnd_spec {o : Owner} {p : Nat} (h : s.extentNext o p = some p) :
    p < s.runEnd o p ∧ (∀ x, p ≤ x → x < s.runEnd o p → s.extentNext o x = some x) ∧
      s.extentNext o (s.runEnd o p) ≠ some (s.runEnd o p) := by
  cases o with
  | shadow =>
    rw [extentNext_shadow] at h
    exact ⟨h, fun x _ inside => (extentNext_shadow s x).2 inside, fun again => lt_irrefl _ ((extentNext_shadow s _).1 again)⟩
  | range r =>
    by_cases zero : r = 0
    · subst zero
      obtain ⟨free, inside⟩ := (extentNext_zero s p).1 h
      obtain ⟨below, lower, reached⟩ := foldl_min
        (fun q => q ≠ 0 ∧ (s.range q).fields.length ≠ 0 ∧ p < (s.range q).fields.start) (fun q => (s.range q).fields.start) allRanges
        s.profile.capacity
      have run : s.runEnd (.range 0) p = allRanges.foldl (fun e q =>
          if q ≠ 0 ∧ (s.range q).fields.length ≠ 0 ∧ p < (s.range q).fields.start then min e (s.range q).fields.start else e)
          s.profile.capacity := rfl
      rw [← run] at below lower reached
      refine ⟨?_, fun x from_ upTo => (extentNext_zero s x).2 ⟨fun q owns => ?_, upTo.trans_le below⟩, fun again => ?_⟩
      · rcases reached with same | ⟨q, -, above, same⟩ <;> rw [same]
        · exact inside
        · exact above.2.2
      · obtain ⟨defined, started, ends⟩ := owns
        by_cases above : p < (s.range q).fields.start
        · have := lower q (allRanges_mem q) ⟨defined, by omega, above⟩
          omega
        · exact free q ⟨defined, by omega, by omega⟩
      · obtain ⟨unowned, within⟩ := (extentNext_zero s _).1 again
        rcases reached with same | ⟨q, -, above, same⟩ <;> rw [same] at unowned within
        · exact lt_irrefl _ within
        · exact unowned q ⟨above.1, le_rfl, by omega⟩
    · have run : s.runEnd (.range r) p = (s.range r).fields.start + (s.range r).fields.length := if_neg zero
      rw [extentNext_range s zero] at h
      rw [run]
      exact ⟨h.2.2, fun x from_ upTo => (extentNext_range s zero x).2 ⟨zero, h.2.1.trans from_, upTo⟩,
        fun again => lt_irrefl _ ((extentNext_range s zero _).1 again).2.2⟩

/-- An overwrite segment covers consecutive blocks of the extent and ends with the run or with the count (R130). -/
theorem segmentLength_spec {o : Owner} {p : Nat} (h : s.extentNext o p = some p) :
    let count := s.segmentLength o p
    count ≤ 4096 - s.wipe.count ∧ (∀ x, p ≤ x → x < p + count → s.extentNext o x = some x) ∧
      (count = 4096 - s.wipe.count ∨ s.extentNext o (p + count) ≠ some (p + count)) := by
  obtain ⟨more, inside, ends⟩ := runEnd_spec s h
  have stride : Config.cursorStride = 4096 := rfl
  simp only [State.segmentLength, stride]
  refine ⟨min_le_right _ _, fun x from_ upTo => inside x from_ (by omega), ?_⟩
  rcases min_choice (s.runEnd o p - p) (4096 - s.wipe.count) with e | e <;> rw [e]
  · exact .inr (by rwa [Nat.add_sub_cancel' more.le])
  · exact .inl rfl

end Extent

/-- What the writes of an overwrite segment leave in place: all but the lane's unanswered blocks and what is sent. -/
theorem issueOverwrite_keeps (s : State) (l : LaneId) :
    ({ s.issueOverwrite l with lanes := s.lanes, sent := s.sent } : State) = s ∧
      (s.issueOverwrite l).lanes[l].task = s.lanes[l].task ∧ ∀ k : LaneId, k ≠ l → (s.issueOverwrite l).lanes[k] = s.lanes[k] := by
  unfold State.issueOverwrite
  split
  · dsimp only
    split
    · refine ⟨rfl, ?_, fun k other => setLane_there s _ other⟩
      simp [State.say, State.setLane]
    · exact ⟨rfl, rfl, fun _ _ => rfl⟩
  · exact ⟨rfl, rfl, fun _ _ => rfl⟩

theorem fillOverwrite_keeps (s : State) (l : LaneId) :
    (s.fillOverwrite l).lastGranted = s.lastGranted ∧ (s.fillOverwrite l).wipe = s.wipe ∧ (s.fillOverwrite l).inflight = s.inflight ∧
      (s.fillOverwrite l).lanes[l].task = s.lanes[l].task ∧ ∀ k : LaneId, k ≠ l → (s.fillOverwrite l).lanes[k] = s.lanes[k] := by
  have keeps {γ : Type} (fixed : State → γ) (same : ∀ u : State, fixed (u.issueOverwrite l) = fixed u) :
      fixed (s.fillOverwrite l) = fixed s := forEach_keeps fixed _ (fun _ u => same u) _ s
  refine ⟨keeps _ fun u => ?_, keeps _ fun u => ?_, keeps _ fun u => ?_, keeps (fun u => u.lanes[l].task) fun u => ?_, fun k other =>
    keeps (fun u => u.lanes[k]) fun u => ?_⟩
  · have same := congrArg State.lastGranted (issueOverwrite_keeps u l).1
    exact same
  · have same := congrArg State.wipe (issueOverwrite_keeps u l).1
    exact same
  · have same := congrArg State.inflight (issueOverwrite_keeps u l).1
    exact same
  · exact (issueOverwrite_keeps u l).2.1
  · exact (issueOverwrite_keeps u l).2.2 k other

/-- The state with an overwrite segment handed to a lane that has issued nothing yet (R40). -/
def State.wipeGranted (s : State) (l : LaneId) (o : Owner) (p : Nat) : State :=
  { (s.setWipe { s.wipe with position := some p, asked := false, overwriting := true }).setLane l
      { idleLane with task := some (.overwrite p (s.segmentLength o p) 0) } with lastGranted := .wipe }

theorem grantWipe_eq {s : State} {l : LaneId} {o : Owner} {p : Nat} (target : s.overwriteTarget = some o)
    (next : s.extentNext o s.position = some p) : s.grantWipe l = (s.wipeGranted l o p).fillOverwrite l := by
  have length : (s.setWipe { s.wipe with position := some p, asked := false, overwriting := true }).segmentLength o p =
      s.segmentLength o p := by cases o <;> rfl
  simp only [State.grantWipe, target, next, length]
  rfl

/-- A grant to the wipe side (R40, R130). -/
theorem grantWipe_spec {s : State} {l : LaneId} {o : Owner} {p : Nat} (target : s.overwriteTarget = some o)
    (next : s.extentNext o s.position = some p) :
    let granted := s.grantWipe l
    granted.lastGranted = .wipe ∧ granted.lanes[l].task = some (.overwrite p (s.segmentLength o p) 0) ∧ granted.wipe.asked = false ∧
      granted.inflight = s.inflight ∧ ∀ k : LaneId, k ≠ l → granted.lanes[k] = s.lanes[k] := by
  rw [grantWipe_eq target next]
  obtain ⟨last, wipe, inflight, task, others⟩ := fillOverwrite_keeps (s.wipeGranted l o p) l
  exact ⟨last, task.trans (congrArg Lane.task (setLane_here _ l _)), congrArg Wipe.asked wipe, inflight,
    fun k other => (others k other).trans (setLane_there _ _ other)⟩

/-- Settles O18: the arbiter's choice by the side that waits, and what each side's grant starts. -/
theorem arbiterGrantsInTurn : Obligations.ArbiterGrantsInTurn := by
  refine ⟨fun x i => head_eq_some, fun s l idle => ⟨fun none wipe => ?_, fun t x i entry head first turn => ?_,
    fun o p waits target next turn => ?_⟩⟩
  · have free : ¬ s.lanes[l].task.isSome = true := by rw [idle]; decide
    rw [State.grantLane, if_neg free, nextTransfer_none none]
    exact if_neg (by rw [wipe]; decide)
  · obtain ⟨-, -, -, g, segment, -⟩ := head_eq_some.1 head
    have free : ¬ s.lanes[l].task.isSome = true := by rw [idle]; decide
    have turn : ¬ (s.wipeWaits = true ∧ s.lastGranted = .transfer) := by
      rintro ⟨waits, last⟩
      rcases turn with e | e
      · rw [e] at waits; cases waits
      · rw [e] at last; cases last
    have granted : s.grantLane l = s.grantTransfer l t i := by
      rw [State.grantLane, if_neg free, nextTransfer_first entry head first]
      exact if_neg turn
    rw [granted]
    obtain ⟨last, lanes, inflight, wipe, sent⟩ := grantTransfer_spec (l := l) entry segment
    refine ⟨last, ?_, inflight, wipe, fun k other => ?_, fun g' segment' => ?_⟩
    · rw [lanes]; exact congrArg Lane.task (setLane_here s l _)
    · rw [lanes]; exact setLane_there s _ other
    · cases segment.symm.trans segment'
      refine ⟨?_, sent⟩
      rw [lanes]; exact congrArg Lane.issued (setLane_here s l _)
  · have free : ¬ s.lanes[l].task.isSome = true := by rw [idle]; decide
    have granted : s.grantLane l = s.grantWipe l := by
      rw [State.grantLane, if_neg free]
      rcases turn with last | none
      · split
        · exact if_pos ⟨waits, last⟩
        · exact if_pos waits
      · rw [nextTransfer_none none]
        exact if_pos waits
    rw [granted]
    obtain ⟨last, task, asked, inflight, others⟩ := grantWipe_spec (l := l) target next
    obtain ⟨most, consecutive, ends⟩ := segmentLength_spec s (extentNext_again s o _ p next)
    exact ⟨last, ⟨_, task, most, consecutive, ends⟩, asked, inflight, others⟩

end Sys2Proof.Machine

namespace Sys2Proof.Machine

/-! ### The lanes at FRONT_RESET (R46) -/

/-- What FRONT_RESET leaves of a lane that works a transfer segment; any other lane stays (R46 step 3). -/
def State.clearedLane (s : State) (l : LaneId) : Lane :=
  match s.lanes[l].task with
  | some (.transfer t i) =>
    if s.lanes[l].issued = [] then idleLane
    else { idleLane with task := some (.cleared (s.clearedWrite t i)), issued := s.lanes[l].issued, stopping := true }
  | _ => s.lanes[l]

theorem clearedLane_transfer {s : State} {l : LaneId} {t : Tag} {i : Nat} (task : s.lanes[l].task = some (.transfer t i)) :
    s.clearedLane l = if s.lanes[l].issued = [] then idleLane
      else { idleLane with task := some (.cleared (s.clearedWrite t i)), issued := s.lanes[l].issued, stopping := true } := by
  simp only [State.clearedLane, task]

theorem clearedLane_other {s : State} {l : LaneId} (task : ∀ t i, s.lanes[l].task ≠ some (.transfer t i)) :
    s.clearedLane l = s.lanes[l] := by
  unfold State.clearedLane
  split
  · next t i e => exact absurd e (task t i)
  · rfl

theorem clearLane_eq (s : State) (l : LaneId) : s.clearLane l = s.setLane l (s.clearedLane l) := by
  by_cases works : ∃ t i, s.lanes[l].task = some (.transfer t i)
  · obtain ⟨t, i, task⟩ := works
    simp only [State.clearLane, task]
    rw [clearedLane_transfer task, State.reportIfStopped, setLane_here]
    by_cases none : s.lanes[l].issued = []
    · rw [if_pos ⟨rfl, none⟩, if_pos none, State.reportStop, setLane_here]
      exact setLane_setLane ..
    · rw [if_neg fun h => none h.2, if_neg none]
  · have other : ∀ t i, s.lanes[l].task ≠ some (.transfer t i) := fun t i task => works ⟨t, i, task⟩
    rw [clearedLane_other other, setLane_self]
    unfold State.clearLane
    split
    · next t i task => exact absurd task (other t i)
    · rfl

/-- What the lanes are after some of them have been cleared. -/
theorem clearLanes (ls : List LaneId) (distinct : ls.Nodup) (s : State) (l : LaneId) :
    (forEach ls (fun l s => s.clearLane l) s).lanes[l] = if l ∈ ls then s.clearedLane l else s.lanes[l] := by
  induction ls generalizing s with
  | nil => rfl
  | cons k ls ih =>
    obtain ⟨notMem, distinct⟩ := List.nodup_cons.1 distinct
    show (forEach ls (fun l s => s.clearLane l) (s.clearLane k)).lanes[l] = _
    rw [ih distinct, clearLane_eq]
    by_cases same : l = k
    · subst same
      rw [if_neg notMem, if_pos List.mem_cons_self, setLane_here]
    · have untouched : (s.setLane k (s.clearedLane k)).clearedLane l = s.clearedLane l := by
        unfold State.clearedLane
        rw [setLane_there s _ same]
        rfl
      rw [untouched, setLane_there s _ same]
      simp only [List.mem_cons, same, false_or]

theorem clearLanes_eq (ls : List LaneId) (s : State) : forEach ls (fun l s => s.clearLane l) s =
    { s with lanes := (forEach ls (fun l s => s.clearLane l) s).lanes } := by
  have aside := forEach_keeps (fun u : State => ({ u with lanes := s.lanes } : State)) (fun l u => u.clearLane l)
    (fun l u => by rw [clearLane_eq]; rfl) ls s
  have back := congrArg (fun u : State =>
    ({ u with lanes := (forEach ls (fun l s => s.clearLane l) s).lanes } : State)) aside
  exact back

theorem clearRefs_all (l : List Owner) (u : State) : forEach l (fun o s => s.modKey o KeyEntry.clearRefs) u = { u with
    cache := (forEach l (fun o s => s.modKey o KeyEntry.clearRefs) u).cache
    shadowEntry := (forEach l (fun o s => s.modKey o KeyEntry.clearRefs) u).shadowEntry } := by
  have aside := forEach_keeps (fun v : State => ({ v with cache := u.cache, shadowEntry := u.shadowEntry } : State))
    (fun o v => v.modKey o KeyEntry.clearRefs) (fun o v => by cases o <;> rfl) l u
  have back := congrArg (fun v : State => ({ v with
    cache := (forEach l (fun o s => s.modKey o KeyEntry.clearRefs) u).cache
    shadowEntry := (forEach l (fun o s => s.modKey o KeyEntry.clearRefs) u).shadowEntry } : State)) aside
  exact back

theorem clearTransfers_eq (s : State) : s.clearTransfers = { s with
    inflight := s.clearTransfers.inflight, lanes := s.clearTransfers.lanes, cache := s.clearTransfers.cache
    shadowEntry := s.clearTransfers.shadowEntry } := by
  have keys : s.clearTransfers = { { forEach allLanes (fun l s => s.clearLane l) s with inflight := tab32 fun _ => none } with
      cache := s.clearTransfers.cache, shadowEntry := s.clearTransfers.shadowEntry } := clearRefs_all allOwners _
  have stopped := clearLanes_eq allLanes s
  generalize forEach allLanes (fun l s => s.clearLane l) s = u at keys stopped
  generalize s.clearTransfers = v at keys
  rw [keys, stopped]

theorem clearTransfers_lane (s : State) (l : LaneId) : s.clearTransfers.lanes[l] = s.clearedLane l := by
  have keys : s.clearTransfers.lanes = (forEach allLanes (fun l s => s.clearLane l) s).lanes :=
    forEach_keeps State.lanes _ (fun o u => by cases o <;> rfl) _ _
  rw [keys, clearLanes allLanes (by decide), if_pos (allLanes_mem l)]

/-- The lane of the overwrite segment stays its lane. -/
theorem clearTransfers_overwriteLane (s : State) : s.clearTransfers.overwriteLane = s.overwriteLane := by
  unfold State.overwriteLane
  congr 1
  funext l
  rw [clearTransfers_lane]
  by_cases works : ∃ t i, s.lanes[l].task = some (.transfer t i)
  · obtain ⟨t, i, task⟩ := works
    rw [clearedLane_transfer task, task]
    by_cases none : s.lanes[l].issued = []
    · rw [if_pos none]; rfl
    · rw [if_neg none]
  · rw [clearedLane_other fun t i task => works ⟨t, i, task⟩]

/-! ### The overwrite at FRONT_RESET (R47, R131, R137) -/

theorem overwriteLane_task {s : State} {l : LaneId} (h : s.overwriteLane = some l) : ∃ f c p, s.lanes[l].task = some (.overwrite f c p) := by
  have found := List.find?_some h
  split at found
  · next f c p task => exact ⟨f, c, p, task⟩
  · cases found

/-- What the stop of the overwrite leaves of its lane. -/
def Lane.overwriteStopped (x : Lane) : Lane := if x.issued = [] then idleLane else { x with stopping := true, fetched := [] }

theorem stopLane_overwrite {s : State} {l : LaneId} {f c p : Nat} (task : s.lanes[l].task = some (.overwrite f c p)) :
    s.stopLane l = s.setLane l s.lanes[l].overwriteStopped := by
  unfold State.stopLane State.reportIfStopped Lane.overwriteStopped
  rw [setLane_here]
  by_cases none : s.lanes[l].issued = []
  · rw [if_pos ⟨rfl, none⟩, if_pos none, State.reportStop, setLane_here, task]
    exact setLane_setLane ..
  · rw [if_neg fun h => none h.2, if_neg none]

theorem stopOverwrite_some {s : State} {l : LaneId} (lane : s.overwriteLane = some l) :
    s.stopOverwrite = (s.setWipe { s.wipe with asked := false }).setLane l s.lanes[l].overwriteStopped := by
  obtain ⟨f, c, p, task⟩ := overwriteLane_task lane
  simp only [State.stopOverwrite, lane]
  exact stopLane_overwrite (s := s.setWipe { s.wipe with asked := false }) task

theorem stopOverwrite_none {s : State} (lane : s.overwriteLane = none) : s.stopOverwrite = s.setWipe { s.wipe with asked := false } := by
  simp only [State.stopOverwrite, lane]

theorem stopOverwrite_eq (s : State) :
    s.stopOverwrite = { s with wipe := { s.wipe with asked := false }, lanes := s.stopOverwrite.lanes } := by
  cases lane : s.overwriteLane with
  | none => rw [stopOverwrite_none lane]; rfl
  | some l => rw [stopOverwrite_some lane]; rfl

theorem stopOverwrite_lane (s : State) (l : LaneId) :
    s.stopOverwrite.lanes[l] = if s.overwriteLane = some l then s.lanes[l].overwriteStopped else s.lanes[l] := by
  cases lane : s.overwriteLane with
  | none => rw [stopOverwrite_none lane, if_neg (by simp)]; rfl
  | some k =>
    rw [stopOverwrite_some lane]
    by_cases same : l = k
    · subst same
      rw [if_pos rfl]; exact setLane_here _ _ _
    · rw [if_neg fun e => same (Option.some.inj e).symm]
      exact setLane_there _ _ same

/-- The overwrite is stopped and stands at the persisted position again (R47, R137). -/
def State.rewound (s : State) : State :=
  { s with lanes := s.stopOverwrite.lanes
           wipe := { s.wipe with asked := false, position := some (s.plan.cursor.getD 0), count := 0 } }

/-- The Wipe Engine has begun an overwrite. -/
def State.overwriteBegun (s : State) : Prop := s.wipe.asked = true ∨ s.overwriteLane.isSome = true ∨ s.wipe.position.isSome = true

theorem restartOverwrite_resting {s : State} (h : ¬ s.overwriteBegun) : s.restartOverwrite = s := if_neg h

theorem restartOverwrite_begun {s : State} (h : s.overwriteBegun) : s.restartOverwrite = s.rewound.startOverwrite := by
  have stopped : s.stopOverwrite.setWipe { s.stopOverwrite.wipe with position := some s.persistedPosition, count := 0 } = s.rewound := by
    rw [stopOverwrite_eq]; rfl
  exact (if_pos h).trans (congrArg State.startOverwrite stopped)

theorem finishOverwrite_eq (s : State) (o : Owner) : s.finishOverwrite o = { s with
    wipe := { s.wipe with asked := false, overwriting := false, intended := s.wipe.intended.finish o, stepInFlight := true }
    store := (s.finishOverwrite o).store } := by
  unfold State.finishOverwrite State.submitPlan State.submit
  split <;> rfl

theorem finishOverwrite_submits {s : State} {o : Owner} (may : s.wipeMaySubmit = true) :
    (s.finishOverwrite o).store =
      s.store.submit (wipeGroup [.plan (s.wipe.intended.finish o)] (s.wipe.intended.finishEffects o) false) := by
  unfold State.finishOverwrite State.submitPlan State.submit
  rw [if_pos (by exact may)]
  rfl

theorem startOverwrite_rests {s : State} (h : s.overwriteTarget = none ∨ s.overwriteAllowed = false) : s.startOverwrite = s := by
  unfold State.startOverwrite
  rcases h with none | barred
  · rw [none]
  · split
    · rfl
    · rw [if_neg]
      rw [barred]
      simp

/-- The begin of an overwrite with its key and its position (R130, R137). -/
def State.keyed (s : State) (o : Owner) : State :=
  { s with wipe := { s.wipe with key := some (s.wipe.key.getD (s.rootKeyOf o)), position := some s.position } }

theorem startOverwrite_begins {s : State} {o : Owner} (target : s.overwriteTarget = some o) (allowed : s.overwriteAllowed = true)
    (unasked : s.wipe.asked = false) (free : s.overwriteLaneFree = true) (ended : s.abortsOver o = true) :
    s.startOverwrite = (s.keyed o).askLane o := by
  simp only [State.startOverwrite, target]
  exact if_pos ⟨allowed, unasked, free, ended⟩

/-- The begin of an overwrite changes the Wipe Engine, and the store by a submission. -/
theorem startOverwrite_eq (s : State) : s.startOverwrite = { s with wipe := s.startOverwrite.wipe, store := s.startOverwrite.store } := by
  have asks (u : State) (o : Owner) : u.askLane o = { u with wipe := (u.askLane o).wipe, store := (u.askLane o).store } := by
    unfold State.askLane
    split
    · rw [finishOverwrite_eq]
    · rfl
  unfold State.startOverwrite
  split
  · rfl
  · split
    · rw [asks]; rfl
    · rfl

theorem startOverwrite_count (s : State) : s.startOverwrite.wipe.count = s.wipe.count := by
  unfold State.startOverwrite
  split
  · rfl
  · split
    · unfold State.askLane
      split
      · rw [finishOverwrite_eq]; rfl
      · rfl
    · rfl

theorem kept_askLane (s : State) (o : Owner) : Kept s (s.askLane o) := by
  unfold State.askLane
  split
  · exact kept_finishOverwrite s o
  · exact kept_setWipe s _

theorem kept_startOverwrite (s : State) : Kept s s.startOverwrite := by
  unfold State.startOverwrite
  split
  · exact Kept.refl s
  · split
    · exact (kept_setWipe s _).trans (kept_askLane _ _)
    · exact Kept.refl s

theorem restartOverwrite_eq (s : State) : s.restartOverwrite = { s with
    lanes := s.restartOverwrite.lanes, wipe := s.restartOverwrite.wipe, store := s.restartOverwrite.store } := by
  by_cases begun : s.overwriteBegun
  · rw [restartOverwrite_begun begun, startOverwrite_eq]
    rfl
  · rw [restartOverwrite_resting begun]

theorem restartOverwrite_lane (s : State) (l : LaneId) :
    s.restartOverwrite.lanes[l] = if s.overwriteLane = some l then s.lanes[l].overwriteStopped else s.lanes[l] := by
  by_cases begun : s.overwriteBegun
  · rw [restartOverwrite_begun begun, startOverwrite_eq]
    exact stopOverwrite_lane s l
  · have none : s.overwriteLane = none := by
      simp only [State.overwriteBegun, not_or, Option.not_isSome_iff_eq_none] at begun
      exact begun.2.1
    rw [restartOverwrite_resting begun, none, if_neg (by simp)]

theorem restartOverwrite_cells (s : State) : { s.restartOverwrite.store with
    queue := s.store.queue, writing := s.store.writing, held := s.store.held } = s.store := by
  by_cases begun : s.overwriteBegun
  · rw [restartOverwrite_begun begun]
    exact (kept_startOverwrite s.rewound).cells
  · rw [restartOverwrite_resting begun]

end Sys2Proof.Machine

namespace Sys2Proof.Machine

/-! ### What a submission does to the groups that wait (R78) -/

theorem beginNext_waitingGroups (st : Store) : st.beginNext.waitingGroups = st.waitingGroups := by
  unfold Store.beginNext
  split
  · next writing queue => simp [Store.waitingGroups, writing, queue]
  · rfl

/-- The groups that wait after a submission: the submitter's last held group with the new one merged, or the new one besides. -/
theorem mem_holdGroup {g x : Group} {l : List Group} (h : x ∈ holdGroup g l) : x = g ∨ x ∈ l ∨ ∃ y ∈ l, x = y.merge g := by
  induction l with
  | nil => exact .inl (List.mem_singleton.1 h)
  | cons y l ih =>
    unfold holdGroup at h
    split at h
    · split at h
      · rcases List.mem_cons.1 h with rfl | h
        · exact .inr (.inr ⟨y, List.mem_cons_self, rfl⟩)
        · exact .inr (.inl (List.mem_cons_of_mem _ h))
      · simp only [List.mem_cons, List.mem_append, List.not_mem_nil, or_false] at h ⊢
        tauto
    · rcases List.mem_cons.1 h with rfl | h
      · exact .inr (.inl List.mem_cons_self)
      · rcases ih h with e | e | ⟨z, e, merged⟩
        · exact .inl e
        · exact .inr (.inl (List.mem_cons_of_mem _ e))
        · exact .inr (.inr ⟨z, List.mem_cons_of_mem _ e, merged⟩)

theorem holdGroup_keeps {g x : Group} {l : List Group} (h : x ∈ l) (other : x.submitter ≠ g.submitter) : x ∈ holdGroup g l := by
  induction l with
  | nil => cases h
  | cons y l ih =>
    unfold holdGroup
    rcases List.mem_cons.1 h with rfl | h
    · rw [if_neg fun e => other e.1]
      exact List.mem_cons_self
    · split
      · split
        · exact List.mem_cons_of_mem _ h
        · simp only [List.mem_cons, List.mem_append]
          exact .inr (.inl h)
      · exact List.mem_cons_of_mem _ (ih h)

theorem submit_waitingGroups (st : Store) (g : Group) (free : st.outstanding g.submitter = false) :
    ∀ x, x ∈ (st.submit g).waitingGroups ↔ x = g ∨ x ∈ st.waitingGroups := by
  intro x
  unfold Store.submit
  rw [if_neg (by rw [free]; decide), beginNext_waitingGroups]
  simp only [Store.waitingGroups, List.mem_append, List.mem_singleton]
  tauto

theorem submit_held {st : Store} {g : Group} (busy : st.outstanding g.submitter = true) :
    st.submit g = { st with held := holdGroup g st.held } := if_pos busy

/-- A group of another submitter goes on waiting. -/
theorem submit_keeps {st : Store} {g x : Group} (waits : x ∈ st.waitingGroups) (other : x.submitter ≠ g.submitter) :
    x ∈ (st.submit g).waitingGroups := by
  cases busy : st.outstanding g.submitter with
  | false => exact (submit_waitingGroups st g busy x).2 (.inr waits)
  | true =>
    rw [submit_held busy]
    simp only [Store.waitingGroups, List.mem_append] at waits ⊢
    exact waits.imp_right fun held => holdGroup_keeps held other

/-- Nothing in the store keeps a request ready to submit waiting (R129). -/
def Store.letsRequest (st : Store) : Prop := ∀ g ∈ st.waitingGroups, g.submitter ≠ .executor ∧ g.rewrites = false

theorem letsRequest_submit {st : Store} (h : st.letsRequest) {g : Group} (submitter : g.submitter ≠ .executor) (plain : g.rewrites = false) :
    (st.submit g).letsRequest := by
  intro x waits
  cases busy : st.outstanding g.submitter with
  | false =>
    rcases (submit_waitingGroups st g busy x).1 waits with rfl | waits
    · exact ⟨submitter, plain⟩
    · exact h x waits
  | true =>
    rw [submit_held busy] at waits
    rcases List.mem_append.1 waits with waits | held
    · exact h x (List.mem_append_left _ waits)
    · rcases mem_holdGroup held with rfl | among | ⟨y, among, rfl⟩
      · exact ⟨submitter, plain⟩
      · exact h x (List.mem_append_right _ among)
      · have before := h y (List.mem_append_right _ among)
        exact ⟨before.1, by rw [Group.merge, before.2, plain]; rfl⟩

theorem letsRequest_free {st : Store} (h : st.letsRequest) : st.outstanding .executor = false := by
  simp only [Store.outstanding, Bool.or_eq_false_iff, List.any_eq_false, decide_eq_true_eq]
  refine ⟨fun g queued => (h g ?_).1, ?_⟩
  · simp only [Store.waitingGroups, List.mem_append]
    exact .inl (.inr queued)
  · split
    · next w writing =>
      refine decide_eq_false (h w.group ?_).1
      simp only [Store.waitingGroups, writing, List.mem_append, List.mem_singleton]
      exact .inl (.inl trivial)
    · rfl

/-! ### The request executor's groups go on waiting while an event's consequences are taken -/

/-- Every group of the request executor that waits goes on waiting. -/
def KeepsRequests (s t : State) : Prop := ∀ g ∈ s.store.waitingGroups, g.submitter = .executor → g ∈ t.store.waitingGroups

theorem KeepsRequests.trans {a b c : State} (h : KeepsRequests a b) (k : KeepsRequests b c) : KeepsRequests a c :=
  fun g waits who => k g (h g waits who) who

theorem keepsRequests_of_store {s t : State} (h : t.store = s.store) : KeepsRequests s t := fun g waits _ => by rwa [h]

theorem keepsRequests_submit (s : State) {g : Group} (h : g.submitter = .wipeEngine) : KeepsRequests s (s.submit g) := by
  intro x waits who
  unfold State.submit
  split
  · exact submit_keeps waits (by rw [who, h]; decide)
  · exact waits

theorem keepsRequests_submitPlan (s : State) (plan : WipePlan) (others : List Record) (effects : List Effect) (rewrites : Bool) :
    KeepsRequests s (s.submitPlan plan others effects rewrites) :=
  (keepsRequests_of_store (t := s.setWipe { s.wipe with intended := plan }) rfl).trans (keepsRequests_submit _ rfl)

theorem keepsRequests_finishOverwrite (s : State) (o : Owner) : KeepsRequests s (s.finishOverwrite o) :=
  ((keepsRequests_of_store (t := s.setWipe { s.wipe with asked := false, overwriting := false }) rfl).trans
    (keepsRequests_submitPlan _ _ _ _ _)).trans (keepsRequests_of_store rfl)

theorem keepsRequests_submitFinal (s : State) (x : Word32) : KeepsRequests s (s.submitFinal x) :=
  (keepsRequests_of_store (t := s.draw.2.draw.2.setWipe { s.wipe with final := .submitted, intended := emptyPlan }) rfl).trans
    (keepsRequests_submit _ rfl)

theorem keepsRequests_advanceWipe (s : State) : KeepsRequests s s.advanceWipe := by
  have started : (if s.finalDue then s.startFinal else s).store = s.store := by split <;> rfl
  unfold State.advanceWipe
  split
  · exact keepsRequests_of_store rfl
  · dsimp only
    generalize (if s.finalDue then s.startFinal else s) = u at started
    refine (keepsRequests_of_store started).trans ?_
    split
    · split
      · exact keepsRequests_of_store rfl
      · exact keepsRequests_submitFinal _ _
    · split
      · split
        · exact keepsRequests_finishOverwrite _ _
        · exact keepsRequests_of_store rfl
      · exact keepsRequests_of_store rfl

theorem fillOverwrite_store (s : State) (l : LaneId) : (s.fillOverwrite l).store = s.store :=
  forEach_keeps State.store _ (fun _ u => by
    have same := congrArg State.store (issueOverwrite_keeps u l).1
    exact same) _ s

theorem fillLane_store (s : State) (l : LaneId) : (s.fillLane l).store = s.store := by
  have same := congrArg State.store (frame_fillLane s l)
  exact same

theorem grantLanes_store (s : State) : s.grantLanes.store = s.store := by
  refine forEach_keeps State.store _ (fun l u => ?_) _ s
  have transfer (t : Tag) (i : Nat) : (u.grantTransfer l t i).store = u.store := by
    unfold State.grantTransfer
    split
    · rfl
    · exact fillLane_store _ l
  have wipe : (u.grantWipe l).store = u.store := by
    unfold State.grantWipe
    split
    · rfl
    · split
      · rfl
      · exact fillOverwrite_store _ l
  unfold State.grantLane
  split
  · rfl
  · split
    · split
      · exact wipe
      · exact transfer _ _
    · split
      · exact wipe
      · rfl

theorem tend_store (s : State) : (settleAlert s.tendIdle.tendRecheck.tendAuthority).store = s.store := by
  have idle : s.tendIdle.store = s.store := by
    unfold State.tendIdle
    split
    · split <;> rfl
    · rfl
  have recheck (u : State) : u.tendRecheck.store = u.store := by
    unfold State.tendRecheck
    split
    · split <;> rfl
    · rfl
  have authority (u : State) : u.tendAuthority.store = u.store := by
    unfold State.tendAuthority
    split
    · split <;> rfl
    · rfl
  exact ((authority _).trans (recheck _)).trans idle

/-! ### A request submits its group in the event that makes it ready (R129, R166) -/

theorem drawKeys_eq (rs : List RangeId) (s : State) : (State.drawKeys rs s).2 = { s with entropy := (State.drawKeys rs s).2.entropy } := by
  induction rs generalizing s with
  | nil => rfl
  | cons r rs ih =>
    show (State.drawKeys rs s.draw.2).2 = _
    rw [ih]
    rfl

theorem prepareJob_eq (s : State) : s.prepareJob = { s with entropy := s.prepareJob.entropy, executor := s.prepareJob.executor } := by
  unfold State.prepareJob
  split
  · dsimp only
    rw [drawKeys_eq]
  · rfl

theorem submitJob_eq {s : State} (part : s.power.part ≠ .failsafe) : s.submitJob = { s.prepareJob with
    executor := { s.prepareJob.executor with stage := .submitted }
    store := s.store.submit (requestGroup s.prepareJob.jobRecords) } := by
  have prepared := prepareJob_eq s
  unfold State.submitJob
  generalize s.prepareJob = v at prepared ⊢
  have store : v.store = s.store := by rw [prepared]
  have may : State.maySubmit { v with executor := { v.executor with stage := .submitted } } .executor = true := by
    rw [prepared]
    exact decide_eq_true part
  rw [← store]
  exact if_pos may

/-- A READY part whose request is ready to submit with nothing in its way: the group waits after the event, the request goes on with it, and
the table stays (R129, R166). -/
theorem settle_submits {x : State} (part : x.endDrainWait.power.part = .ready) (stage : x.endDrainWait.executor.stage = .wanted)
    (status : x.endDrainWait.executor.status ≠ .free) (enrol : x.endDrainWait.executor.job.isEnrol = false)
    (some' : x.endDrainWait.jobRecords ≠ []) (lets : x.endDrainWait.store.letsRequest)
    (kept : x.endDrainWait.prepareJob.executor.status = x.endDrainWait.executor.status) :
    requestGroup x.endDrainWait.prepareJob.jobRecords ∈ (settle x).store.waitingGroups ∧
      (settle x).executor = { x.endDrainWait.prepareJob.executor with stage := .submitted } ∧ (settle x).table = x.endDrainWait.table := by
  unfold settle
  generalize x.endDrainWait = u at *
  have enrolment : u.advanceEnrolment = u := by
    unfold State.advanceEnrolment
    split
    · next e => rw [e] at enrol; cases enrol
    · rfl
  have rewrites : u.wipeRewrites (u.jobRecords.map Record.cell) = false := by
    simp only [State.wipeRewrites, List.any_eq_false]
    intro g waits
    simp [(lets g waits).2]
  have prepared := prepareJob_eq u
  have advanced : u.advanceExecutor = u.submitJob := by
    rw [State.advanceExecutor, if_neg (by simp [stage]), if_neg (by simp [part]), if_neg (by simp [rewrites]), if_neg (by simpa using some')]
  rw [submitJob_eq (by rw [part]; decide)] at advanced
  generalize u.prepareJob = v at kept prepared advanced ⊢
  have power : v.power = u.power := by rw [prepared]
  rw [enrolment]
  generalize u.advanceExecutor = y at advanced
  have yPart : y.power.part = .ready := by rw [advanced]; exact (congrArg (fun p => p.part) power).trans part
  have yBusy : y.executor.status ≠ .free := by rw [advanced]; exact kept ▸ status
  have early := (steady_advanceWipe y).trans (steady_grantLanes _)
  have sleepless : (y.advanceWipe.grantLanes).advanceSleep = y.advanceWipe.grantLanes :=
    advanceSleep_busy _ (by rw [early.power]; exact yPart) (by rw [early.executor]; exact yBusy)
  dsimp only
  rw [sleepless]
  have late := (early.trans (steady_advanceWipe _)).trans (steady_tend _)
  have waits : KeepsRequests y _ := (((keepsRequests_advanceWipe y).trans (keepsRequests_of_store (grantLanes_store _))).trans
    (keepsRequests_advanceWipe _)).trans (keepsRequests_of_store (tend_store _))
  refine ⟨waits _ ?_ rfl, ?_, ?_⟩
  · rw [advanced]
    exact (submit_waitingGroups _ _ (letsRequest_free lets) _).2 (.inl rfl)
  · rw [late.executor, advanced]
  · rw [late.table, advanced, prepared]

end Sys2Proof.Machine

namespace Sys2Proof.Machine

/-! ### What FRONT_RESET asks for again (R131, R137) -/

section Rewound

variable {s : State} {o : Owner} (begun : s.overwriteBegun) (target : s.overwriteTarget = some o) (allowed : s.overwriteAllowed = true)
  (others : ∀ l : LaneId, s.overwriteLane ≠ some l → ∀ f c p, s.lanes[l].task ≠ some (.overwrite f c p))
  (cleared : ∀ t : Tag, s.inflight[t] = none) (still : ∀ l : LaneId, s.restartOverwrite.lanes[l].task ≠ some (.cleared (some o)))

/-- The lane of the overwrite is free for the next, or stopping (R40). -/
theorem rewound_laneFree
    (others : ∀ l : LaneId, s.overwriteLane ≠ some l → ∀ f c p, s.lanes[l].task ≠ some (.overwrite f c p)) :
    s.rewound.overwriteLaneFree = true := by
  cases lane : s.rewound.overwriteLane with
  | none => simp only [State.overwriteLaneFree, lane]
  | some l =>
    simp only [State.overwriteLaneFree, lane]
    obtain ⟨f, c, p, task⟩ := overwriteLane_task lane
    have here : s.rewound.lanes[l] = if s.overwriteLane = some l then s.lanes[l].overwriteStopped else s.lanes[l] := stopOverwrite_lane s l
    rw [here] at task ⊢
    by_cases same : s.overwriteLane = some l
    · rw [if_pos same] at task ⊢
      unfold Lane.overwriteStopped at task ⊢
      split at task
      · cases task
      · next busy => rw [if_neg busy]
    · rw [if_neg same] at task
      exact absurd task (others l same f c p)

include begun target allowed others cleared still

theorem restartOverwrite_asks : s.restartOverwrite = (s.rewound.keyed o).askLane o := by
  have lanes : s.restartOverwrite.lanes = s.rewound.lanes := by rw [restartOverwrite_begun begun, startOverwrite_eq]
  rw [lanes] at still
  rw [restartOverwrite_begun begun]
  refine startOverwrite_begins target allowed rfl (rewound_laneFree others) ?_
  simp only [State.abortsOver, Bool.and_eq_true, List.all_eq_true]
  refine ⟨fun t _ => ?_, fun l _ => by simpa using still l⟩
  rw [show s.rewound.inflight[t] = none from cleared t]

/-- A lane is asked for from the next block of the extent, with the item's key (R131, R137). -/
theorem restartOverwrite_next {p : Nat} (next : s.extentNext o (s.plan.cursor.getD 0) = some p) :
    s.restartOverwrite.wipe = { s.wipe with
      asked := true, key := some (s.wipe.key.getD (s.rootKeyOf o)), position := some p, count := 0 } := by
  rw [restartOverwrite_asks begun target allowed others cleared still, State.askLane,
    show (s.rewound.keyed o).extentNext o (s.rewound.keyed o).position = some p from (by cases o <;> exact next)]
  cases o <;> rfl

/-- Where no block is left, the group that ends the item is submitted (R132). -/
theorem restartOverwrite_ends (next : s.extentNext o (s.plan.cursor.getD 0) = none) (going : s.power.restarting = false) :
    s.restartOverwrite.wipe.asked = false ∧ s.restartOverwrite.wipe.intended = s.wipe.intended.finish o ∧
      ∃ g ∈ s.restartOverwrite.store.waitingGroups, g.submitter = .wipeEngine ∧ Record.plan s.restartOverwrite.wipe.intended ∈ g.records := by
  have may : s.wipeMaySubmit = true := by
    simp only [State.overwriteAllowed, decide_eq_true_eq] at allowed
    unfold State.wipeMaySubmit
    rcases allowed with ready | ⟨failsafe, accepted⟩
    · rw [ready, going]; rfl
    · rw [failsafe, accepted]; rfl
  have finishes : s.restartOverwrite = (s.rewound.keyed o).finishOverwrite o := by
    rw [restartOverwrite_asks begun target allowed others cleared still, State.askLane,
      show (s.rewound.keyed o).extentNext o (s.rewound.keyed o).position = none from (by cases o <;> exact next)]
  have submits := finishOverwrite_submits (s := s.rewound.keyed o) (o := o) may
  have wipe := congrArg State.wipe (finishOverwrite_eq (s.rewound.keyed o) o)
  have intended : ((s.rewound.keyed o).finishOverwrite o).wipe.intended = s.wipe.intended.finish o := congrArg Wipe.intended wipe
  rw [finishes, submits, intended]
  obtain ⟨g, waits, who, carries⟩ := Store.submit_waits (s.rewound.keyed o).store
    (wipeGroup [.plan (s.wipe.intended.finish o)] (s.wipe.intended.finishEffects o) false) _ rfl
  exact ⟨congrArg Wipe.asked wipe, rfl, g, waits, who, carries⟩

end Rewound

theorem restartOverwrite_count {s : State} (begun : s.overwriteBegun) : s.restartOverwrite.wipe.count = 0 := by
  rw [restartOverwrite_begun begun, startOverwrite_count]
  rfl

theorem restartOverwrite_paused {s : State} (begun : s.overwriteBegun) (h : s.overwriteTarget = none ∨ s.overwriteAllowed = false) :
    s.restartOverwrite.wipe = { s.wipe with asked := false, position := some (s.plan.cursor.getD 0), count := 0 } := by
  rw [restartOverwrite_begun begun, startOverwrite_rests (s := s.rewound) h]
  rfl

/-! ### The request in execution at FRONT_RESET (R62, R167) -/

section Abandon

variable {s : State}

theorem abandonRequest_resting (h : s.executor.status ≠ .executing) : s.abandonRequest = s := if_pos h

variable (executing : s.executor.status = .executing)
include executing

theorem abandonRequest_attempt {a : Attempt} (job : s.executor.job = .attempt a) : s.abandonRequest = s.abandonAttempt a := by
  rw [State.abandonRequest, if_neg (not_not.2 executing), job]

theorem abandonRequest_carried (job : s.executor.job = .wrongToken ∨ ∃ c, s.executor.job = .commit c) :
    s.abandonRequest = s.markAbandoned := by
  rw [State.abandonRequest, if_neg (not_not.2 executing)]
  rcases job with job | ⟨c, job⟩ <;> rw [job]

theorem abandonRequest_submitted (job : ∀ a, s.executor.job ≠ .attempt a) (stage : s.executor.stage = .submitted) :
    s.abandonRequest = s.markAbandoned := by
  rw [State.abandonRequest, if_neg (not_not.2 executing)]
  cases kind : s.executor.job with
  | attempt a => exact absurd kind (job a)
  | commit c => rfl
  | wrongToken => rfl
  | _ => exact if_pos stage

theorem abandonRequest_dropped (job : ∀ a, s.executor.job ≠ .attempt a) (token : s.executor.job ≠ .wrongToken)
    (commit : ∀ c, s.executor.job ≠ .commit c) (stage : s.executor.stage ≠ .submitted) : s.abandonRequest.executor = freeExecutor := by
  rw [State.abandonRequest, if_neg (not_not.2 executing)]
  cases kind : s.executor.job with
  | attempt a => exact absurd kind (job a)
  | commit c => exact absurd kind (commit c)
  | wrongToken => exact absurd kind token
  | _ => dsimp only; rw [if_neg stage]; rfl

theorem abandonRequest_credSet {j : CredSetJob} (job : s.executor.job = .credSet j) (stage : s.executor.stage ≠ .submitted) :
    s.abandonRequest.derivations = s.derivations.filter (fun d => d ≠ .executor) := by
  rw [State.abandonRequest, if_neg (not_not.2 executing), job]
  dsimp only
  rw [if_neg stage]
  rfl

end Abandon

theorem abandonEnrolment_eq (s : State) : s.abandonEnrolment = { s with binding := s.abandonEnrolment.binding } := by
  unfold State.abandonEnrolment
  split <;> rfl

/-- The end of a request at FRONT_RESET changes the executor, its derivation, and the exchange of an enrolment. -/
theorem abandonRequest_eq (s : State) : s.abandonRequest = { s with
    executor := s.abandonRequest.executor, derivations := s.abandonRequest.derivations, binding := s.abandonRequest.binding } := by
  unfold State.abandonRequest State.abandonAttempt
  split
  · rfl
  · split
    · split
      · split <;> rfl
      all_goals rfl
    · rfl
    · rfl
    · split <;> rfl
    · split
      · rfl
      · rw [abandonEnrolment_eq]; rfl
    · split <;> rfl

theorem abandonRequest_binding {s : State} (enrol : s.executor.job.isEnrol = false) : s.abandonRequest.binding = s.binding := by
  unfold State.abandonRequest State.abandonAttempt
  split
  · rfl
  · split
    · split
      · split <;> rfl
      all_goals rfl
    · rfl
    · rfl
    · split <;> rfl
    · next job => rw [job] at enrol; cases enrol
    · split <;> rfl

theorem abandonRequest_ends (s : State) : s.abandonRequest.executor.status ≠ .executing := by
  unfold State.abandonRequest State.abandonAttempt
  split
  · assumption
  · split
    · split
      · split <;> exact ExecStatus.noConfusion
      all_goals exact ExecStatus.noConfusion
    · exact ExecStatus.noConfusion
    · exact ExecStatus.noConfusion
    · split <;> exact ExecStatus.noConfusion
    · split <;> exact ExecStatus.noConfusion
    · split <;> exact ExecStatus.noConfusion

end Sys2Proof.Machine

namespace Sys2Proof.Machine

/-! ### FRONT_RESET (R46, R47, R167) -/

/-- The state of a FRONT_RESET before the request in execution ends. -/
def State.frontCleared (s : State) : State := s.clearTransfers.restartOverwrite.endAuthority.restartIdle

theorem frontCleared_eq (s : State) : s.frontCleared = { s with
    inflight := s.clearTransfers.inflight, cache := s.clearTransfers.cache, shadowEntry := s.clearTransfers.shadowEntry
    lanes := s.clearTransfers.restartOverwrite.lanes, wipe := s.clearTransfers.restartOverwrite.wipe
    store := s.clearTransfers.restartOverwrite.store, authority := none, authTimer := none, trigger := s.restartIdle.trigger } := by
  have cleared := clearTransfers_eq s
  have restarted := restartOverwrite_eq s.clearTransfers
  have idle : s.frontCleared.trigger = s.restartIdle.trigger :=
    restartIdle_trigger s _ (by show s.clearTransfers.restartOverwrite.trigger = _; rw [restarted, cleared])
      (by show s.clearTransfers.restartOverwrite.clock = _; rw [restarted, cleared])
  have whole : s.frontCleared = { s.clearTransfers.restartOverwrite.endAuthority with trigger := s.frontCleared.trigger } :=
    restartIdle_with _
  rw [idle] at whole
  rw [whole]
  generalize s.clearTransfers.restartOverwrite = r at restarted ⊢
  generalize s.clearTransfers = c at cleared restarted ⊢
  rw [restarted, cleared]
  rfl

theorem frontReset_eq (s : State) : s.frontReset = { s with
    inflight := s.clearTransfers.inflight, cache := s.clearTransfers.cache, shadowEntry := s.clearTransfers.shadowEntry
    lanes := s.clearTransfers.restartOverwrite.lanes, wipe := s.clearTransfers.restartOverwrite.wipe
    store := s.clearTransfers.restartOverwrite.store, authority := none, authTimer := none, trigger := s.restartIdle.trigger
    executor := s.frontReset.executor, derivations := s.frontReset.derivations, binding := s.frontReset.binding } := by
  have ended : s.frontReset = { s.frontCleared with
    executor := s.frontReset.executor, derivations := s.frontReset.derivations, binding := s.frontReset.binding } := abandonRequest_eq _
  generalize s.frontReset = x at ended
  rw [ended, frontCleared_eq]

section FrontReset

variable (s : State)

theorem frontCleared_executor : s.frontCleared.executor = s.executor := by rw [frontCleared_eq]
theorem frontCleared_derivations : s.frontCleared.derivations = s.derivations := by rw [frontCleared_eq]
theorem frontCleared_clock : s.frontCleared.clock = s.clock := by rw [frontCleared_eq]

theorem frontReset_key (o : Owner) : s.frontReset.key o = if (s.key o).state = .draining then emptyKey else { s.key o with refs := 0 } := by
  have same : s.frontReset.key o = s.clearTransfers.key o := by rw [frontReset_eq]; cases o <;> rfl
  rw [same, clearTransfers_key, clearLanes_eq, ← clearRefs_eq]
  cases o <;> rfl

theorem frontReset_lane (l : LaneId) : s.frontReset.lanes[l] =
    if s.overwriteLane = some l then s.lanes[l].overwriteStopped else s.clearedLane l := by
  have lanes : s.frontReset.lanes = s.clearTransfers.restartOverwrite.lanes := by rw [frontReset_eq]
  rw [lanes, restartOverwrite_lane, clearTransfers_overwriteLane, clearTransfers_lane]
  by_cases lane : s.overwriteLane = some l
  · obtain ⟨f, c, p, task⟩ := overwriteLane_task lane
    rw [if_pos lane, if_pos lane, clearedLane_other fun t i e => by rw [task] at e; cases e]
  · rw [if_neg lane, if_neg lane]

theorem frontReset_cells : { s.frontReset.store with
    queue := s.store.queue, writing := s.store.writing, held := s.store.held } = s.store := by
  have store : s.frontReset.store = s.clearTransfers.restartOverwrite.store := by rw [frontReset_eq]
  have before : s.clearTransfers.store = s.store := by rw [clearTransfers_eq]
  have cells := restartOverwrite_cells s.clearTransfers
  rw [before] at cells
  rw [store]
  exact cells

/-- What the Wipe Engine is after a FRONT_RESET is what the restart of the overwrite makes of it. -/
theorem frontReset_wipe : s.frontReset.wipe = s.clearTransfers.restartOverwrite.wipe := by rw [frontReset_eq]

theorem clearTransfers_begun : s.clearTransfers.overwriteBegun ↔ s.overwriteBegun := by
  have wipe : s.clearTransfers.wipe = s.wipe := by rw [clearTransfers_eq]
  rw [State.overwriteBegun, State.overwriteBegun, clearTransfers_overwriteLane, wipe]

/-- The Wipe Engine's view of the part does not look at transfers, keys or the work of the lanes. -/
theorem clearTransfers_views : s.clearTransfers.overwriteTarget = s.overwriteTarget ∧
    s.clearTransfers.overwriteAllowed = s.overwriteAllowed ∧ s.clearTransfers.wipe = s.wipe ∧ s.clearTransfers.plan = s.plan ∧
    s.clearTransfers.power = s.power ∧ (∀ o p, s.clearTransfers.extentNext o p = s.extentNext o p) ∧
    ∀ o, s.clearTransfers.rootKeyOf o = s.rootKeyOf o := by
  have cleared := clearTransfers_eq s
  generalize s.clearTransfers = c at cleared ⊢
  rw [cleared]
  exact ⟨rfl, rfl, rfl, rfl, rfl, fun o p => by cases o <;> rfl, fun o => by cases o <;> rfl⟩

theorem clearTransfers_noOverwrite {l : LaneId} (h : ∀ f c p, s.lanes[l].task ≠ some (.overwrite f c p)) (f c p : Nat) :
    s.clearTransfers.lanes[l].task ≠ some (.overwrite f c p) := by
  rw [clearTransfers_lane]
  by_cases works : ∃ t i, s.lanes[l].task = some (.transfer t i)
  · obtain ⟨t, i, task⟩ := works
    rw [clearedLane_transfer task]
    split <;> exact fun e => by cases e
  · rw [clearedLane_other fun t i task => works ⟨t, i, task⟩]
    exact h f c p

/-- What a FRONT_RESET makes of an overwrite that has begun (R131, R137). -/
theorem frontReset_overwrite (begun : s.overwriteBegun) :
    s.frontReset.wipe.count = 0 ∧
      (s.overwriteTarget = none ∨ s.overwriteAllowed = false →
        s.frontReset.wipe = { s.wipe with asked := false, position := some (s.plan.cursor.getD 0), count := 0 }) ∧
      ∀ o, s.overwriteTarget = some o → s.overwriteAllowed = true →
        (∀ l : LaneId, s.overwriteLane ≠ some l → ∀ f c p, s.lanes[l].task ≠ some (.overwrite f c p)) →
        (∀ l : LaneId, s.frontReset.lanes[l].task ≠ some (.cleared (some o))) →
        (∀ p, s.extentNext o (s.plan.cursor.getD 0) = some p → s.frontReset.wipe = { s.wipe with
          asked := true, key := some (s.wipe.key.getD (s.rootKeyOf o)), position := some p, count := 0 }) ∧
        (s.extentNext o (s.plan.cursor.getD 0) = none → s.power.restarting = false →
          s.frontReset.wipe.asked = false ∧ s.frontReset.wipe.intended = s.wipe.intended.finish o ∧
          ∃ g ∈ s.frontReset.store.waitingGroups, g.submitter = .wipeEngine ∧ Record.plan s.frontReset.wipe.intended ∈ g.records) := by
  have lanes : s.frontReset.lanes = s.clearTransfers.restartOverwrite.lanes := by rw [frontReset_eq]
  have store : s.frontReset.store = s.clearTransfers.restartOverwrite.store := by rw [frontReset_eq]
  rw [frontReset_wipe, lanes, store]
  have none (t : Tag) : s.clearTransfers.inflight[t] = Option.none := by rw [clearTransfers_inflight, tab32_get]
  have others := fun l => clearTransfers_noOverwrite s (l := l)
  have lane := clearTransfers_overwriteLane s
  rw [← clearTransfers_begun] at begun
  obtain ⟨target, allowed, wipe, plan, power, next, root⟩ := clearTransfers_views s
  generalize s.clearTransfers = c at *
  rw [← target, ← allowed, ← plan, ← wipe, ← power, ← lane]
  refine ⟨restartOverwrite_count begun, restartOverwrite_paused begun, fun o aim may free still => ?_⟩
  rw [← next, ← root]
  have free := fun l other f c p => others l (free l other) f c p
  exact ⟨fun p => restartOverwrite_next begun aim may free none still, restartOverwrite_ends begun aim may free none still⟩

/-- What a FRONT_RESET makes of the request in execution (R62, R167). -/
theorem frontReset_request (executing : s.executor.status = .executing) :
    (s.executor.stage = .submitted → (∀ a, s.executor.job ≠ .attempt a) → s.frontReset.executor = { s.executor with status := .abandoned }) ∧
      (s.executor.stage ≠ .submitted →
        (s.executor.job = .wrongToken ∨ (∃ c, s.executor.job = .commit c) → s.frontReset.executor = { s.executor with status := .abandoned }) ∧
        (s.executor.job ≠ .wrongToken → (∀ c, s.executor.job ≠ .commit c) → (∀ a, s.executor.job ≠ .attempt a) →
          s.frontReset.executor = freeExecutor)) ∧
      (∀ j, s.executor.job = .credSet j → s.executor.stage ≠ .submitted → DerivationUser.executor ∉ s.frontReset.derivations) ∧
      ∀ a, s.executor.job = .attempt a →
        (a.phase = .charging → s.frontReset.derivations = s.derivations ∧
          (s.executor.stage = .submitted →
            s.frontReset.executor = { s.executor with status := .abandoned, job := .attempt { a with settledAt := s.clock } }) ∧
          (s.executor.stage ≠ .submitted → s.frontReset.executor = freeExecutor)) ∧
        (a.phase = .deriving → s.frontReset.executor =
          { s.executor with status := .abandoned, job := .attempt { a with settledAt := s.clock, phase := .settling }, stage := .wanted } ∧
          ∀ d, d ∈ s.frontReset.derivations ↔ d ∈ s.derivations ∧ d ≠ .executor) ∧
        (∀ success, a.phase = .verdict success → s.frontReset.executor = { s.executor with status := .abandoned } ∧
          s.frontReset.derivations = s.derivations) := by
  have reset : s.frontReset = s.frontCleared.abandonRequest := rfl
  have executor := frontCleared_executor s
  have derivations := frontCleared_derivations s
  have clock := frontCleared_clock s
  rw [reset, ← executor, ← derivations, ← clock]
  rw [← executor] at executing
  generalize s.frontCleared = u at *
  refine ⟨fun stage job => ?_, fun stage => ⟨fun job => ?_, fun token commit job => ?_⟩, fun j job stage => ?_, fun a job => ?_⟩
  · rw [abandonRequest_submitted executing job stage]; rfl
  · rw [abandonRequest_carried executing job]; rfl
  · exact abandonRequest_dropped executing job token commit stage
  · rw [abandonRequest_credSet executing job stage]
    simp
  · rw [abandonRequest_attempt executing job]
    refine ⟨fun charging => ⟨?_, fun stage => ?_, fun stage => ?_⟩, fun deriving_ => ⟨?_, fun d => ?_⟩, fun success verdict => ?_⟩
    · simp only [State.abandonAttempt, charging]
      split <;> rfl
    · simp only [State.abandonAttempt, charging, stage, if_true]
      rw [← charging, ← stage]; rfl
    · simp only [State.abandonAttempt, charging, stage, if_false]
      rfl
    · simp only [State.abandonAttempt, deriving_]
      rfl
    · simp only [State.abandonAttempt, deriving_]
      exact List.mem_filter.trans (by simp)
    · simp only [State.abandonAttempt, verdict]
      exact ⟨rfl, rfl⟩

end FrontReset

end Sys2Proof.Machine

namespace Sys2Proof.Machine

/-! ### What follows a FRONT_RESET in the same event (R20, R62) -/

theorem startOverwrite_lets {s : State} (h : s.store.letsRequest) : s.startOverwrite.store.letsRequest := by
  have submits (u : State) (o : Owner) (h : u.store.letsRequest) : (u.askLane o).store.letsRequest := by
    unfold State.askLane
    split
    · unfold State.finishOverwrite State.submitPlan State.submit
      split
      · exact letsRequest_submit (st := u.store) h Submitter.noConfusion rfl
      · exact h
    · exact h
  unfold State.startOverwrite
  split
  · exact h
  · split
    · exact submits _ _ h
    · exact h

theorem frontReset_lets {s : State} (h : s.store.letsRequest) : s.frontReset.store.letsRequest := by
  have store : s.frontReset.store = s.clearTransfers.restartOverwrite.store := by rw [frontReset_eq]
  have cleared : s.clearTransfers.store = s.store := by rw [clearTransfers_eq]
  rw [← cleared] at h
  rw [store]
  generalize s.clearTransfers = c at h ⊢
  by_cases begun : c.overwriteBegun
  · rw [restartOverwrite_begun begun]
    exact startOverwrite_lets (s := c.rewound) h
  · rwa [restartOverwrite_resting begun]

/-- The attempt whose charge has closed submits the group that settles it as failed (R62). -/
theorem frontReset_settles {s : State} (part : s.power.part = .ready) (executing : s.executor.status = .executing)
    (atOnce : s.submitsAtOnce) {a : Attempt} (job : s.executor.job = .attempt a) (phase : a.phase = .deriving) :
    requestGroup (s.settleRecords a.slot) ∈ (settle s.frontReset).store.waitingGroups ∧
      (settle s.frontReset).executor = { s.executor with
        status := .abandoned, job := .attempt { a with settledAt := s.clock, phase := .settling }, stage := .submitted } := by
  obtain ⟨-, -, -, attempts⟩ := frontReset_request s executing
  have executor := ((attempts a job).2.1 phase).1
  have power : s.frontReset.power = s.power := by rw [frontReset_eq]
  have cells := frontReset_cells s
  have lets := frontReset_lets (s := s) atOnce
  generalize s.frontReset = x at *
  have counters : x.counters = s.counters := by
    have read := congrArg (fun st : Store => st.counters.read manufacturedCounters) cells
    exact read
  have cred (i : SlotId) : x.cred i = s.cred i := by
    have read := congrArg (fun st : Store => st.creds[i].read emptySlot) cells
    exact read
  have drain : x.endDrainWait = x := by simp only [State.endDrainWait, State.commit, executor]
  have prepared : x.prepareJob = x := by simp only [State.prepareJob, executor]
  have records : x.jobRecords = s.settleRecords a.slot := by
    simp only [State.jobRecords, executor, State.attemptRecords, State.settleRecords, counters, cred]
  have submits := settle_submits (x := x)
  rw [drain, prepared, records] at submits
  obtain ⟨waits, after, -⟩ := submits (power ▸ part) (by rw [executor]) (by rw [executor]; exact ExecStatus.noConfusion)
    (by rw [executor]; rfl) (List.cons_ne_nil _ _) lets rfl
  exact ⟨waits, by rw [after, executor]⟩

/-- The commit in its drain wait, which ends with the references, submits its group (R20, R21). -/
theorem frontReset_commits {s : State} (part : s.power.part = .ready) (executing : s.executor.status = .executing)
    (atOnce : s.submitsAtOnce) {c : Commit} (job : s.executor.job = .commit c) (working : s.executor.stage = .working) :
    ∃ (keys : List (RangeId × Key)) (records : List Record) (record : RangeRecord),
      requestGroup records ∈ (settle s.frontReset).store.waitingGroups ∧
        (settle s.frontReset).executor =
          { s.executor with status := .abandoned, job := .commit { c with newKeys := keys }, stage := .submitted } ∧
        Record.range 0 record ∈ records ∧ record.tableGeneration = s.tableGeneration + 1 ∧ (settle s.frontReset).table = s.table := by
  obtain ⟨-, dropped, -, -⟩ := frontReset_request s executing
  have executor := (dropped (by rw [working]; exact JobStage.noConfusion)).1 (.inr ⟨c, job⟩)
  have power : s.frontReset.power = s.power := by rw [frontReset_eq]
  have table : s.frontReset.table = s.table := by rw [frontReset_eq]
  have cells := frontReset_cells s
  have lets := frontReset_lets (s := s) atOnce
  have refs (o : Owner) : (s.frontReset.key o).refs = 0 := by rw [frontReset_key]; split <;> rfl
  generalize s.frontReset = x at *
  have generation : x.tableGeneration = s.tableGeneration := by
    have read := congrArg (fun st : Store => (st.ranges[(0 : RangeId)].read (lostRange 0)).tableGeneration) cells
    exact read
  have drain : x.endDrainWait = { x with executor := { s.executor with status := .abandoned, stage := .wanted } } := by
    have drained : x.commitDraining = true ∧ x.drained c = true := by
      simp [State.commitDraining, State.commit, State.drained, executor, job, working, refs]
    simp only [State.endDrainWait, State.commit, executor, job]
    rw [if_pos drained]
  have submits := settle_submits (x := x)
  rw [drain] at submits
  generalize u_eq : ({ x with executor := { s.executor with status := .abandoned, stage := .wanted } } : State) = u at submits
  have uExecutor : u.executor = { s.executor with status := .abandoned, stage := .wanted } := by rw [← u_eq]
  have uPower : u.power = s.power := by rw [← u_eq]; exact power
  have uTable : u.table = s.table := by rw [← u_eq]; exact table
  have uLets : u.store.letsRequest := by rw [← u_eq]; exact lets
  have uGeneration : u.tableGeneration = s.tableGeneration := by rw [← u_eq]; exact generation
  have prepared := prepareJob_eq u
  obtain ⟨keys, drew⟩ : ∃ keys, u.prepareJob.executor = { u.executor with job := .commit { c with newKeys := keys } } := by
    refine ⟨(State.drawKeys (allRanges.filter u.receivesKey) u).1, ?_⟩
    have uJob : u.executor.job = .commit c := by rw [uExecutor]; exact job
    simp only [State.prepareJob, uJob]
  generalize u.prepareJob = v at submits prepared drew
  have vGeneration : v.tableGeneration = s.tableGeneration := by rw [prepared]; exact uGeneration
  have records : v.jobRecords = v.commitRecords { c with newKeys := keys } := by
    simp only [State.jobRecords, drew]
  obtain ⟨waits, after, same⟩ := submits (by rw [uPower]; exact part) (by rw [uExecutor]) (by rw [uExecutor]; exact ExecStatus.noConfusion)
    (by rw [uExecutor, job]; rfl) (by rw [State.jobRecords, uExecutor, job]; exact List.cons_ne_nil _ _) uLets (by rw [drew])
  refine ⟨keys, _, v.commitRecord { c with newKeys := keys } 0, waits, ?_, ?_, ?_, by rw [same, uTable]⟩
  · rw [after, drew, uExecutor]
  · rw [records]
    exact List.mem_cons_self
  · rw [← vGeneration]
    rfl

/-- Settles O15: part by part of the state, and the group that a request left ready submits in the same event. -/
theorem frontResetClearsTransfers : Obligations.FrontResetClearsTransfers := by
  intro s powered
  have taken : exec .frontReset s = .next (settle s.frontReset) := congrArg Host.Outcome.next (whilePowered_on _ powered)
  have fields := frontReset_eq s
  have request := frontReset_request s
  refine ⟨s.frontReset, taken, fun t => ?_, frontReset_key s, fun l t i task => ?_, fun t i y g entry segment => ?_, fun l lane => ?_,
    fun l idle lane => ?_, fun asked lane position => ?_, frontReset_overwrite s, ?_⟩
  · have inflight : s.frontReset.inflight = s.clearTransfers.inflight := by rw [fields]
    rw [inflight, clearTransfers_inflight, tab32_get]
  · have other : s.overwriteLane ≠ some l := fun lane => by
      obtain ⟨f, c, p, e⟩ := overwriteLane_task lane
      rw [task] at e; cases e
    rw [frontReset_lane, if_neg other, clearedLane_transfer task]
  · simp only [State.clearedWrite, entry, segment]
    rfl
  · rw [frontReset_lane, if_pos lane]
    rfl
  · rw [frontReset_lane, if_neg lane, clearedLane_other idle]
  · have resting : ¬ s.clearTransfers.overwriteBegun := by
      rw [clearTransfers_begun, State.overwriteBegun, asked, lane, position]
      simp
    rw [frontReset_wipe, restartOverwrite_resting resting]
    exact (clearTransfers_views s).2.2.1
  have cells := frontReset_cells s
  have ended : s.frontReset.executor.status ≠ .executing := abandonRequest_ends _
  have binding : s.executor.job.isEnrol = false → s.frontReset.binding = s.binding := fun enrol => by
    refine (abandonRequest_binding (s := s.frontCleared) (by rw [frontCleared_executor]; exact enrol)).trans ?_
    rw [frontCleared_eq]
  have resting : s.executor.status ≠ .executing →
      s.frontReset.executor = s.executor ∧ s.frontReset.derivations = s.derivations := fun idle => by
    have same : s.frontReset = s.frontCleared := abandonRequest_resting (s := s.frontCleared) (by rw [frontCleared_executor]; exact idle)
    rw [same]
    exact ⟨frontCleared_executor s, frontCleared_derivations s⟩
  have settles := @frontReset_settles s
  have commits := @frontReset_commits s
  generalize s.frontReset = x at *
  refine ⟨by rw [fields], by rw [fields], ended, by rw [fields], by rw [fields], by rw [fields], by rw [fields], by rw [fields],
    by rw [fields], by rw [fields], by rw [fields], by rw [fields], by rw [fields], binding, cells, resting, request, ?_⟩
  intro t next part executing atOnce
  obtain rfl : t = settle x := (Host.Outcome.next.inj (taken.symm.trans next)).symm
  refine ⟨fun a job phase => ?_, fun c job working => commits part executing atOnce job working⟩
  obtain ⟨waits, executor⟩ := settles part executing atOnce job phase
  refine ⟨?_, executor⟩
  simp only [State.settleRecords, CredRecord.atLimit, decide_eq_true_eq] at waits
  exact waits

end Sys2Proof.Machine

namespace Sys2Proof.Machine

/-! ### What follows a start-up in the same event: nothing but the level of ALERT (R149, R177) -/

theorem forEach_fixed {α : Type} {f : α → State → State} {s : State} (h : ∀ a, f a s = s) (l : List α) : forEach l f s = s := by
  induction l with
  | nil => rfl
  | cons a l ih => rw [show forEach (a :: l) f s = forEach l f (f a s) from rfl, h, ih]

section Resting

variable {s : State} (part : s.power.part = .starting ∨ s.power.part = .failsafe ∧ s.store.wipeAccepted = false)
  (executor : s.executor = freeExecutor) (asked : s.wipe.asked = false) (final : s.wipe.final = .none)
  (inflight : ∀ t : Tag, s.inflight[t] = none)

include part in
theorem not_ready : s.power.part ≠ .ready ∧ s.power.part ≠ .asleep ∧ s.power.part ≠ .sleepEntering := by
  rcases part with e | ⟨e, -⟩ <;> rw [e] <;> decide

include executor in
theorem executor_resting : s.endDrainWait.advanceEnrolment.advanceExecutor = s := by
  have drain : s.endDrainWait = s := by simp only [State.endDrainWait, State.commit, executor, freeExecutor]
  have enrolment : s.advanceEnrolment = s := by simp only [State.advanceEnrolment, executor, freeExecutor]
  rw [drain, enrolment, State.advanceExecutor, executor]
  rfl

include part asked final in
theorem advanceWipe_resting : s.advanceWipe = s := by
  unfold State.advanceWipe
  split
  · rfl
  · next may =>
    have undue : s.finalDue = false := by
      rcases part with e | ⟨e, refused⟩ <;> simp [State.finalDue, e]
      simp [refused]
    rw [undue, if_neg Bool.false_ne_true]
    dsimp only
    rw [final]
    dsimp only
    split
    · rw [if_neg (by rw [asked]; simp)]
    · rfl

include asked inflight in
theorem grantLanes_resting : s.grantLanes = s := by
  refine forEach_fixed (fun l => ?_) _
  unfold State.grantLane
  split
  · rfl
  · rw [nextTransfer_none fun t x entry => by rw [inflight t] at entry; cases entry]
    exact if_neg (by simp [State.wipeWaits, asked])

include part in
theorem advanceSleep_resting : s.advanceSleep = s := by
  obtain ⟨ready, -, entering⟩ := not_ready part
  simp [State.advanceSleep, State.sleepEntryDue, State.sleepDropDue, State.sleepReadyDue, ready, entering]

include part in
theorem timers_resting (idle : s.trigger.idle = .stopped) (recheck : s.binding.recheck = none) (authority : s.authority = none)
    (timer : s.authTimer = none) : s.tendIdle.tendRecheck.tendAuthority = s := by
  obtain ⟨ready, -, -⟩ := not_ready part
  have idles : s.tendIdle = s := by
    rw [State.tendIdle, if_neg (by simp [State.idleRuns, ready]), ← idle]
  have rechecks : s.tendRecheck = s := by
    rw [State.tendRecheck, if_neg (by simp [State.recheckRuns, ready]), ← recheck]
    rfl
  rw [idles, rechecks, State.tendAuthority, if_neg (by simp [authority]), ← timer]

include part executor asked final inflight in
theorem settle_resting (idle : s.trigger.idle = .stopped) (recheck : s.binding.recheck = none) (authority : s.authority = none)
    (timer : s.authTimer = none) : settle s = settleAlert s := by
  unfold settle
  rw [executor_resting executor, advanceWipe_resting part asked final, grantLanes_resting asked inflight]
  dsimp only
  rw [advanceSleep_resting part, advanceWipe_resting part asked final, timers_resting part idle recheck authority timer]

end Resting

/-! ### The start-up (R149 to R152) -/

/-- `x` is the state `v` at entry into STARTING but for the outcome of the scan and the CHARGE stage's group (R149, R151, R152). -/
structure StartsAs (v x : State) (part : PartState) (stage : StartStage) (working : LockdownRecord) (pending : List EventKind)
    (writing : Option Writing) : Prop where
  state : x = { v with
    power := { v.power with part := part, stage := stage }, trigger := { v.trigger with working := working }
    events := { v.events with pending := pending }, store := { v.store with writing := writing } }
  parts : part = .starting ∨ part = .failsafe
  raised : ∀ k ∈ pending, k = .storeRollback ∨ k = .storeFault
  unmarked : part = .starting → v.counters.marker = none → stage = .restoreDue ∧ writing = none
  marked : ∀ m, part = .starting → v.counters.marker = some m → stage = .charge ∧ writing = some
    { group := chargeGroup m.slot (v.cred m.slot).atLimit (v.settleRecords m.slot), number := v.store.lastClosed + 1, stage := .copies 0 0 }

section StartsAs

variable {v : State} (part : v.power.part = .starting) (stage : v.power.stage = .charge) (idle : v.store.idle = true)
  {pending : List EventKind} (raised : ∀ k ∈ pending, k = .storeRollback ∨ k = .storeFault)

include idle in
theorem writing_of_idle : v.store.writing = none := by
  simp only [Store.idle, Bool.and_eq_true, Option.isNone_iff_eq_none] at idle
  exact idle.1.1

include raised in
theorem startsAs_scanFailed : ∃ part stage working pending' writing,
    StartsAs v ({ v with events := { v.events with pending := pending } } : State).scanFailed part stage working pending' writing := by
  refine ⟨.failsafe, v.power.stage, v.lockdownRecord, withEvent .storeFault pending, v.store.writing, rfl, .inr rfl, fun k h => ?_, nofun, nofun⟩
  rcases (mem_withEvent _ _ _).1 h with rfl | h
  · exact .inr rfl
  · exact raised k h

include part stage idle raised in
theorem startsAs_startCharge : ∃ part stage working pending' writing,
    StartsAs v ({ v with events := { v.events with pending := pending } } : State).startCharge part stage working pending' writing := by
  have writing := writing_of_idle idle
  cases marker : v.counters.marker with
  | none =>
    refine ⟨.starting, .restoreDue, v.trigger.working, pending, none, ?_, .inl rfl, raised, fun _ _ => ⟨rfl, rfl⟩,
      fun m _ h => by rw [marker] at h; cases h⟩
    have ends : ({ v with events := { v.events with pending := pending } } : State).startCharge =
        { v with events := { v.events with pending := pending }, power := { v.power with stage := .restoreDue } } := by
      unfold State.startCharge
      rw [show ({ v with events := { v.events with pending := pending } } : State).counters.marker = none from marker]
    rw [ends, ← part, ← writing]
  | some m =>
    refine ⟨.starting, .charge, v.trigger.working, pending, _, ?_, .inl rfl, raised,
      fun _ h => (by rw [marker] at h; cases h), fun m' _ h => ⟨rfl, (by rw [marker] at h; cases h; rfl)⟩⟩
    have settles : ({ v with events := { v.events with pending := pending } } : State).startCharge =
        ({ v with events := { v.events with pending := pending } } : State).submit
          (chargeGroup m.slot (v.cred m.slot).atLimit (v.settleRecords m.slot)) := by
      unfold State.startCharge
      rw [show ({ v with events := { v.events with pending := pending } } : State).counters.marker = some m from marker]
      rfl
    rw [settles, State.submit_reaches _ _ (by simp [State.maySubmit, chargeGroup, part]), Store.submit_idle _ _ idle, ← part, ← stage]

end StartsAs

theorem startUp_startsAs (s : State) (cause : StartCause) (found : ScanFindings) : ∃ part stage working pending writing,
    StartsAs (s.startVolatile (s.store.scan found).store cause (s.store.scan found).rolledBack) (s.startUp cause found)
      part stage working pending writing := by
  have idle : (s.store.scan found).store.idle = true := rfl
  unfold State.startUp
  generalize s.store.scan found = o at idle ⊢
  dsimp only
  have rolled : ∃ pending, (∀ k ∈ pending, k = EventKind.storeRollback ∨ k = .storeFault) ∧
      (if o.rolledBack then (s.startVolatile o.store cause o.rolledBack).raise .storeRollback
        else s.startVolatile o.store cause o.rolledBack) =
        { s.startVolatile o.store cause o.rolledBack with
          events := { (s.startVolatile o.store cause o.rolledBack).events with pending := pending } } := by
    split
    · refine ⟨withEvent .storeRollback [], fun k h => .inl ?_, rfl⟩
      simpa using h
    · exact ⟨[], nofun, rfl⟩
  obtain ⟨pending, raised, rolled⟩ := rolled
  rw [rolled]
  split
  · exact startsAs_scanFailed raised
  · exact startsAs_startCharge rfl rfl idle raised

/-- What every start-up leaves (R48, R65, R73, R105, R109, R137, R149, R152, R174, R23). -/
theorem startUp_resets (s : State) (cause : StartCause) (found : ScanFindings) :
    let t := settle (s.startUp cause found)
    t.power.powered = true ∧ (t.power.part = .starting ∨ t.power.part = .failsafe) ∧
      t.power.cause = cause ∧ t.power.hold = false ∧ t.power.drained = false ∧ t.power.relocked = false ∧ t.authority = none ∧
      t.authTimer = none ∧ (∀ tag : Tag, t.inflight[tag] = none) ∧ (∀ o, t.key o = emptyKey) ∧ (∀ l : LaneId, t.lanes[l] = idleLane) ∧
      t.lastGranted = .transfer ∧ t.shadow = .off ∧ t.executor = freeExecutor ∧ t.derivations = [] ∧
      (∀ k ∈ t.events.pending, k = .storeRollback ∨ k = .storeFault) ∧ t.events.enabled = [] ∧ t.events.detail = [] ∧
      t.events.alert = false ∧ t.binding.exchange = .none ∧ t.binding.rounds = 0 ∧ t.binding.gated = [] ∧ t.binding.recheck = none ∧
      t.trigger.idle = .stopped ∧ t.trigger.bayLevel = s.trigger.bayLine ∧ t.trigger.stability = none ∧ t.trigger.held = [] ∧
      (∀ i : SlotId, t.openAt[i] = 0) ∧ t.wipe.intended = t.plan ∧ t.wipe.position = none ∧ t.wipe.key = none ∧ t.wipe.count = 0 ∧
      (∀ r : RangeId, t.table[r].readLocked = (t.range r).fields.readLock ∧ t.table[r].writeLocked = (t.range r).fields.writeLock ∧
        t.table[r].service = (if r ≠ 0 ∧ (t.range r).fields.length = 0 then .undefined else .active) ∧
        t.staging[r] = { fields := (t.range r).fields, newKey := false }) ∧
      (t.power.part = .starting → t.counters.marker = none → t.power.stage = .restoreDue ∧ t.store.writing = none) ∧
      ∀ m, t.power.part = .starting → t.counters.marker = some m → t.power.stage = .charge ∧ t.store.writing = some
        { group := chargeGroup m.slot (t.cred m.slot).atLimit (t.settleRecords m.slot)
          number := t.store.lastClosed + 1, stage := .copies 0 0 } := by
  obtain ⟨part, stage, working, pending, writing, starts⟩ := startUp_startsAs s cause found
  have unaccepted : (s.store.scan found).store.wipeAccepted = false := rfl
  generalize (s.store.scan found).store = store at starts unaccepted
  generalize (s.store.scan found).rolledBack = rolledBack at starts
  have settles : settle (s.startUp cause found) = settleAlert (s.startUp cause found) := by
    rw [starts.state]
    exact settle_resting (starts.parts.imp_right fun e => ⟨e, unaccepted⟩) rfl rfl rfl (fun t => tab32_get _ t) rfl rfl rfl rfl
  rw [settles, starts.state]
  refine ⟨rfl, starts.parts, rfl, rfl, rfl, rfl, rfl, rfl, fun t => tab32_get _ t, fun o => ?_, fun l => tab4_get _ l, rfl, rfl, rfl, rfl,
    starts.raised, rfl, rfl, ?_, rfl, rfl, rfl, rfl, rfl, rfl, rfl, rfl, fun i => tab8_get _ i, rfl, rfl, rfl, rfl, fun r => ?_,
    starts.unmarked, starts.marked⟩
  · cases o with
    | shadow => rfl
    | range r => exact tab16_get _ r
  · exact List.any_eq_false.2 fun k _ => by simp [restingEvents, State.startVolatile]
  · have table := tab16_get (fun r => rebuiltRange r (({ s with store := store } : State).range r)) r
    exact ⟨congrArg RangeLive.readLocked table, congrArg RangeLive.writeLocked table, congrArg RangeLive.service table, tab16_get _ r⟩

end Sys2Proof.Machine

namespace Sys2Proof.Machine

/-! ### The close of the CHARGE stage's group (R152) -/

section Close

variable (st : Store) (w : Writing) (nodup : w.group.cells.Nodup)
include nodup

/-- The close of a group makes the target of the counters cell effective, where the group writes it (R75). -/
theorem close_counters : (st.close w).counters = if .counters ∈ w.group.cells then st.counters.takeTarget else st.counters := by
  have there (st : Store) (d : Cell) (h : d ≠ .counters) : (st.mapCell CellPair.takeTarget d).counters = st.counters := by
    cases d with
    | counters => exact absurd rfl h
    | _ => rfl
  have begins (st : Store) : st.beginNext.counters = st.counters := by unfold Store.beginNext; split <;> rfl
  have releases (st : Store) (who : Submitter) : (st.releaseHeld who).counters = st.counters := by
    unfold Store.releaseHeld; split <;> rfl
  unfold Store.close
  rw [begins, releases]
  exact foldl_reads (read := Store.counters) (fun _ => rfl) there nodup _

theorem close_triggers (other : .triggers ∉ w.group.cells) : (st.close w).triggers = st.triggers := by
  have there (st : Store) (d : Cell) (h : d ≠ .triggers) : (st.mapCell CellPair.takeTarget d).triggers = st.triggers := by
    cases d with
    | triggers => exact absurd rfl h
    | _ => rfl
  have begins (st : Store) : st.beginNext.triggers = st.triggers := by unfold Store.beginNext; split <;> rfl
  have releases (st : Store) (who : Submitter) : (st.releaseHeld who).triggers = st.triggers := by
    unfold Store.releaseHeld; split <;> rfl
  unfold Store.close
  rw [begins, releases]
  exact (foldl_reads (read := Store.triggers) (f := CellPair.takeTarget) (fun _ => rfl) there nodup _).trans (if_neg other)

end Close

/-- The records by which the CHARGE stage settles an attempt as failed. -/
def settlement (i : SlotId) (lockedOut : Bool) (counters : Counters) (cred : CredRecord) : List Record :=
  .counters counters :: (if lockedOut then [.cred i cred] else [])

theorem settlement_cells (i : SlotId) (lockedOut : Bool) (counters : Counters) (cred : CredRecord) :
    (chargeGroup i lockedOut (settlement i lockedOut counters cred)).cells = .counters :: (if lockedOut then [.cred i] else []) := by
  cases lockedOut <;> rfl

/-- What the close of the CHARGE stage's group makes of a part in that stage: the stage ends, and a GUESS_LIMIT firing is held (R152). -/
theorem chargeClosed_eq {s : State} (part : s.power.part = .starting) (stage : s.power.stage = .charge) (lockedOut : Bool) :
    s.chargeClosed lockedOut = { s with
      power := { s.power with attemptCharged := true, stage := .restoreDue }
      events := (if lockedOut then (s.raise .attemptCharged).raise .slotLockedOut else s.raise .attemptCharged).events
      trigger := if s.triggers.gmax ≤ s.counters.g then { s.trigger with held := s.trigger.held ++ [.guessLimit] } else s.trigger } := by
  have held (u : State) (starting : u.power.part = .starting) (charging : u.power.stage = .charge) : u.handOverG = { u with
      trigger := if u.triggers.gmax ≤ u.counters.g then { u.trigger with held := u.trigger.held ++ [.guessLimit] } else u.trigger } := by
    unfold State.handOverG
    split
    · rw [State.fire, starting]
      exact if_neg (by rw [charging]; decide)
    · rfl
  obtain ⟨told, toldEq⟩ : ∃ told : State, told = { s with
      power := { s.power with attemptCharged := true }
      events := (if lockedOut then (s.raise .attemptCharged).raise .slotLockedOut else s.raise .attemptCharged).events } := ⟨_, rfl⟩
  have closed : s.chargeClosed lockedOut =
      { told.handOverG with power := { told.handOverG.power with stage := .restoreDue } } := by
    rw [toldEq]
    cases lockedOut <;> rfl
  rw [closed, held told (by rw [toldEq]; exact part) (by rw [toldEq]; exact stage), toldEq]
  rfl

/-- The state whose CHARGE stage has ended by the close of its group (R152). -/
theorem groupClose_charge {s : State} (scan : ScanFindings) {i : SlotId} {lockedOut : Bool} {counters : Counters} {cred : CredRecord}
    (ready : s.readyToClose (chargeGroup i lockedOut (settlement i lockedOut counters cred))) :
    ∃ t : State, exec (.groupClose scan) s = .next (settle (t.chargeClosed lockedOut)) ∧
      t = { s with store := t.store, events := t.events } ∧ t.counters = counters ∧ (lockedOut = true → t.cred i = cred) ∧
      t.triggers = s.triggers := by
  obtain ⟨powered, ⟨number, tries, writing⟩, nodup, target⟩ := ready
  let w : Writing := { group := chargeGroup i lockedOut (settlement i lockedOut counters cred), number := number, stage := .marker tries }
  have closing : s.store.closing = some w := by rw [Store.closing, writing]
  let closed : State := { s with store := s.store.close w }
  let stepped := if stepAdvanced s.plan closed.plan then closed.raise .wipeStepDone else closed
  have steppedEq : stepped.store = s.store.close w ∧ stepped = { s with store := stepped.store, events := stepped.events } := by
    unfold stepped; split <;> exact ⟨rfl, rfl⟩
  have cells := settlement_cells i lockedOut counters cred
  have lockdown : Cell.lockdown ∉ w.group.cells := by
    rw [show w.group.cells = _ from cells]
    cases lockedOut <;> simp
  have triggers : Cell.triggers ∉ w.group.cells := by
    rw [show w.group.cells = _ from cells]
    cases lockedOut <;> simp
  have closes : s.closeGroup w scan = stepped.chargeClosed lockedOut := if_neg lockdown
  refine ⟨stepped, ?_, steppedEq.2, ?_, fun locked => ?_, ?_⟩
  · show Host.Outcome.next (s.whilePowered _) = _
    rw [whilePowered_on _ powered, closing]
    exact congrArg (fun u => Host.Outcome.next (settle u)) closes
  · rw [State.counters, steppedEq.1, close_counters _ _ nodup, if_pos (by rw [show w.group.cells = _ from cells]; exact List.mem_cons_self)]
    exact target (.counters counters) List.mem_cons_self
  · subst locked
    rw [State.cred, steppedEq.1, close_creds _ _ nodup, if_pos (by rw [show w.group.cells = _ from cells]; simp)]
    exact target (.cred i cred) (by simp [chargeGroup, settlement])
  · rw [State.triggers, steppedEq.1, close_triggers _ _ nodup triggers]
    rfl

/-- Settles O24: a start-up by the state at entry into STARTING and what its event adds, and the CHARGE stage's end by its group's close. -/
theorem startUpResetsVolatileState : Obligations.StartUpResetsVolatileState := by
  refine ⟨fun s scan c cause begins => ?_, fun s scan i lockedOut counters cred part stage ready => ?_⟩
  · have starts : exec c s = .next (settle (s.startUp cause scan)) := by
      rcases begins with ⟨rfl, rfl, off⟩ | ⟨rfl, rfl, on, due⟩
      · exact congrArg Host.Outcome.next (if_neg (by rw [off]; decide))
      · exact congrArg Host.Outcome.next ((whilePowered_on _ on).trans (congrArg settle (if_pos due)))
    refine ⟨_, starts, ?_⟩
    have resets := startUp_resets s cause scan
    simp only [State.settleRecords, CredRecord.atLimit, decide_eq_true_eq] at resets
    simp only [CredRecord.atLimit]
    exact resets
  · obtain ⟨t, closes, rest, counted, locked, triggers⟩ := groupClose_charge scan ready
    have power : t.power = s.power := by rw [rest]
    have trigger : t.trigger = s.trigger := by rw [rest]
    have ended := chargeClosed_eq (s := t) (by rw [power]; exact part) (by rw [power]; exact stage) lockedOut
    refine ⟨t.chargeClosed lockedOut, closes, ?_⟩
    rw [ended]
    refine ⟨?_, counted, fun out => ⟨locked out, ?_⟩, ?_, ?_, ?_, ?_, ?_, ?_⟩
    · rw [power]
    · rw [out, if_pos rfl]
      simp
    · cases lockedOut <;> simp
    · rw [triggers, counted, trigger]
    all_goals rw [rest]

end Sys2Proof.Machine

namespace Sys2Proof.Machine

/-! ### Authority outside READY (R71)

All but a few operations grant no authority and leave the part state: `Ungranted` is kept along them. What is left is the grant at a
successful verdict, and the operations that change the part state: each ends authority, ends in READY, or finds none held. -/

/-- From `s` to `t` no authority has come up, and the part state has stayed (R71). -/
structure Ungranted (s t : State) : Prop where
  part : t.power.part = s.power.part
  holder : t.authority.isSome = true → s.authority.isSome = true

namespace Ungranted

theorem refl (s : State) : Ungranted s s := ⟨rfl, id⟩

theorem trans {s t u : State} (h : Ungranted s t) (k : Ungranted t u) : Ungranted s u :=
  ⟨k.part.trans h.part, fun some => h.holder (k.holder some)⟩

variable {s t u : State} (h : Ungranted s t)
include h

/-- Authority stays absent outside READY where none comes up. -/
theorem onlyInReady (only : s.authorityOnlyInReady) : t.authorityOnlyInReady := fun some => h.part.trans (only (h.holder some))

/-- Absent authority stays absent. -/
theorem absent (gone : s.authority = none) : t.authority = none := by
  cases holder : t.authority with
  | none => rfl
  | some a =>
    have held := h.holder (by rw [holder]; rfl)
    rw [gone] at held
    cases held

/-- An update that leaves the authority record and the part state. -/
theorem same (part : u.power.part = t.power.part) (authority : u.authority = t.authority) : Ungranted s u :=
  h.trans ⟨part, fun some => by rwa [← authority]⟩

/-- An operation on transfers, lanes, keys and ranges. -/
theorem aside (e : transferFrame u.besideRanges = transferFrame t.besideRanges) : Ungranted s u := by
  have part := congrArg (fun x => x.power.part) e
  have authority := congrArg State.authority e
  exact h.same part authority

theorem framed (e : transferFrame u = transferFrame t) : Ungranted s u := by
  have beside := congrArg State.besideRanges e
  exact h.aside beside

theorem steady (e : Steady t u) : Ungranted s u := by
  have part := congrArg Power.part e.power
  exact h.same part e.authority

theorem ite {c : Prop} [Decidable c] (k : Ungranted s u) : Ungranted s (if c then t else u) := by split <;> assumption

theorem forEach {α : Type} {f : α → State → State} (step : ∀ a {t : State}, Ungranted s t → Ungranted s (f a t)) (l : List α) :
    Ungranted s (Machine.forEach l f t) := by
  induction l generalizing t with
  | nil => exact h
  | cons a l ih => exact ih (step a h)

/-! #### Updates of other parts of the state -/

theorem withPower (p : Power) (part : p.part = t.power.part := by rfl) : Ungranted s { t with power := p } := h.same part rfl
theorem raise (k : EventKind) : Ungranted s (t.raise k) := h.same rfl rfl
theorem setBinding (b : Binding) : Ungranted s (t.setBinding b) := h.same rfl rfl
theorem setWipe (w : Wipe) : Ungranted s (t.setWipe w) := h.same rfl rfl
theorem setLockdown (x : LockdownRecord) : Ungranted s (t.setLockdown x) := h.same rfl rfl
theorem modRange (r : RangeId) (f : RangeLive → RangeLive) : Ungranted s (t.modRange r f) := h.same rfl rfl
theorem ungate (r : RangeId) : Ungranted s (t.ungate r) := h.same rfl rfl
theorem restage (r : RangeId) : Ungranted s (t.restage r) := h.same rfl rfl
theorem setOpenAt (i : SlotId) (n : Nat) : Ungranted s (t.setOpenAt i n) := h.same rfl rfl
theorem startJob (j : Job) (stage : JobStage) : Ungranted s (t.startJob j stage) := h.same rfl rfl
theorem reachTime (n : Nat) : Ungranted s (t.reachTime n) := h.same rfl rfl
theorem say (m : Sent) : Ungranted s (t.say m) := h.same rfl rfl
theorem draw : Ungranted s t.draw.2 := h.same rfl rfl
theorem setLane (l : LaneId) (x : Lane) : Ungranted s (t.setLane l x) := h.same rfl rfl

/-! #### Authority, replies and submissions (R72, R78, R164) -/

theorem endAuthority : Ungranted s t.endAuthority := h.trans ⟨rfl, nofun⟩
theorem revokeAuthority : Ungranted s t.revokeAuthority := (h.endAuthority.raise _).ite h.endAuthority

theorem renewUnwrap (i : SlotId) (u : Unwrap) : Ungranted s (t.renewUnwrap i u) := by
  unfold State.renewUnwrap
  split
  · next held =>
    split
    · exact h.trans ⟨rfl, fun _ => by rw [held]; rfl⟩
    · exact h
  · exact h

theorem reply (code : Code) (payload : Payload) : Ungranted s (t.reply code payload) := by
  unfold State.reply
  split
  · exact h.same rfl rfl
  · exact h.same rfl rfl
  · exact h

theorem restartIdle : Ungranted s t.restartIdle := h.same (by rw [restartIdle_eq]) (by rw [restartIdle_eq])

theorem submit (g : Group) : Ungranted s (t.submit g) := by
  unfold State.submit
  split
  · exact h.same rfl rfl
  · exact h

theorem submitPlan (p : WipePlan) (l : List Record) (e : List Effect) (b : Bool) : Ungranted s (t.submitPlan p l e b) :=
  (h.setWipe _).submit _

/-! #### Ranges and keys (R5, R11, R12, R20) -/

theorem modKey (o : Owner) (f : KeyEntry → KeyEntry) : Ungranted s (t.modKey o f) := h.framed (frame_modKey t o f)

theorem loadFromRoot (r : RangeId) : Ungranted s (t.loadFromRoot r) := by
  unfold State.loadFromRoot
  split
  · exact h.modKey _ _
  · exact h

theorem drainIfClosed (r : RangeId) : Ungranted s (t.drainIfClosed r) := (h.modKey _ _).ite h

theorem closeRange (r : RangeId) : Ungranted s (t.closeRange r) := h.modRange r _
theorem setLocks (r : RangeId) (d : DirSet) (b : Bool) : Ungranted s (t.setLocks r d b) := h.modRange r _
theorem relock : Ungranted s t.relock := h.forEach (fun r _ h => (h.closeRange r).drainIfClosed r) _

theorem noteRelocked {f : State → State} (step : ∀ {t : State}, Ungranted s t → Ungranted s (f t)) : Ungranted s (noteRelocked f t) :=
  ((step h).withPower _).ite (step h)

theorem endCommit (code : Code) (payload : Payload) : Ungranted s (t.endCommit code payload) := by
  unfold State.endCommit
  split
  · exact (h.same (by rw [revertCommit_frame]) (by rw [revertCommit_frame])).reply _ _
  · exact h

theorem holdAgainst (r : RangeId) (x : Held) : Ungranted s (t.holdAgainst r x) := by
  unfold State.holdAgainst
  split
  · exact h.same rfl rfl
  · exact h

theorem lockdownRange (r : RangeId) : Ungranted s (t.lockdownRange r) := by
  unfold State.lockdownRange
  split
  · exact h.aside (aside_lockRangeDown t r).frame
  · exact h.holdAgainst r _
  all_goals exact h

theorem enterLockdown : Ungranted s t.enterLockdown :=
  ((h.endCommit _ _).ite h).forEach (fun r _ h => h.lockdownRange r) _

theorem unlockdownRange (r : RangeId) : Ungranted s (t.unlockdownRange r) := by
  have active := (h.modRange r (fun e => { e with service := .active })).closeRange r
  exact ((active.loadFromRoot r).ite ((active.modKey _ _).ite active)).ite h

theorem leaveLockdown : Ungranted s t.leaveLockdown := h.forEach (fun r _ h => h.unlockdownRange r) _

theorem eraseRange (r : RangeId) : Ungranted s (t.eraseRange r) := h.aside (aside_eraseRange t r).frame

theorem markErasing (r : RangeId) : Ungranted s (t.markErasing r) := by
  have ended := h.endCommit .slotState (.range (some r))
  unfold State.markErasing
  split
  · exact h.eraseRange r
  · exact h.eraseRange r
  · exact h
  · exact h
  · exact ((ended.eraseRange r).ite ended).ite ((h.holdAgainst r _).ungate r)

theorem abortOwner (o : Owner) (reason : AbortReason) : Ungranted s (t.abortOwner o reason) := h.framed (frame_abortOwner t o reason)

theorem markTarget (o : Owner) : Ungranted s (t.markTarget o) := by
  cases o with
  | range r => exact h.markErasing r
  | shadow => exact h.abortOwner .shadow .erase

theorem markDefined : Ungranted s (Machine.forEach allRanges (fun r s => if s.defined r then s.markErasing r else s) t) :=
  h.forEach (fun r _ h => (h.markErasing r).ite h) _

theorem sleepDropAll : Ungranted s t.sleepDropAll :=
  h.forEach (fun r _ h => (((h.closeRange r).modKey _ _).ite (h.closeRange r)).ite h) _

/-! #### The Wipe Engine (R125 to R133) -/

theorem markAccepted (targets : List Owner) (full : Bool) : Ungranted s (t.markAccepted targets full) := by
  have new := h.forEach (f := fun o s => s.markTarget o) (fun o _ h => h.markTarget o)
    (targets.filter (fun o => (t.wipe.intended.item o).isNone))
  exact ((new.markDefined.abortOwner _ _).ite new.markDefined).ite new

theorem acceptWipe (targets : List Owner) (overwrite full answers : Bool) :
    Ungranted s (t.acceptWipe targets overwrite full answers).1 := by
  unfold State.acceptWipe
  dsimp only
  split
  · exact h
  · exact (h.noteRelocked fun h => h.markAccepted _ _).submitPlan _ _ _ _

theorem stepPlan (p : WipePlan) (l : List Record) (e : List Effect) (b : Bool) : Ungranted s (t.submitPlan p l e b).stepSent :=
  (h.submitPlan p l e b).setWipe _

theorem keyStepRange (r : RangeId) : Ungranted s (t.keyStepRange r) := by
  unfold State.keyStepRange
  dsimp only
  split
  · exact h.ite ((h.submit _).setWipe _)
  · exact h.ite (h.draw.stepPlan _ _ _ _)

theorem beginItem (o : Owner) : Ungranted s (t.beginItem o) := by
  cases o with
  | shadow => exact h.ite (h.draw.stepPlan _ _ _ _)
  | range r =>
    have marked : Ungranted s (if t.defined r then Machine.noteRelocked (fun s => s.markErasing r) t else t) :=
      (h.noteRelocked fun h => h.markErasing r).ite h
    unfold State.beginItem
    dsimp only
    split
    · exact marked
    · exact marked.stepPlan _ _ _ _
    · exact marked.keyStepRange r

theorem finishOverwrite (o : Owner) : Ungranted s (t.finishOverwrite o) := (h.setWipe _).stepPlan _ _ _ _

theorem askLane (o : Owner) : Ungranted s (t.askLane o) := by
  unfold State.askLane
  split
  · exact h.finishOverwrite o
  · exact h.setWipe _

theorem startOverwrite : Ungranted s t.startOverwrite := h.same (by rw [startOverwrite_eq]) (by rw [startOverwrite_eq])
theorem resumeOverwrite : Ungranted s t.resumeOverwrite := h.startOverwrite.ite h
theorem stopOverwrite : Ungranted s t.stopOverwrite := h.same (by rw [stopOverwrite_eq]) (by rw [stopOverwrite_eq])

theorem overwriteMoved (o : Owner) (next written : Nat) : Ungranted s (t.overwriteMoved o next written) := by
  unfold State.overwriteMoved
  dsimp only
  split
  · exact (h.setWipe _).finishOverwrite o
  · refine ite (askLane (ite ?cursored ?placed) o) (ite ?cursored ?placed)
    case cursored => exact (((h.setWipe _).setWipe _).setWipe _).submitPlan _ _ _ _
    case placed => exact (h.setWipe _).setWipe _

theorem endOverwriteSegment (l : LaneId) (next written : Nat) : Ungranted s (t.endOverwriteSegment l next written) := by
  unfold State.endOverwriteSegment
  dsimp only
  split
  · exact (h.setLane l _).overwriteMoved _ _ _
  · exact h.setLane l _

/-! #### Lanes (R38, R42, R131) -/

theorem reportIfStopped (l : LaneId) : Ungranted s (t.reportIfStopped l) := h.framed (frame_reportIfStopped t l)

theorem answerCleared (l : LaneId) : Ungranted s (t.answerCleared l) := by
  unfold State.answerCleared
  split
  · exact h
  · exact (h.setLane l _).reportIfStopped l

theorem answerOverwrite (l : LaneId) (first count progress : Nat) : Ungranted s (t.answerOverwrite l first count progress) := by
  unfold State.answerOverwrite
  split
  · exact h
  · dsimp only
    split
    · exact (h.setLane l _).reportIfStopped l
    · split
      · exact ((h.setLane l _).endOverwriteSegment l _ _).ite (h.setLane l _)
      · exact ((h.setLane l _).endOverwriteSegment l _ _).ite (((h.setLane l _).setLane l _).steady (steady_fillOverwrite _ l))

theorem errorOverwrite (l : LaneId) (first block : Nat) : Ungranted s (t.errorOverwrite l first block) := by
  unfold State.errorOverwrite
  split
  · exact h
  · exact h.ite (((h.setLane l _).reportIfStopped l).ite
      (((h.setLane l _).endOverwriteSegment l _ _).ite ((h.setLane l _).setLane l _)))

theorem laneReceives (l : LaneId) (e : LaneEvent) : Ungranted s (t.laneReceives l e) := by
  unfold State.laneReceives
  split
  · exact h.framed (frame_answerTransfer t _ _ _ _)
  · exact h.framed (frame_deliverTransfer t _ _ _)
  · exact h.answerCleared l
  · exact h.answerOverwrite _ _ _ _
  all_goals exact h

theorem laneFails (l : LaneId) (block : Nat) : Ungranted s (t.laneFails l block) := by
  unfold State.laneFails
  split
  · exact h.framed (frame_errorTransfer t _ _ _ _)
  · exact (h.answerCleared l).ite h
  · exact h.errorOverwrite _ _ _
  · exact h

/-! #### The Trigger Unit (R113 to R120) -/

theorem leave : Ungranted s t.leave := ((h.setLockdown _).leaveLockdown).raise _
theorem exitDecision : Ungranted s t.exitDecision := (h.leave.submit _).ite h
theorem exitIfCleared (old : State) (x : Trigger) : Ungranted s (t.exitIfCleared old x) := h.exitDecision.ite h

theorem lockdownEntered (x : LockdownRecord) :
    Ungranted s (Machine.noteRelocked State.enterLockdown (t.setLockdown x)).revokeAuthority :=
  ((h.setLockdown x).noteRelocked fun h => h.enterLockdown).revokeAuthority

theorem act (x : Trigger) (a : Action) : Ungranted s (t.act x a) := by
  cases a with
  | note => exact h
  | relock => exact (h.noteRelocked fun h => h.relock).revokeAuthority
  | lockdown => exact ((h.lockdownEntered _).ite ((h.lockdownEntered _).submit _)).ite (((h.lockdownEntered _).raise _).submit _)
  | wipe => exact (h.acceptWipe _ _ _ _).revokeAuthority

theorem noteFiring (x : Trigger) : Ungranted s (t.noteFiring x) := h.same rfl rfl
theorem carryOut (x : Trigger) : Ungranted s (t.carryOut x) := (h.noteFiring x).act x _

theorem fire (x : Trigger) : Ungranted s (t.fire x) := by
  unfold State.fire
  split
  · exact h.noteFiring x
  · exact (h.carryOut x).ite (h.same rfl rfl)
  · exact h.carryOut x

theorem carryOutHeld : Ungranted s t.carryOutHeld := by
  have emptied : Ungranted s { t with trigger := { t.trigger with held := [] } } := h.same rfl rfl
  exact emptied.forEach (f := fun x s => s.carryOut x) (fun x _ h => h.carryOut x) _

theorem handOverG : Ungranted s t.handOverG := (h.fire _).ite h

theorem takeBayChange (level : BayLevel) : Ungranted s (t.takeBayChange level) := by
  unfold State.takeBayChange
  dsimp only
  split
  · refine fire (h.same ?_ ?_) _ <;> rfl
  · refine exitDecision (h.same ?_ ?_) <;> rfl

/-! #### The Binding Unit (R92 to R102) -/

theorem sendPage (k : PageKind) (m : Bool) (i : Nat) (p : Word16) (e : Exchange) : Ungranted s (t.sendPage k m i p e) := h.same rfl rfl
theorem sendAck (b : Bool) (i : Nat) : Ungranted s (t.sendAck b i) := h.same rfl rfl
theorem startRound : Ungranted s t.startRound := h.same rfl rfl
theorem startCheck (b : BindingState) : Ungranted s (t.startCheck b) := ((h.setBinding _).startRound).ite h
theorem startEnrolExchange (x : Word32) : Ungranted s (t.startEnrolExchange x) := (h.setBinding _).sendPage _ _ _ _ _

theorem endCheck (result : BindingState) : Ungranted s (t.endCheck result) := by
  refine ite ?gate (raise ?gate _)
  refine ite (setBinding ?decided _) ?decided
  refine ite (exitDecision ?fired) ?fired
  exact ite (h.setBinding _) (fire (h.setBinding _) _)

theorem failExchange : Ungranted s t.failExchange := by
  unfold State.failExchange
  split
  · exact h
  · exact ((h.setBinding _).endCheck _).ite (h.setBinding _)
  · exact ((h.setBinding _).reply _ _).ite (h.setBinding _)

theorem acknowledged : Ungranted s t.acknowledged := by
  unfold State.acknowledged
  split
  · exact h.sendPage _ _ _ _ _
  · exact h.setBinding _
  · exact h.sendPage _ _ _ _ _
  · exact h.setBinding _
  · exact h

theorem pageTaken (payload : Word16) : Ungranted s (t.pageTaken payload) := by
  unfold State.pageTaken
  split
  · exact (h.setBinding _).ite (h.endCheck _)
  · exact h.setBinding _
  · exact (h.endCheck _).ite (h.endCheck _)
  · unfold State.enrolTaken
    split
    · exact h.same rfl rfl
    · exact h
  · exact h

theorem receivePage (p : TetherPage) : Ungranted s (t.receivePage p) := by
  unfold State.receivePage
  split
  · exact (h.sendAck _ _).ite h
  · exact h.acknowledged.ite h.failExchange
  · exact (h.sendAck _ _).ite ((((h.setBinding _).sendAck _ _).pageTaken _).ite h.failExchange)
  · exact h

theorem pageArrives (bytes : List Byte) : Ungranted s (t.pageArrives bytes) := by
  unfold State.pageArrives
  split
  · exact h
  · exact h.failExchange.ite h
  · exact h.receivePage _

theorem enrolClosed (digest : Word16) : Ungranted s (t.enrolClosed digest) := by
  refine reply (ite ?gate (raise ?gate _)) _ _
  exact ((h.setBinding _).exitIfCleared t .unbound).setBinding _

/-! #### The Credential Engine (R58 to R69) -/

theorem restartBackoff : Ungranted s t.restartBackoff := h.forEach (fun i _ h => h.ite (h.setOpenAt i _)) _

theorem verdictReached (a : Attempt) : Ungranted s (t.verdictReached a) := (h.ite h.endAuthority).startJob _ _

theorem applyUnlock (i : SlotId) (u : Unwrap) (x : Unlock) : Ungranted s (t.applyUnlock i u x) := by
  have opened : Ungranted s ((t.setLocks x.range x.dirs false).ungate x.range) := h.same rfl rfl
  unfold State.applyUnlock
  dsimp only
  split
  · exact opened.modKey _ _
  · split
    · exact opened.modKey _ _
    · exact opened

theorem applyUnlockSet (i : SlotId) (u : Unwrap) (l : List Unlock) : Ungranted s (State.applyUnlockSet i u l t).1 := by
  induction l generalizing t with
  | nil => exact h
  | cons x l ih =>
    unfold State.applyUnlockSet
    dsimp only
    split
    · exact ih h
    · exact ih (h.applyUnlock i u x)

theorem settledFailed (a : Attempt) : Ungranted s (t.settledFailed a) := by
  have handed := (h.setOpenAt a.slot (a.settledAt + t.closedPeriodOf a.slot)).handOverG
  exact (handed.raise _).ite handed

theorem credSetClosed (j : CredSetJob) : Ungranted s (t.credSetClosed j) :=
  (((h.setOpenAt _ _).forEach (f := fun r s => s.restage r) (fun r _ h => h.restage r) _).renewUnwrap _ _).reply _ _

theorem credPolicyClosed (old : State) (i : SlotId) : Ungranted s (t.credPolicyClosed old i) := ((h.raise _).ite h).reply _ _

theorem credStateClosed (i : SlotId) (a : CredAction) : Ungranted s (t.credStateClosed i a) := by
  have opened := (h.setOpenAt i t.clock).ite (c := a = .reopen) h
  exact ((opened.raise _).ite opened).reply _ _

/-! #### RANGE-COMMIT (R18 to R22) -/

theorem endDrainWait : Ungranted s t.endDrainWait := by
  unfold State.endDrainWait
  split
  · exact (h.startJob _ _).ite h
  · exact h

theorem switch (old : State) (c : Commit) : Ungranted s (t.switch old c) := by
  have ranges : Ungranted s (t.switchRanges old c) := h.aside (congrArg transferFrame (switchRanges_frame t old c))
  have held := ranges.aside (aside_held (t.switchRanges old c) c.held).frame
  rw [switch_eq]
  exact ((held.forEach (f := fun r s => s.restage r) (fun r _ h => h.restage r) allRanges).raise _).reply _ _

/-! #### The executor's groups and a store that has failed (R81, R85, R129, R166) -/

theorem refuseJob : Ungranted s t.refuseJob := by
  unfold State.refuseJob
  split
  · exact h.endCommit _ _
  · exact (h.setBinding _).reply _ _
  · exact h.reply _ _

theorem advanceExecutor : Ungranted s t.advanceExecutor := by
  have prepared : Ungranted s t.prepareJob := h.same (by rw [prepareJob_eq]) (by rw [prepareJob_eq])
  have sent : Ungranted s { t.prepareJob with executor := { t.prepareJob.executor with stage := .submitted } } := prepared.same rfl rfl
  exact h.ite (h.refuseJob.ite (h.ite ((h.reply _ _).ite (sent.submit _))))

theorem refuseWipe : Ungranted s t.refuseWipe := by
  unfold State.refuseWipe
  split
  · exact h.reply _ _
  · exact h

theorem wipeFailed : Ungranted s t.wipeFailed := h.same rfl rfl
theorem stopExchange : Ungranted s t.stopExchange := h.setBinding _

theorem groupFailed (g : Group) : Ungranted s (t.groupFailed g) := by
  unfold State.groupFailed
  split
  · exact h.refuseJob.ite h
  · exact h.wipeFailed.refuseWipe.ite h.wipeFailed
  · exact h

theorem refuseWaiting : Ungranted s t.refuseWaiting := by
  unfold State.refuseWaiting
  split
  · split
    · exact h.refuseJob
    · exact h.refuseJob
    · exact h
  · exact h

/-! #### The Power Unit (R139 to R155) -/

theorem presentShadow (x : ShadowState) : Ungranted s (t.presentShadow x) := by
  have on : Ungranted s { t with shadow := x } := h.same rfl rfl
  exact (on.ite (on.modKey _ _)).raise _

theorem removeShadow : Ungranted s t.removeShadow := by
  have off : Ungranted s { t with shadow := .off } := h.same rfl rfl
  exact ((off.modKey .shadow KeyEntry.drain).raise _).ite h

theorem chargeClosed (lockedOut : Bool) : Ungranted s (t.chargeClosed lockedOut) := by
  have charged := (h.withPower { t.power with attemptCharged := true }).raise .attemptCharged
  exact ((charged.raise _).ite charged).handOverG.withPower _

theorem restoreMarks : Ungranted s t.restoreMarks := by
  have items := h.forEach (f := fun i s => s.markTarget i.target) (fun i _ h => h.markTarget i.target)
    (t.plan.items.filter (fun i => i.step ≠ .done))
  exact (items.markDefined.abortOwner .shadow .erase).ite items

theorem restoreLockdown : Ungranted s t.restoreLockdown := (h.setLockdown _).enterLockdown.ite h
theorem restoreKeys : Ungranted s t.restoreKeys := h.forEach (fun r _ h => (h.loadFromRoot r).ite h) _

theorem restoreBay : Ungranted s t.restoreBay := by
  have noted : Ungranted s ((t.raise .bayChanged).latchOpen .open) := h.same rfl rfl
  exact (noted.fire _).ite h

theorem restoreStage : Ungranted s t.restoreStage := by
  have locks := h.forEach (f := fun r s => s.closeRange r) (fun r _ h => h.closeRange r) allRanges
  have ended {t : State} (h : Ungranted s t) : Ungranted s ({ t with power := { t.power with stage := .ended } } : State) :=
    h.withPower _
  have rebuilt := locks.restoreLockdown.restoreMarks.restoreKeys.restartBackoff.restoreBay
  exact (ended rebuilt).carryOutHeld.exitDecision

theorem wakeGate : Ungranted s t.wakeGate := ((h.setBinding _).startCheck _).ite (h.setBinding _)
theorem wakeShadow : Ungranted s t.wakeShadow := (h.presentShadow _).ite h

/-! #### The close of a group (R77) -/

theorem shadowConfigClosed (old : State) (enabled : Option Bool) (size : Option Nat) :
    Ungranted s (t.shadowConfigClosed old enabled size) := by
  have removed := h.removeShadow.ite (c := enabled = some false) h
  exact ((removed.raise _).ite removed).reply _ _

theorem triggerSetClosed (limit : Option Nat) : Ungranted s (t.triggerSetClosed limit) := by
  unfold State.triggerSetClosed
  refine exitDecision (reply (ite (h.same ?_ ?_) h) _ _) <;> rfl

theorem planClosed : Ungranted s t.planClosed := by
  unfold State.planClosed
  split
  · exact h.reply _ _
  · exact h

theorem clearItem : Ungranted s t.clearItem := h.setWipe _
theorem trimClosed (r : RangeId) : Ungranted s (t.trimClosed r) := (h.restage r).setWipe _
theorem forgetKey (r : RangeId) : Ungranted s (t.forgetKey r) := h.same rfl rfl

theorem keyStepClosed (o : Owner) (key : Key) : Ungranted s (t.keyStepClosed o key) := by
  have emptied : Ungranted s (t.clearItem.emptyKeyOf o) := h.clearItem.modKey o _
  have kept := fun w => emptied.setWipe w
  cases o with
  | range r => exact (((kept _).modRange r _).restage r).forgetKey r
  | shadow => exact kept _

theorem itemDone (o : Owner) : Ungranted s (t.itemDone o) := by
  have cleared := h.clearItem
  unfold State.itemDone
  refine h.ite (cleared.ite ?_)
  split
  · exact cleared.ite ((cleared.modRange _ _).ite ((cleared.modRange _ _).loadFromRoot _))
  · exact (cleared.modKey _ _).ite cleared

theorem discardAttempt : Ungranted s t.discardAttempt := by
  unfold State.discardAttempt
  split
  · have stopped : Ungranted s { t with derivations := t.derivations.filter (fun d => d ≠ .executor) } := h.same rfl rfl
    exact h.ite (stopped.reply _ _)
  · exact h

theorem factoryTable (key : Key) : Ungranted s (t.factoryTable key) := h.same rfl rfl
theorem factoryBinding : Ungranted s t.factoryBinding := (h.setBinding _).ite ((h.setBinding _).raise _)
theorem factoryLockdown : Ungranted s t.factoryLockdown := ((h.setLockdown _).raise _).ite h
theorem factoryWipe : Ungranted s t.factoryWipe := h.clearItem.setWipe _

/-- The blocks at a full wipe's final commit, but for a restart (R134). -/
theorem factory (key : Key) : Ungranted s
    ((((t.revokeAuthority.factoryTable key).factoryBinding.factoryLockdown.factoryWipe.raise .wipeComplete).raise
      .mediaViewChanged).discardAttempt) := by
  have lockdown := h.revokeAuthority.factoryTable key |>.factoryBinding.factoryLockdown
  exact ((lockdown.factoryWipe.raise _).raise _).discardAttempt

/-! #### What falls in the same event, but for sleep (R129) -/

theorem startEnrolment : Ungranted s t.startEnrolment := (h.draw.setBinding _).startEnrolExchange _

theorem advanceEnrolment : Ungranted s t.advanceEnrolment := by
  unfold State.advanceEnrolment
  split
  · exact h.startEnrolment.ite h
  · exact h

/-! #### Requests (R165, R166) -/

theorem rangeUnlock (x : RangeDirs) : Ungranted s (t.rangeUnlock x) := by
  unfold State.rangeUnlock
  split
  · exact h.reply _ _
  · refine (h.reply _ _).ite ?_
    split
    · unfold State.unlockBy
      split
      · exact h.reply _ _
      · exact (h.applyUnlock _ _ _).reply _ _
    · exact h.reply _ _

theorem rangeLock (x : RangeDirs) : Ungranted s (t.rangeLock x) := by
  unfold State.rangeLock
  split
  · exact h.reply _ _
  · exact (h.reply _ _).ite ((h.reply _ _).ite (((h.setLocks _ _ _).drainIfClosed _).reply _ _))

theorem rangeStage (x : StageArgs) : Ungranted s (t.rangeStage x) := by
  unfold State.rangeStage
  split
  · refine (h.reply _ _).ite ((h.reply _ _).ite (reply (h.same ?_ ?_) _ _)) <;> rfl
  · exact h.reply _ _

theorem rangeDiscard (x : Unit) : Ungranted s (t.rangeDiscard x) :=
  (h.forEach (f := fun r s => s.restage r) (fun r _ h => h.restage r) allRanges).reply _ _

theorem rangeCommit (x : Unit) : Ungranted s (t.rangeCommit x) := by
  unfold State.rangeCommit
  split
  · exact h.reply _ _
  · have started : Ungranted s t.startCommit := h.same (by rw [startCommit_frame]) (by rw [startCommit_frame])
    exact started.ite (h.reply _ _)

theorem rangeRead (n : Nat) : Ungranted s (t.rangeRead n) := by
  unfold State.rangeRead
  split <;> exact h.reply _ _

theorem eventsEnable (codes : List Nat) : Ungranted s (t.eventsEnable codes) := by
  unfold State.eventsEnable
  split
  · exact h.reply _ _
  · refine reply (h.same ?_ ?_) _ _ <;> rfl

theorem eventsAck (codes : List Nat) : Ungranted s (t.eventsAck codes) := by
  unfold State.eventsAck
  split
  · exact h.reply _ _
  · refine reply (h.same ?_ ?_) _ _ <;> rfl

theorem authenticate (x : AuthArgs) : Ungranted s (t.authenticate x) := by
  unfold State.authenticate
  split
  · split
    · split
      · exact h.reply _ _
      · exact h.startJob _ _
    · exact h.reply _ _
  · exact h.reply _ _

theorem authorityEnd (x : Unit) : Ungranted s (t.authorityEnd x) := (h.endAuthority.reply _ _).ite (h.reply _ _)

theorem credSet (x : CredSetArgs) : Ungranted s (t.credSet x) := by
  unfold State.credSet
  split
  · exact h.reply _ _
  · refine (h.reply _ _).ite ((h.reply _ _).ite ((h.reply _ _).ite ((h.reply _ _).ite ?_)))
    exact h.same rfl rfl

theorem credPolicy (x : CredPolicyArgs) : Ungranted s (t.credPolicy x) := by
  unfold State.credPolicy
  split
  · exact h.reply _ _
  · exact h.startJob _ _

theorem credStateOn (i : SlotId) (a : CredAction) : Ungranted s (t.credStateOn i a) := by
  unfold State.credStateOn
  split
  · exact h.reply _ _
  · exact (((h.setOpenAt i _).ite h).reply _ _).ite (h.startJob _ _)

theorem credStateChange (a : CredAction) (x : CredStateArgs) : Ungranted s (t.credStateChange a x) := by
  unfold State.credStateChange
  refine (h.reply _ _).ite ?_
  split
  · exact h.reply _ _
  · exact (h.reply _ _).ite (h.credStateOn _ a)

theorem shadowConfig (x : ShadowArgs) : Ungranted s (t.shadowConfig x) := (h.reply _ _).ite (h.startJob _ _)

theorem shadowOpen (x : LoadArgs) : Ungranted s (t.shadowOpen x) := by
  have opened : Ungranted s t.openShadow := by
    unfold State.openShadow
    split
    · exact h.presentShadow _
    · exact h.same rfl rfl
    · exact h
  exact (h.reply _ _).ite ((h.reply _ _).ite (opened.reply _ _))

theorem shadowClose (x : LoadArgs) : Ungranted s (t.shadowClose x) := by
  refine (h.reply _ _).ite (reply (h.same ?_ ?_) _ _) <;> rfl

theorem shadowDone (x : Unit) : Ungranted s (t.shadowDone x) := (h.removeShadow.reply _ _).ite (h.reply _ _)
theorem bindCheck (x : Unit) : Ungranted s (t.bindCheck x) := (h.reply _ _).ite ((h.startCheck _).reply _ _)

theorem triggerSet (x : TriggerArgs) : Ungranted s (t.triggerSet x) := by
  unfold State.triggerSet
  refine (h.reply _ _).ite ?_
  split
  · exact h.reply _ _
  · exact h.startJob _ _

theorem lockdownClear (x : Unit) : Ungranted s (t.lockdownClear x) := (h.reply _ _).ite ((h.reply _ _).ite (h.leave.startJob _ _))
theorem bindEnroll (x : Option Nat) : Ungranted s (t.bindEnroll x) := h.startJob _ _
theorem wipeTokenSet (x : List Byte) : Ungranted s (t.wipeTokenSet x) := h.startJob _ _
theorem wipeTokenClear (x : Unit) : Ungranted s (t.wipeTokenClear x) := h.startJob _ _

theorem takeWipe (x : WipeArgs) (targets : List Owner) : Ungranted s (t.takeWipe x targets) := by
  have accepted := (h.startJob .wipe .submitted).acceptWipe targets x.overwrite (x.scope = .all) true
  exact accepted.ite (accepted.reply _ _)

theorem wipeRequest (x : WipeArgs) : Ungranted s (t.wipeRequest x) := by
  unfold State.wipeRequest
  split
  · exact h.reply _ _
  · refine (h.reply _ _).ite (ite ?failsafe ?ready)
    case failsafe =>
      unfold State.wipeInFailsafe
      split
      · refine (h.reply _ _).ite (ite (takeWipe (h.same ?_ ?_) _ _) (h.reply _ _)) <;> rfl
      · exact h.reply _ _
    case ready =>
      unfold State.wipeInReady
      split
      · exact (h.takeWipe _ _).ite (h.startJob _ _)
      · exact (h.takeWipe _ _).ite (h.reply _ _)

/-! #### Admission and the waits (R20, R25, R71, R99, R108, R110) -/

theorem takeAdmit (tag direction : Byte) (a n : Nat) : Ungranted s (t.takeAdmit tag direction a n) := by
  unfold State.takeAdmit State.admitTransfer
  split
  · split
    · exact h.say _
    · refine (h.say _).ite ((h.say _).ite ?_)
      dsimp only
      split
      · exact h.say _
      · exact h.same (by rw [admitSegments_eq]) (by rw [admitSegments_eq])
  · exact h.say _

theorem drainLimitExpires : Ungranted s t.drainLimitExpires := by
  unfold State.drainLimitExpires
  split
  · exact ((h.reachTime _).endCommit _ _).ite h
  · exact h

theorem executorDerived : Ungranted s t.executorDerived := by
  unfold State.executorDerived
  split
  · split
    · exact h.verdictReached _
    · exact h
  · exact (h.startJob _ _).ite h
  · exact h

theorem wipeDerived : Ungranted s t.wipeDerived := by
  unfold State.wipeDerived
  split
  · exact h.setWipe _
  · exact h

theorem derivationEnds : Ungranted s t.derivationEnds := by
  unfold State.derivationEnds
  split
  · exact h
  · refine executorDerived (h.same ?_ ?_) <;> rfl
  · refine wipeDerived (h.same ?_ ?_) <;> rfl

theorem authorityExpires : Ungranted s t.authorityExpires := by
  unfold State.authorityExpires
  split
  · exact (h.reachTime _).revokeAuthority
  · exact h

theorem stabilityExpires : Ungranted s t.stabilityExpires := by
  unfold State.stabilityExpires
  split
  · exact (h.reachTime _).takeBayChange _
  · exact h

theorem idleExpires : Ungranted s t.idleExpires := by
  unfold State.idleExpires
  split
  · refine fire (h.same ?_ ?_) _ <;> rfl
  · exact h
  · exact h

theorem abandonCheck : Ungranted s t.abandonCheck := by
  unfold State.abandonCheck
  split <;> exact h.setBinding _

theorem takeAssertion : Ungranted s t.takeAssertion := (h.withPower _).ite h

theorem take (kind : Nat) (tag : Byte) : Ungranted s (t.take kind tag) := h.same (by rw [take_eq]) (by rw [take_eq])

theorem cancel (tag : Byte) : Ungranted s (t.cancel tag) := h.framed (frame_cancel t tag)

theorem badFrame (record : List Byte) : Ungranted s (t.badFrame record) := by
  unfold State.badFrame
  split
  · exact h.say _
  · exact h

theorem unknownKind (record : List Byte) : Ungranted s (t.unknownKind record) := by
  unfold State.unknownKind
  split
  · exact h
  · exact h.ite (h.say _)

theorem status (tag : Byte) (body : Body Unit) : Ungranted s (t.status tag body) := by
  cases body with
  | misfit => exact h.say _
  | fits a => exact h.same rfl rfl

theorem recheckExpires : Ungranted s t.recheckExpires := by
  unfold State.recheckExpires
  split
  · exact (h.reachTime _).startCheck _
  · exact h

end Ungranted

/-! #### The grant, and what changes the part state (R60, R71, R85, R140 to R147, R156) -/

theorem onlyInReady_of_absent {s : State} (h : s.authority = none) : s.authorityOnlyInReady := by
  unfold State.authorityOnlyInReady; rw [h]; exact nofun

theorem onlyInReady_of_ready {s : State} (h : s.power.part = .ready) : s.authorityOnlyInReady := fun _ => h

theorem beginRestart_absent (s : State) : s.beginRestart.authority = none := by
  have stopped {t : State} (gone : t.authority = none) : t.abortAll.stopOverwrite.authority = none :=
    ((Ungranted.refl t).framed (frame_abortAll t)).stopOverwrite.absent gone
  unfold State.beginRestart
  exact stopped rfl

theorem enterFailsafe_absent (s : State) : s.enterFailsafe.authority = none := by
  have closed := (Ungranted.refl s.endAuthority).relock.forEach (f := fun o s => s.drainKey o) (fun o _ h => h.modKey o _) allOwners
  have refused := closed.stopOverwrite.wipeFailed.stopExchange.refuseWaiting.absent rfl
  unfold State.enterFailsafe
  dsimp only
  exact refused

theorem readyStage_part (s : State) : s.readyStage.power.part = .ready := by
  have ready {t : State} (ready : t.power.part = .ready) : (if t.power.slp then t.takeAssertion else t).power.part = .ready :=
    (((Ungranted.refl t).takeAssertion).ite (Ungranted.refl t)).part.trans ready
  unfold State.readyStage
  exact ready rfl

theorem startUp_absent (s : State) (cause : StartCause) (found : ScanFindings) : (s.startUp cause found).authority = none := by
  obtain ⟨part, stage, working, pending, writing, starts⟩ := startUp_startsAs s cause found
  rw [starts.state]
  rfl

theorem enterSleep_onlyInReady (s : State) : s.enterSleep.authorityOnlyInReady := onlyInReady_of_absent rfl

theorem resumeOverwrite_onlyInReady {s : State} (ready : s.power.part = .ready) : s.resumeOverwrite.authorityOnlyInReady :=
  onlyInReady_of_ready ((Ungranted.refl s).resumeOverwrite.part.trans ready)

theorem leaveSleepEntry_onlyInReady (s : State) : s.leaveSleepEntry.authorityOnlyInReady := resumeOverwrite_onlyInReady rfl
theorem wake_onlyInReady (s : State) : s.wake.authorityOnlyInReady := resumeOverwrite_onlyInReady rfl

namespace State.authorityOnlyInReady

variable {s : State} (h : s.authorityOnlyInReady)
include h

theorem ungranted {t : State} (k : Ungranted s t) : t.authorityOnlyInReady := k.onlyInReady h

theorem ite {c : Prop} [Decidable c] {t : State} (k : t.authorityOnlyInReady) : (if c then s else t).authorityOnlyInReady := by
  split <;> assumption

theorem forEach {α : Type} {f : α → State → State} (step : ∀ a (s : State), s.authorityOnlyInReady → (f a s).authorityOnlyInReady)
    (l : List α) : (Machine.forEach l f s).authorityOnlyInReady := by
  induction l generalizing s with
  | nil => exact h
  | cons a l ih => exact ih (step a s h)

theorem grantAuthority (i : SlotId) (u : Unwrap) : (s.grantAuthority i u).authorityOnlyInReady := by
  unfold State.grantAuthority
  split
  · next ready => exact onlyInReady_of_ready ready
  · exact h

theorem successClosed (old : State) (a : Attempt) : (s.successClosed old a).authorityOnlyInReady := by
  have opened := (Ungranted.refl s).setOpenAt a.slot a.settledAt
  unfold State.successClosed
  dsimp only
  split
  · have unlocked := opened.applyUnlockSet a.slot (s.derive a.slot a.secret) a.unlock
    exact ((h.ungranted unlocked).grantAuthority _ _).ungranted (((Ungranted.refl _).reply _ _).exitIfCleared _ _)
  · exact h.ungranted ((opened.reply _ _).exitIfCleared _ _)

theorem attemptClosed (old : State) (a : Attempt) : (s.attemptClosed old a).authorityOnlyInReady := by
  have stays := Ungranted.refl s
  unfold State.attemptClosed
  split
  · split
    · exact h.ungranted (stays.startJob _ _)
    · exact h.ungranted (stays.same rfl rfl)
  · exact h
  · exact h.successClosed old a
  · exact h.ungranted ((stays.settledFailed a).reply _ _)
  · exact h.ungranted (((stays.settledFailed a).raise _).reply _ _)

theorem requestClosed (old : State) : (s.requestClosed old).authorityOnlyInReady := by
  have stays := Ungranted.refl s
  unfold State.requestClosed
  split
  · exact h
  · exact h.attemptClosed old _
  · exact h.ungranted (stays.switch old _)
  · exact h.ungranted (stays.credSetClosed _)
  · exact h.ungranted (stays.credPolicyClosed old _)
  · exact h.ungranted (stays.credStateClosed _ _)
  · exact h.ungranted (stays.shadowConfigClosed old _ _)
  · exact h.ungranted (stays.triggerSetClosed _)
  · exact h.ungranted (stays.reply _ _)
  · exact h.ungranted (stays.reply _ _)
  · exact h.ungranted (stays.handOverG.reply _ _)
  · exact h
  · exact h.ungranted (stays.enrolClosed _)
  · exact h

/-- A full wipe's final commit ends authority, also where the part restarts (R134, R86). -/
theorem finalClosed (key : Key) (found : ScanFindings) : (s.finalClosed key found).authorityOnlyInReady := by
  refine ite ?restarted (h.ungranted ((Ungranted.refl s).factory key))
  unfold State.restartRepaired
  dsimp only
  split
  · exact onlyInReady_of_absent (startUp_absent _ _ found)
  · exact onlyInReady_of_absent (beginRestart_absent _)

theorem closeEffect (old : State) (found : ScanFindings) (e : Effect) : (s.closeEffect old found e).authorityOnlyInReady := by
  have stays := Ungranted.refl s
  cases e with
  | request => exact h.requestClosed old
  | chargeStage i lockedOut => exact h.ungranted (stays.chargeClosed lockedOut)
  | lockdownRecord => exact h
  | planAccepted => exact h.ungranted stays.planClosed
  | trimmed r => exact h.ungranted (stays.trimClosed r)
  | keyStep o key => exact h.ungranted (stays.keyStepClosed o key)
  | cursor => exact h.ungranted (stays.raise _)
  | itemDone o => exact h.ungranted (stays.itemDone o)
  | planEnded o => exact h.ite (h.ungranted (stays.raise _))
  | finalCommit key => exact h.finalClosed key found

theorem closeGroup (w : Writing) (found : ScanFindings) : (s.closeGroup w found).authorityOnlyInReady := by
  have closed : Ungranted s { s with store := s.store.close w } := (Ungranted.refl s).same rfl rfl
  have effects {t : State} (h : t.authorityOnlyInReady) :
      (Machine.forEach w.group.effects (fun e t => t.closeEffect s found e) t).authorityOnlyInReady :=
    h.forEach (f := fun e t => t.closeEffect s found e) (fun e _ h => h.closeEffect s found e) _
  have compared {t : State} (h : t.authorityOnlyInReady) : t.compareRecord.authorityOnlyInReady :=
    h.ite (h.ungranted ((Ungranted.refl t).submit _))
  refine ite (compared (effects ?stepped)) (effects ?stepped)
  exact h.ungranted ((closed.raise _).ite closed)

/-- A failed group ends authority, unless the part is about to restart, where nothing grants any (R81, R85, R156). -/
theorem storeFailed (g : Group) (cells : List Cell) : (s.storeFailed g cells).authorityOnlyInReady := by
  have failed (x : Store) : Ungranted s ({ s with store := x } : State) := (Ungranted.refl s).same rfl rfl
  have raised {t : State} (h : t.authorityOnlyInReady) : (t.raise .storeFault).authorityOnlyInReady :=
    h.ungranted ((Ungranted.refl t).raise _)
  unfold State.storeFailed
  dsimp only
  have entered (u : State) := onlyInReady_of_absent (enterFailsafe_absent u)
  refine forEach (raised (ite (h.ungranted ((failed _).groupFailed g)) (entered _))) (fun g s h => ?_) _
  exact h.ungranted ((Ungranted.refl s).groupFailed g)

theorem copyWriteDone (passed : Bool) : (s.copyWriteDone passed).authorityOnlyInReady := by
  have written (x : Store) : ({ s with store := x } : State).authorityOnlyInReady := h.ungranted ((Ungranted.refl s).same rfl rfl)
  unfold State.copyWriteDone
  split
  · exact written _
  · exact (written _).storeFailed _ _

/-! #### Sleep and wake (R139 to R147) -/

theorem applySleepDrop : s.applySleepDrop.authorityOnlyInReady :=
  h.ungranted (((Ungranted.refl s).noteRelocked fun h => h.sleepDropAll).withPower _)

/-- The part goes ASLEEP from SLEEP_ENTERING, where no authority is held (R71, R143). -/
theorem goAsleep (due : s.sleepReadyDue) : s.goAsleep.authorityOnlyInReady := by
  have entering : s.power.part = .sleepEntering := by simp_all [State.sleepReadyDue]
  have gone : s.authority = none := by
    cases holder : s.authority with
    | none => rfl
    | some a => cases entering.symm.trans (h (by rw [holder]; rfl))
  have abandoned {t : State} (gone : t.authority = none) : t.abandonCheck.authority = none := (Ungranted.refl t).abandonCheck.absent gone
  unfold State.goAsleep
  exact onlyInReady_of_absent (abandoned gone)

theorem advanceSleep : s.advanceSleep.authorityOnlyInReady := by
  unfold State.advanceSleep
  dsimp only
  have entered : (if s.sleepEntryDue then s.enterSleep else s).authorityOnlyInReady := (enterSleep_onlyInReady s).ite h
  generalize (if s.sleepEntryDue then s.enterSleep else s) = entering at entered
  have dropped : (if entering.sleepDropDue then entering.applySleepDrop else entering).authorityOnlyInReady :=
    entered.applySleepDrop.ite entered
  generalize (if entering.sleepDropDue then entering.applySleepDrop else entering) = dropping at dropped
  split
  · next due => exact dropped.goAsleep due
  · exact dropped

theorem takeRelease : s.takeRelease.authorityOnlyInReady := by
  unfold State.takeRelease
  split
  · exact h.ungranted ((Ungranted.refl s).withPower _)
  · exact leaveSleepEntry_onlyInReady s
  · exact wake_onlyInReady s
  · exact h
  · exact h

/-! #### What falls in the same event -/

theorem settle : (settle s).authorityOnlyInReady := by
  have worked : Ungranted s s.endDrainWait.advanceEnrolment.advanceExecutor.advanceWipe.grantLanes :=
    (((Ungranted.refl s).endDrainWait.advanceEnrolment.advanceExecutor).steady (steady_advanceWipe _)).steady (steady_grantLanes _)
  have tended {t : State} (h : t.authorityOnlyInReady) :
      (settleAlert t.advanceWipe.tendIdle.tendRecheck.tendAuthority).authorityOnlyInReady :=
    h.ungranted (((Ungranted.refl t).steady (steady_advanceWipe t)).steady (steady_tend _))
  exact tended (h.ungranted worked).advanceSleep

theorem whilePowered {f : State → State} (step : (f s).authorityOnlyInReady) : (s.whilePowered f).authorityOnlyInReady := step.settle.ite h

/-- A command that brings up no authority and leaves the part state, but for what follows it in the same event. -/
theorem powered {f : State → State} (step : Ungranted s (f s)) : (s.whilePowered f).authorityOnlyInReady :=
  h.whilePowered (h.ungranted step)

theorem atOnce {f : State → State} (step : Ungranted s (f s)) : (s.atOnce f).authorityOnlyInReady := (h.ungranted step).ite h

/-! #### Requests (R165) -/

/-- A request keeps authority absent outside READY when its owner's checks and effects do. -/
theorem request {α : Type} (kind : Nat) (tag : Byte) (body : Body α) {run : α → State → State}
    (step : ∀ (a : α) {s : State}, s.authorityOnlyInReady → (run a s).authorityOnlyInReady) :
    (s.request kind tag body run).authorityOnlyInReady := by
  have said (m : Sent) : (s.say m).authorityOnlyInReady := h.ungranted ((Ungranted.refl s).say m)
  have taken : (s.take kind tag).authorityOnlyInReady := h.ungranted ((Ungranted.refl s).take kind tag)
  unfold State.request
  split
  · exact said _
  · refine (said _).ite ?_
    split
    · exact taken.ungranted ((Ungranted.refl _).reply _ _)
    · exact step _ taken

theorem ownRequest {α : Type} {kind : Nat} {tag : Byte} {body : Body α} {run : α → State → State}
    (step : ∀ (a : α) {s t : State}, Ungranted s t → Ungranted s (run a t)) :
    (s.whilePowered fun s => s.request kind tag body run).authorityOnlyInReady :=
  h.whilePowered (h.request _ _ _ fun a s h => h.ungranted (step a (Ungranted.refl s)))

theorem adminRequest {α : Type} {kind : Nat} {tag : Byte} {body : Body α} {run : α → State → State}
    (step : ∀ (a : α) {s t : State}, Ungranted s t → Ungranted s (run a t)) :
    (s.whilePowered fun s => s.request kind tag body (Machine.adminOnly run)).authorityOnlyInReady :=
  h.ownRequest fun a _ _ h => (step a h).ite (h.reply _ _)

/-- RESET-PART ends authority before the part leaves READY (R156). -/
theorem resetRequest {kind : Nat} {tag : Byte} {body : Body Unit} :
    (s.whilePowered fun s => s.request kind tag body (Machine.adminOnly fun u s => s.resetPart u)).authorityOnlyInReady :=
  h.whilePowered (h.request _ _ _ fun _ s h =>
    (onlyInReady_of_absent (beginRestart_absent _)).ite (h.ungranted ((Ungranted.refl s).reply _ _)))

end State.authorityOnlyInReady

/-- Every command keeps authority absent outside READY (R71). -/
theorem exec_authorityOnlyInReady (c : Instr) {s : State} (h : s.authorityOnlyInReady) :
    ∃ t, exec c s = .next t ∧ t.authorityOnlyInReady := by
  have stays := Ungranted.refl s
  have started (cause : StartCause) (found : ScanFindings) : (s.startUp cause found).authorityOnlyInReady :=
    onlyInReady_of_absent (startUp_absent s cause found)
  cases c with
  | powerOn scan => exact ⟨_, rfl, h.ite (started _ _).settle⟩
  | powerLoss midWrite => exact ⟨_, rfl, (onlyInReady_of_absent rfl).ite h⟩
  | restore => exact ⟨_, rfl, h.whilePowered ((onlyInReady_of_ready (readyStage_part _)).ite h)⟩
  | partRestart scan => exact ⟨_, rfl, h.whilePowered ((started _ _).ite h)⟩
  | admitRequest tag direction start countLessOne => exact ⟨_, rfl, h.powered (stays.takeAdmit _ _ _ _)⟩
  | cancel tag => exact ⟨_, rfl, h.powered (stays.cancel tag)⟩
  | frontReset => exact ⟨_, rfl, h.whilePowered (onlyInReady_of_absent (by rw [frontReset_eq]))⟩
  | mediaAcknowledge lane event => exact ⟨_, rfl, h.powered (stays.laneReceives lane event)⟩
  | mediaError lane block => exact ⟨_, rfl, h.powered (stays.laneFails lane block)⟩
  | copyWriteDone passed => exact ⟨_, rfl, h.whilePowered (h.copyWriteDone passed)⟩
  | groupClose scan =>
    refine ⟨_, rfl, h.whilePowered ?_⟩
    split
    · exact h.closeGroup _ scan
    · exact h
  | drainWaitEnd => exact ⟨_, rfl, h.powered stays.endDrainWait⟩
  | drainLimitExpiry => exact ⟨_, rfl, h.powered stays.drainLimitExpires⟩
  | derivationComplete => exact ⟨_, rfl, h.powered stays.derivationEnds⟩
  | authorityIdleExpiry => exact ⟨_, rfl, h.powered stays.authorityExpires⟩
  | bayEdge level =>
    have edge : Ungranted s (s.bayEdge level) := stays.same rfl rfl
    exact ⟨_, rfl, (h.ungranted edge).settle.ite (h.ungranted (stays.same rfl rfl))⟩
  | bayStabilityExpiry => exact ⟨_, rfl, h.powered stays.stabilityExpires⟩
  | idleTimerExpiry => exact ⟨_, rfl, h.powered stays.idleExpires⟩
  | recheckTimerExpiry => exact ⟨_, rfl, h.powered stays.recheckExpires⟩
  | tetherPageReceived page => exact ⟨_, rfl, h.powered (stays.pageArrives page.toList)⟩
  | tetherFault => exact ⟨_, rfl, h.powered (stays.failExchange.ite stays)⟩
  | pageTimeout => exact ⟨_, rfl, h.powered ((stays.reachTime _).failExchange.ite stays)⟩
  | roundWaitExpiry => exact ⟨_, rfl, h.powered ((stays.reachTime _).startRound.ite stays)⟩
  | enrolRetryExpiry =>
    refine ⟨_, rfl, h.powered ?_⟩
    split
    · exact ((stays.reachTime _).startEnrolExchange _).ite stays
    · exact stays
  | slpAsserted =>
    have level := stays.withPower { s.power with slp := true }
    exact ⟨_, rfl, h.ite ((h.ungranted level.takeAssertion).settle.ite (h.ungranted level))⟩
  | sleepEntry => exact ⟨_, rfl, h.whilePowered ((enterSleep_onlyInReady s).ite h)⟩
  | sleepDrop => exact ⟨_, rfl, h.whilePowered (h.applySleepDrop.ite h)⟩
  | sleepReady =>
    refine ⟨_, rfl, h.whilePowered ?_⟩
    split
    · next due => exact h.goAsleep due
    · exact h
  | slpReleased =>
    have level := h.ungranted (stays.withPower { s.power with slp := false })
    exact ⟨_, rfl, h.ite (level.takeRelease.settle.ite level)⟩
  | keyStep =>
    refine ⟨_, rfl, h.powered ?_⟩
    split
    · exact (stays.beginItem _).ite stays
    · exact stays
  | overwriteStart => exact ⟨_, rfl, h.powered stays.startOverwrite⟩
  | badFrame record => exact ⟨_, rfl, h.atOnce (stays.badFrame record)⟩
  | unknownKind record => exact ⟨_, rfl, h.atOnce (stays.unknownKind record)⟩
  | status tag body => exact ⟨_, rfl, h.atOnce (stays.status tag body)⟩
  | eventsEnable tag body => exact ⟨_, rfl, h.adminRequest fun a _ _ h => h.eventsEnable a⟩
  | eventsAck tag body => exact ⟨_, rfl, h.adminRequest fun a _ _ h => h.eventsAck a⟩
  | authenticate tag body => exact ⟨_, rfl, h.ownRequest fun a _ _ h => h.authenticate a⟩
  | authorityEnd tag body => exact ⟨_, rfl, h.ownRequest fun a _ _ h => h.authorityEnd a⟩
  | rangeUnlock tag body => exact ⟨_, rfl, h.ownRequest fun a _ _ h => h.rangeUnlock a⟩
  | rangeLock tag body => exact ⟨_, rfl, h.ownRequest fun a _ _ h => h.rangeLock a⟩
  | rangeStage tag body => exact ⟨_, rfl, h.adminRequest fun a _ _ h => h.rangeStage a⟩
  | rangeDiscard tag body => exact ⟨_, rfl, h.adminRequest fun a _ _ h => h.rangeDiscard a⟩
  | rangeCommit tag body => exact ⟨_, rfl, h.adminRequest fun a _ _ h => h.rangeCommit a⟩
  | rangeRead tag body => exact ⟨_, rfl, h.adminRequest fun a _ _ h => h.rangeRead a⟩
  | credSet tag body => exact ⟨_, rfl, h.ownRequest fun a _ _ h => h.credSet a⟩
  | credPolicy tag body => exact ⟨_, rfl, h.adminRequest fun a _ _ h => h.credPolicy a⟩
  | credStateEnable tag body => exact ⟨_, rfl, h.ownRequest fun a _ _ h => h.credStateChange .enable a⟩
  | credStateDisable tag body => exact ⟨_, rfl, h.ownRequest fun a _ _ h => h.credStateChange .disable a⟩
  | credStateReopen tag body => exact ⟨_, rfl, h.ownRequest fun a _ _ h => h.credStateChange .reopen a⟩
  | shadowConfig tag body => exact ⟨_, rfl, h.adminRequest fun a _ _ h => h.shadowConfig a⟩
  | shadowLoadOpen tag body => exact ⟨_, rfl, h.adminRequest fun a _ _ h => h.shadowOpen a⟩
  | shadowLoadClose tag body => exact ⟨_, rfl, h.adminRequest fun a _ _ h => h.shadowClose a⟩
  | shadowDone tag body => exact ⟨_, rfl, h.ownRequest fun a _ _ h => h.shadowDone a⟩
  | bindEnroll tag body => exact ⟨_, rfl, h.adminRequest fun a _ _ h => h.bindEnroll a⟩
  | bindCheck tag body => exact ⟨_, rfl, h.adminRequest fun a _ _ h => h.bindCheck a⟩
  | triggerSet tag body => exact ⟨_, rfl, h.adminRequest fun a _ _ h => h.triggerSet a⟩
  | lockdownClear tag body => exact ⟨_, rfl, h.adminRequest fun a _ _ h => h.lockdownClear a⟩
  | wipeTokenSet tag body => exact ⟨_, rfl, h.adminRequest fun a _ _ h => h.wipeTokenSet a⟩
  | wipeTokenClear tag body => exact ⟨_, rfl, h.adminRequest fun a _ _ h => h.wipeTokenClear a⟩
  | wipe tag body => exact ⟨_, rfl, h.ownRequest fun a _ _ h => h.wipeRequest a⟩
  | resetPart tag body => exact ⟨_, rfl, h.resetRequest⟩

/-- Settles O4: a step is a command on the queue's rest, or a tick, and every command keeps authority absent outside READY. -/
theorem everyStepKeepsAuthorityInReady : Obligations.EveryStepKeepsAuthorityInReady := by
  intro s h t stepped
  unfold step at stepped
  split at stepped
  · cases stepped
    exact h.ungranted ((Ungranted.refl s).same rfl rfl)
  · next c rest _ =>
    have front : ({ s with pending := rest } : State).authorityOnlyInReady := h.ungranted ((Ungranted.refl s).same rfl rfl)
    obtain ⟨u, next, only⟩ := exec_authorityOnlyInReady c front
    cases next.symm.trans stepped
    exact only

end Sys2Proof.Machine

namespace Sys2Proof.Machine

/-! ### The state after reset (R48, R73, R174) -/

theorem reset_key (o : Owner) : State.reset.key o = emptyKey := by
  cases o with
  | range r => exact tab16_get _ r
  | shadow => rfl

/-- Settles O6: the reset state has no transfer, no authority and every key entry EMPTY. -/
theorem resetIsSafe : Obligations.ResetIsSafe :=
  ⟨⟨rfl, onlyInReady_of_absent rfl⟩, rfl, rfl, keysRight_of_empty rfl rfl rfl, reset_key⟩

/-! ### Backoff (R63) -/

theorem closedPeriod_free {p : Policy} {f : Nat} (h : f ≤ p.free) : closedPeriod p f = 0 := if_pos h

/-- Beyond F the period is doubled with each failure, ten times at most, and never above its cap. -/
theorem closedPeriod_beyond {p : Policy} {f : Nat} (h : p.free < f) :
    closedPeriod p f = min (p.base * 100 * 2 ^ min (f - p.free - 1) 10) 3600000 := if_neg (Nat.not_le.2 h)

/-- Settles O46, by the number of failures beyond F: none, one to ten, or more. -/
theorem closedPeriodDoublesToCap : Obligations.ClosedPeriodDoublesToCap := by
  intro p f
  refine ⟨closedPeriod_free, ?_, fun beyond within => ?_, fun past => ?_, ?_⟩
  · rw [closedPeriod_beyond (Nat.lt_succ_self _), show min (p.free + 1 - p.free - 1) 10 = 0 by omega, pow_zero, Nat.mul_one]
  · rw [closedPeriod_beyond beyond, closedPeriod_beyond (beyond.trans (Nat.lt_succ_self f)),
      show min (f - p.free - 1) 10 = f - p.free - 1 by omega, show min (f + 1 - p.free - 1) 10 = f - p.free - 1 + 1 by omega, pow_succ,
      ← Nat.mul_assoc]
    omega
  · rw [closedPeriod_beyond (by omega), closedPeriod_beyond (by omega), show min (f + 1 - p.free - 1) 10 = min (f - p.free - 1) 10 by omega]
  · rcases Nat.lt_or_ge p.free f with beyond | free
    · rw [closedPeriod_beyond beyond]
      exact Nat.min_le_right _ _
    · rw [closedPeriod_free free]
      exact Nat.zero_le _

/-! ### The end of authority (R70 to R72) -/

theorem exec_authorityEnd {s : State} (tag : Byte) (takes : s.takesRequest) :
    exec (.authorityEnd tag (.fits ())) s = .next (settle ((s.take 5 tag).authorityEnd ())) := by
  show Host.Outcome.next (s.whilePowered fun s => s.request 5 tag (.fits ()) State.authorityEnd) = _
  rw [whilePowered_on _ takes.1, request_fits _ _ _ _ _ takes]

theorem take_endAuthority (s : State) (kind : Nat) (tag : Byte) :
    (s.take kind tag).endAuthority = ({ s with authority := none } : State).take kind tag := by
  rw [take_eq, take_eq, restartIdle_trigger s { s with authority := none } rfl rfl]
  rfl

theorem exec_authorityIdleExpiry {s : State} {since : Nat} (powered : s.power.powered = true) (holder : s.authority.isSome = true)
    (timer : s.authTimer = some since) : exec .authorityIdleExpiry s =
      .next (settle ((s.reachTime (since + s.counters.idleLimit * 1000)).endAuthority.raise .authorityEnded)) := by
  have expires : s.authorityExpires = (s.reachTime (since + s.counters.idleLimit * 1000)).revokeAuthority := by
    rw [State.authorityExpires, timer]
  have held : (s.reachTime (since + s.counters.idleLimit * 1000)).authority.isSome = true := holder
  show Host.Outcome.next (s.whilePowered State.authorityExpires) = _
  rw [whilePowered_on _ powered, expires, State.revokeAuthority, if_pos held]

/-- Settles O47: the request and the expiry both end authority; the expiry alone raises an event. -/
theorem authorityEndsOnRequestOrIdle : Obligations.AuthorityEndsOnRequestOrIdle := by
  refine ⟨fun s tag takes => ⟨fun held => ?_, fun gone => ?_⟩, fun s since powered holder timer => ?_⟩
  · rw [exec_authorityEnd tag takes, State.authorityEnd, if_pos (by simpa using held), take_endAuthority, reply_take]
  · rw [exec_authorityEnd tag takes, State.authorityEnd, if_neg (by simp [gone]), reply_take]
  · exact exec_authorityIdleExpiry powered holder timer

end Sys2Proof.Machine

namespace Sys2Proof.Machine

/-! ### The executor's derivations in what follows a change (R59, R129)

Of what falls in the same event as a change only the Wipe Engine adds a derivation, and that is its own. -/

section Derivations

variable (s : State)

@[simp] theorem reply_derivations (code : Code) (payload : Payload) : (s.reply code payload).derivations = s.derivations := by
  unfold State.reply
  split <;> rfl

@[simp] theorem submit_derivations (g : Group) : (s.submit g).derivations = s.derivations := by
  unfold State.submit
  split <;> rfl

@[simp] theorem modKey_derivations (o : Owner) (f : KeyEntry → KeyEntry) : (s.modKey o f).derivations = s.derivations :=
  State.setKey_derivations s o _

@[simp] theorem endCommit_derivations (code : Code) (payload : Payload) : (s.endCommit code payload).derivations = s.derivations := by
  unfold State.endCommit
  split
  · rw [reply_derivations, revertCommit_frame]
  · rfl

theorem advanceExecutor_derivations : s.advanceExecutor.derivations = s.derivations := by
  have refused : s.refuseJob.derivations = s.derivations := by unfold State.refuseJob; split <;> simp
  have prepared : s.prepareJob.derivations = s.derivations := by rw [prepareJob_eq]
  have submitted : s.submitJob.derivations = s.derivations := by simp [State.submitJob, prepared]
  unfold State.advanceExecutor
  split
  · rfl
  · split
    · exact refused
    · split
      · rfl
      · split
        · exact reply_derivations s _ _
        · exact submitted

theorem endDrainWait_derivations : s.endDrainWait.derivations = s.derivations := by
  unfold State.endDrainWait
  split
  · split <;> rfl
  · rfl

theorem advanceEnrolment_derivations : s.advanceEnrolment.derivations = s.derivations := by
  have exchanged (u : State) (x : Word32) : (u.startEnrolExchange x).derivations = u.derivations := rfl
  have started : s.startEnrolment.derivations = s.derivations := exchanged _ _
  unfold State.advanceEnrolment
  split
  · split
    · exact started
    · rfl
  · rfl

/-- The key renewal's derivation is the Wipe Engine's (R134). -/
theorem advanceWipe_executorDerivations : s.advanceWipe.derivations.count .executor = s.derivations.count .executor := by
  have started : (if s.finalDue then s.startFinal else s).derivations.count .executor = s.derivations.count .executor := by
    split
    · simp [State.startFinal]
    · rfl
  have submitted (u : State) (salt : Word32) : (u.submitFinal salt).derivations = u.derivations := by simp [State.submitFinal]
  have planned (u : State) (p : WipePlan) (l : List Record) (e : List Effect) (b : Bool) :
      (u.submitPlan p l e b).derivations = u.derivations := submit_derivations _ _
  have finished (u : State) (o : Owner) : (u.finishOverwrite o).derivations = u.derivations := planned (u.setWipe _) _ _ _ _
  unfold State.advanceWipe
  split
  · rfl
  · dsimp only
    generalize (if s.finalDue then s.startFinal else s) = u at started ⊢
    split
    · split
      · exact started
      · rw [submitted, started]
    · split
      · split
        · rw [finished, started]
        · exact started
      · exact started

theorem grantLanes_derivations : s.grantLanes.derivations = s.derivations := by
  have issued (s : State) (l : LaneId) : (s.issueOne l).derivations = s.derivations := by
    unfold State.issueOne State.issueBlock
    split
    · split
      · split
        · split
          · dsimp only; split <;> rfl
          · rfl
        · rfl
      · rfl
    · rfl
  have overwritten (s : State) (l : LaneId) : (s.issueOverwrite l).derivations = s.derivations := by
    unfold State.issueOverwrite
    split
    · dsimp only; split <;> rfl
    · rfl
  have transfer (s : State) (l : LaneId) (t : Tag) (i : Nat) : (s.grantTransfer l t i).derivations = s.derivations := by
    unfold State.grantTransfer
    split
    · rfl
    · exact forEach_keeps State.derivations _ (fun _ s => issued s l) _ _
  have wipe (s : State) (l : LaneId) : (s.grantWipe l).derivations = s.derivations := by
    unfold State.grantWipe
    split
    · rfl
    · split
      · rfl
      · exact forEach_keeps State.derivations _ (fun _ s => overwritten s l) _ _
  refine forEach_keeps State.derivations _ (fun l s => ?_) _ s
  unfold State.grantLane
  split
  · rfl
  · split
    · split
      · exact wipe s l
      · exact transfer s l _ _
    · split
      · exact wipe s l
      · rfl

theorem advanceSleep_derivations : s.advanceSleep.derivations = s.derivations := by
  have dropped (s : State) : s.applySleepDrop.derivations = s.derivations := by
    have all : s.sleepDropAll.derivations = s.derivations := forEach_keeps State.derivations _ (fun r s => by
      unfold State.dropRange
      split
      · dsimp only; split
        · exact modKey_derivations _ _ _
        · rfl
      · rfl) _ _
    have noted : (noteRelocked State.sleepDropAll s).derivations = s.derivations := by
      unfold noteRelocked
      dsimp only
      generalize s.sleepDropAll = t at all
      split <;> exact all
    exact noted
  have asleep (s : State) : s.goAsleep.derivations = s.derivations := by
    unfold State.goAsleep State.abandonCheck
    dsimp only
    split <;> rfl
  have due (b : Bool) (f : State → State) (step : ∀ s : State, (f s).derivations = s.derivations) (s : State) :
      (if b then f s else s).derivations = s.derivations := by
    split
    · exact step s
    · rfl
  unfold State.advanceSleep
  dsimp only
  rw [due _ _ asleep, due _ _ dropped, due _ State.enterSleep fun _ => rfl]

theorem tend_derivations : (settleAlert s.tendIdle.tendRecheck.tendAuthority).derivations = s.derivations := by
  have idle : s.tendIdle.derivations = s.derivations := by
    unfold State.tendIdle
    split
    · split <;> rfl
    · rfl
  have recheck (s : State) : s.tendRecheck.derivations = s.derivations := by
    unfold State.tendRecheck
    split
    · split <;> rfl
    · rfl
  have authority (s : State) : s.tendAuthority.derivations = s.derivations := by
    unfold State.tendAuthority
    split
    · split <;> rfl
    · rfl
  rw [State.settleAlert_derivations, authority, recheck, idle]

theorem settle_executorDerivations : (settle s).derivations.count .executor = s.derivations.count .executor := by
  unfold settle
  dsimp only
  rw [tend_derivations, advanceWipe_executorDerivations, advanceSleep_derivations, grantLanes_derivations, advanceWipe_executorDerivations,
    advanceExecutor_derivations, advanceEnrolment_derivations, endDrainWait_derivations]

end Derivations

end Sys2Proof.Machine

namespace Sys2Proof.Machine

/-! ### Requests that name a slot (R50, R166) -/

theorem slotOf_eq_some_iff (n : Nat) (i : SlotId) : slotOf n = some i ↔ n = i.val := by
  unfold slotOf
  split
  · simp [Fin.ext_iff]
  · have := i.isLt
    simp; omega

theorem slotOf_val (i : SlotId) : slotOf i.val = some i := (slotOf_eq_some_iff _ _).2 rfl

theorem secretOk_iff (x : List Byte) : secretOk x = true ↔ 8 ≤ x.length ∧ x.length ≤ 64 := decide_eq_true_iff

@[simp] theorem take_counters (s : State) (kind : Nat) (tag : Byte) : (s.take kind tag).counters = s.counters := by simp [State.counters]

@[simp] theorem startJob_cred (s : State) (j : Job) (g : JobStage) (i : SlotId) : (s.startJob j g).cred i = s.cred i := rfl
@[simp] theorem startJob_counters (s : State) (j : Job) (g : JobStage) : (s.startJob j g).counters = s.counters := rfl

/-- A taken request that starts a job whose records are formed at once begins its group in the same event, on an idle store. -/
theorem take_begins {s : State} (kind : Nat) (tag : Byte) (job : Job) {records : List Record} (takes : s.takesRequest)
    (idle : s.store.idle = true) (commit : ((s.take kind tag).startJob job .wanted).commit = none) (enrol : job.isEnrol = false)
    (formed : ((s.take kind tag).startJob job .wanted).jobRecords = records) (some' : records ≠ []) :
    beginsGroup s (settle ((s.take kind tag).startJob job .wanted)) records ∧
      (settle ((s.take kind tag).startJob job .wanted)).authority = s.authority ∧
      (settle ((s.take kind tag).startJob job .wanted)).table = s.table := by
  obtain ⟨-, ready, -⟩ := takes
  have store : ((s.take kind tag).startJob job .wanted).store = s.store := take_store s kind tag
  obtain ⟨begins, authority, table, -, -⟩ := settle_begins _ records ((take_power s kind tag).symm ▸ ready)
    (by simp) rfl (store.symm ▸ idle) commit enrol formed some'
  rw [beginsGroup, store] at begins
  exact ⟨begins, authority.trans (take_authority s kind tag), table.trans (take_table s kind tag)⟩

/-! ### AUTHENTICATE (R57, R58, R64) -/

theorem exec_authenticate {s : State} (tag : Byte) {x : AuthArgs} (takes : s.takesRequest) (short : x.unlock.length ≤ 16) :
    exec (.authenticate tag (.fits x)) s = .next (settle ((s.take 4 tag).authenticate x)) := by
  show Host.Outcome.next (s.whilePowered fun s => s.request 4 tag (bounded 16 AuthArgs.unlock (.fits x)) State.authenticate) = _
  rw [whilePowered_on _ takes.1, bounded_fits _ _ _ short, request_fits _ _ _ _ _ takes]

/-- An AUTHENTICATE whose body names a slot and an unlock set goes on to the checks of state, backoff and binding. -/
theorem authenticate_named {x : AuthArgs} {i : SlotId} {unlock : List Unlock} (s : State) (slot : x.slot = i.val)
    (set : unlockSetOf x.unlock = some unlock) (secret : secretOk x.secret = true) : s.authenticate x =
      match s.authRefusal i with
      | some r => s.reply r.1 r.2
      | none =>
        s.startJob (.attempt { slot := i, secret := x.secret, unlock := unlock, phase := .charging, settledAt := s.clock }) .wanted := by
  unfold State.authenticate
  rw [slot, slotOf_val, set]
  exact if_pos secret

section AuthRefusal

variable {s : State} {i : SlotId} (ready : s.power.part = .ready)
include ready

theorem authRefusal_notActive (state : (s.cred i).state ≠ .active) : s.authRefusal i = some (.slotState, .range none) := by
  simp [State.authRefusal, partRefusal, ready, state]

theorem authRefusal_closed (state : (s.cred i).state = .active) (closed : s.clock < s.openAt[i]) :
    s.authRefusal i = some (.lockedOut, .retryAfter (s.retryAfter i)) := by
  have waiting : s.accepting i = false := by simpa [State.accepting] using closed
  simp [State.authRefusal, partRefusal, ready, state, waiting]

theorem authRefusal_none (state : (s.cred i).state = .active) (accepting : s.openAt[i] ≤ s.clock) (bound : s.binding.state ≠ .checking) :
    s.authRefusal i = none := by
  have accepts : s.accepting i = true := by simpa [State.accepting] using accepting
  simp [State.authRefusal, partRefusal, ready, state, accepts, bound]

end AuthRefusal

/-- Settles O45: by the first of the checks of state and backoff that fails; where none does, the charge group begins. -/
theorem authenticateChargesOrIsRefused : Obligations.AuthenticateChargesOrIsRefused := by
  intro s tag x i unlock takes slot set short long atMost
  have ready : (s.take 4 tag).power.part = .ready := (take_power s 4 tag).symm ▸ takes.2.1
  have named := authenticate_named (s.take 4 tag) slot set ((secretOk_iff _).2 ⟨long, atMost⟩)
  rw [exec_authenticate tag takes short, named]
  refine ⟨fun active accepting bound idle => ?_, fun state => ?_, fun active closed => ⟨s.retryAfter i, ?_, ?_⟩⟩
  · rw [authRefusal_none ready (by simpa using active) (by simpa using accepting) (by simpa using bound)]
    obtain ⟨begins, authority, table⟩ := take_begins 4 tag
      (.attempt { slot := i, secret := x.secret, unlock := unlock, phase := .charging, settledAt := (s.take 4 tag).clock })
      (records := s.chargeRecords i) takes idle rfl rfl (by simp [State.jobRecords, State.attemptRecords, State.chargeRecords])
      (List.cons_ne_nil _ _)
    refine ⟨_, rfl, authority, table, ?_, begins⟩
    rw [settle_executorDerivations, State.startJob_derivations, take_derivations]
  · rw [authRefusal_notActive ready (by simpa using state)]
    exact congrArg (fun u => Host.Outcome.next (settle u)) (reply_take s 4 tag _ _)
  · rw [authRefusal_closed ready (by simpa using active) (by simpa using closed)]
    have units : (s.take 4 tag).retryAfter i = s.retryAfter i := by simp [State.retryAfter]
    rw [units]
    exact congrArg (fun u => Host.Outcome.next (settle u)) (reply_take s 4 tag _ _)
  · unfold State.retryAfter
    omega

/-! ### CRED-POLICY and CRED-STATE (R51, R68 to R70) -/

theorem clamp_eq {low high : Nat} (ordered : low ≤ high) (n : Nat) : clamp low high n = max low (min high n) := by
  unfold clamp
  split
  · omega
  · split <;> omega

theorem clampPolicy_eq (p : Policy) : clampPolicy p =
    { e := max 10 (min 20 p.e), free := min 7 p.free, base := max 1 (min 255 p.base), limit := min 31 p.limit } := by
  simp [clampPolicy, clamp_eq]

theorem exec_credPolicy {s : State} (tag : Byte) {x : CredPolicyArgs} {i : SlotId} (takes : s.takesRequest) (admin : s.admin = true)
    (slot : x.slot = i.val) : exec (.credPolicy tag (.fits x)) s =
      .next (settle ((s.take 13 tag).startJob (.credPolicy i (clampPolicy x.policy) (x.idleLimit.map clampAuthIdle)) .wanted)) := by
  have named : (s.take 13 tag).credPolicy x =
      (s.take 13 tag).startJob (.credPolicy i (clampPolicy x.policy) (x.idleLimit.map clampAuthIdle)) .wanted := by
    rw [State.credPolicy, slot, slotOf_val]
  show Host.Outcome.next (s.whilePowered fun s => s.request 13 tag (.fits x) (adminOnly State.credPolicy)) = _
  rw [exec_admin s 13 tag x _ takes admin, named]

theorem withPolicy_failures (c : CredRecord) (p : Policy) :
    (c.withPolicy p).failures = if p.limit = 0 then c.failures else min c.failures p.limit := by
  unfold CredRecord.withPolicy
  dsimp only
  split_ifs <;> omega

/-- A slot that is ACTIVE is locked out where the new limit is at or below its count. -/
theorem withPolicy_state (c : CredRecord) (p : Policy) : (c.withPolicy p).state =
    if c.state = .active ∧ p.limit ≠ 0 ∧ p.limit ≤ c.failures then .lockedOut else c.state := by
  have reached : p.limit ≠ 0 → ((if p.limit ≠ 0 ∧ p.limit < c.failures then p.limit else c.failures) = p.limit ↔ p.limit ≤ c.failures) :=
    fun limited => by split_ifs <;> omega
  unfold CredRecord.withPolicy
  dsimp only
  by_cases limited : p.limit = 0
  · simp [limited]
  · simp only [reached limited]

theorem credPolicyRecords_take (s : State) (i : SlotId) (x : CredPolicyArgs) :
    ((s.take 13 tag).startJob (.credPolicy i (clampPolicy x.policy) (x.idleLimit.map clampAuthIdle)) .wanted).jobRecords =
      .cred i ((s.cred i).withPolicy (clampPolicy x.policy)) ::
        (match x.idleLimit with
         | some n => [.counters { s.counters with idleLimit := max 30 (min 3600 n) }]
         | none => []) := by
  show State.credPolicyRecords _ i (clampPolicy x.policy) (x.idleLimit.map clampAuthIdle) = _
  unfold State.credPolicyRecords
  rw [startJob_cred, startJob_counters, take_cred, take_counters]
  cases x.idleLimit with
  | none => rfl
  | some n => simp [clampAuthIdle, clamp_eq]

/-- The request of each CRED-STATE command. -/
theorem exec_credState {s : State} {tag : Byte} {x : CredStateArgs} {c : Instr} {a : CredAction} (takes : s.takesRequest)
    (names : exec c s = .next (s.whilePowered fun s => s.request 14 tag (.fits x) (State.credStateChange a))) :
    exec c s = .next (settle ((s.take 14 tag).credStateChange a x)) := by
  rw [names, whilePowered_on _ takes.1, request_fits _ _ _ _ _ takes]

theorem mayCredState_of_admin {s : State} (admin : s.admin = true) (n : Nat) : s.mayCredState n = true := by
  have role : s.holderRole = some .admin := by simpa [State.admin] using admin
  rw [State.mayCredState, role]

@[simp] theorem take_mayCredState (s : State) (kind : Nat) (tag : Byte) (n : Nat) :
    (s.take kind tag).mayCredState n = s.mayCredState n := by
  simp [State.mayCredState, State.holderRole]

/-- A CRED-STATE the authority does not permit is answered NO_AUTHORITY, whatever else it names (R166). -/
theorem credStateChange_refused {s : State} (tag : Byte) (a : CredAction) {x : CredStateArgs} (may : s.mayCredState x.slot = false) :
    (s.take 14 tag).credStateChange a x = s.answered 14 tag .noAuthority .none := by
  rw [State.credStateChange, if_pos (by simpa using may), reply_take]

theorem credStateChange_misnamed {s : State} (tag : Byte) (a : CredAction) {x : CredStateArgs} (may : s.mayCredState x.slot = true)
    (misnamed : 7 < x.slot ∨ x.actionKnown = false) : (s.take 14 tag).credStateChange a x = s.answered 14 tag .badBody .none := by
  rw [State.credStateChange, if_neg (by simp [may])]
  split
  · exact reply_take s 14 tag _ _
  · next i named =>
    have below := i.isLt
    have unknown : x.actionKnown = false := misnamed.resolve_left (by rw [(slotOf_eq_some_iff _ _).1 named]; omega)
    rw [if_pos unknown, reply_take]

theorem credStateChange_named {s : State} (tag : Byte) (a : CredAction) (i : SlotId) (admin : s.admin = true) :
    (s.take 14 tag).credStateChange a { slot := i.val, actionKnown := true } = (s.take 14 tag).credStateOn i a := by
  rw [State.credStateChange, if_neg (by simp [mayCredState_of_admin admin]), slotOf_val]
  exact if_neg (by simp)

theorem credStateOn_empty {s : State} (tag : Byte) {i : SlotId} (a : CredAction) (empty : (s.cred i).state = .empty) :
    (s.take 14 tag).credStateOn i a = s.answered 14 tag .slotState (.range none) := by
  have refused : ((s.take 14 tag).cred i).apply a = none := by cases a <;> simp [CredRecord.apply, empty]
  rw [State.credStateOn, refused]
  exact reply_take s 14 tag _ _

/-- A change of the slot's record begins its group. -/
theorem credStateOn_begins {s : State} (tag : Byte) {i : SlotId} {a : CredAction} {c : CredRecord} (takes : s.takesRequest)
    (idle : s.store.idle = true) (changed : (s.cred i).apply a = some c) (differs : c.state ≠ (s.cred i).state) :
    beginsGroup s (settle ((s.take 14 tag).credStateOn i a)) [.cred i c] := by
  have started : (s.take 14 tag).credStateOn i a = (s.take 14 tag).startJob (.credState i a) .wanted := by
    rw [State.credStateOn, take_cred, changed]
    exact if_neg fun same => differs (congrArg CredRecord.state same)
  have formed : ((s.take 14 tag).startJob (.credState i a) .wanted).jobRecords = [.cred i c] := by
    simp [State.jobRecords, changed]
  rw [started]
  exact (take_begins 14 tag _ takes idle rfl rfl formed (List.cons_ne_nil _ _)).1

theorem apply_enable {c : CredRecord} (disabled : c.state = .disabled) (below : c.policy.limit = 0 ∨ c.failures ≠ c.policy.limit) :
    c.apply .enable = some { c with state := .active } := by
  have free : c.atLimit = false := by
    rw [CredRecord.atLimit, decide_eq_false_iff_not]
    exact fun ⟨limited, reached⟩ => below.elim limited fun other => other reached
  simp [CredRecord.apply, disabled, free]

theorem apply_disable {c : CredRecord} (set : c.state ≠ .empty) : c.apply .disable = some { c with state := .disabled } := if_neg set
theorem apply_reopen {c : CredRecord} (set : c.state ≠ .empty) : c.apply .reopen = some { c with failures := 0, state := .active } :=
  if_neg set

/-- CRED-STATE is permitted to ADMIN, and to RECOVERY for 2 to 6 (R70). -/
theorem mayCredState_iff (s : State) (n : Nat) : s.mayCredState n = true ↔ ∃ a, s.authority = some a ∧
    (roleOf a.slot = .admin ∨ (roleOf a.slot = .recovery ∧ 2 ≤ n ∧ n ≤ 6)) := by
  cases holder : s.authority with
  | none => simp [State.mayCredState, State.holderRole, holder]
  | some a => cases role : roleOf a.slot <;> simp [State.mayCredState, State.holderRole, holder, role]

/-- Settles O49: CRED-POLICY by its records, CRED-STATE by the slot's state and the action, and its refusals by the authority. -/
theorem credPolicyAndStateBeginGroup : Obligations.CredPolicyAndStateBeginGroup := by
  refine ⟨fun s tag x i takes admin idle slot => ?_, fun s tag i takes admin => ?_, fun s tag x c takes command => ?_⟩
  · obtain ⟨begins, -⟩ := take_begins 13 tag (.credPolicy i (clampPolicy x.policy) (x.idleLimit.map clampAuthIdle)) takes idle rfl rfl
      (credPolicyRecords_take s i x) (List.cons_ne_nil _ _)
    have policy : ((s.cred i).withPolicy (clampPolicy x.policy)).policy =
        { clampPolicy x.policy with e := if (s.cred i).state = .empty then (clampPolicy x.policy).e else (s.cred i).policy.e } := rfl
    refine ⟨_, _, exec_credPolicy tag takes admin slot, begins, ?_, ?_, ?_, rfl, rfl, rfl⟩
    · rw [policy, clampPolicy_eq]
    · rw [withPolicy_failures, policy]
    · rw [withPolicy_state, policy]
  · have run (c : Instr) (a : CredAction) (names : exec c s = .next (s.whilePowered fun s =>
        s.request 14 tag (.fits { slot := i.val, actionKnown := true }) (State.credStateChange a))) :
        exec c s = .next (settle ((s.take 14 tag).credStateOn i a)) := by
      rw [exec_credState takes names, credStateChange_named tag a i admin]
    have enable := run (.credStateEnable tag (.fits { slot := i.val, actionKnown := true })) .enable rfl
    have disable := run (.credStateDisable tag (.fits { slot := i.val, actionKnown := true })) .disable rfl
    have reopen := run (.credStateReopen tag (.fits { slot := i.val, actionKnown := true })) .reopen rfl
    rw [enable, disable, reopen]
    refine ⟨fun empty => ?_, fun idle => ⟨fun disabled below => ?_, fun state => ?_, fun state => ?_⟩⟩
    · simp only [credStateOn_empty tag _ empty, and_self]
    · exact ⟨_, rfl, credStateOn_begins tag takes idle (apply_enable disabled below) (by simp [disabled])⟩
    · have set : (s.cred i).state ≠ .empty := by rcases state with e | e <;> simp [e]
      exact ⟨_, rfl, credStateOn_begins tag takes idle (apply_disable set) (by rcases state with e | e <;> simp [e])⟩
    · have set : (s.cred i).state ≠ .empty := by rcases state with e | e <;> simp [e]
      exact ⟨_, rfl, credStateOn_begins tag takes idle (apply_reopen set) (by rcases state with e | e <;> simp [e])⟩
  · have run : ∃ a, exec c s = .next (settle ((s.take 14 tag).credStateChange a x)) := by
      rcases command with rfl | rfl | rfl
      · exact ⟨.enable, exec_credState takes rfl⟩
      · exact ⟨.disable, exec_credState takes rfl⟩
      · exact ⟨.reopen, exec_credState takes rfl⟩
    obtain ⟨a, run⟩ := run
    rw [run]
    refine ⟨fun unpermitted => ?_, fun holder held role misnamed => ?_⟩
    · have may : s.mayCredState x.slot = false := by
        rw [Bool.eq_false_iff, Ne, mayCredState_iff]
        rintro ⟨b, held, permitted⟩
        rcases unpermitted with gone | ⟨b', held', role⟩
        · cases gone.symm.trans held
        · cases held'.symm.trans held
          rcases role with user | ⟨recovery, outside⟩
          · simp [user] at permitted
          · rw [recovery] at permitted
            rcases permitted with other | ⟨-, low, high⟩
            · cases other
            · omega
      rw [credStateChange_refused tag a may]
    · rw [credStateChange_misnamed tag a ((mayCredState_iff _ _).2 ⟨holder, held, role⟩) misnamed]

end Sys2Proof.Machine

namespace Sys2Proof.Machine

/-! ### CRED-SET (R66, R67, R70) -/

/-- The slots whose CRED-SET an authority permits (R70). -/
theorem maySetCred_iff (s : State) (i : SlotId) : s.maySetCred i = true ↔ ∃ a, s.authority = some a ∧
    (roleOf a.slot = .admin ∨ a.slot = i ∨ (roleOf a.slot = .recovery ∧ 2 ≤ i.val ∧ i.val ≤ 6)) := by
  have user : roleOf i = .user ↔ 2 ≤ i.val ∧ i.val ≤ 6 := by revert i; decide
  cases holder : s.authority with
  | none => simp [State.maySetCred, holder]
  | some a =>
    have own : i = a.slot ↔ a.slot = i := eq_comm
    cases role : roleOf a.slot <;> simp [State.maySetCred, holder, role, user, own]

/-! #### The key of a listed range -/

theorem credSetKey_inHand {s : State} {i : SlotId} {r : RangeId} {key : Key} (held : (s.key (.range r)).state ≠ .empty)
    (material : (s.key (.range r)).material = some key) : s.credSetKey i r = some key := by
  simp [State.credSetKey, KeyEntry.inHand, held, State.laneKey, material]

theorem openWrap_iff (s : State) (i : SlotId) (u : Unwrap) (r : RangeId) (key : Key) : s.openWrap i u r = some key ↔
    ∃ w, (s.cred i).wraps.find? (fun w => w.range = r ∧ w.generation = (s.range r).generation) = some w ∧
      w.verifier = { madeFrom := u } ∧ w.key = key := by
  unfold State.openWrap
  cases (s.cred i).wraps.find? (fun w => w.range = r ∧ w.generation = (s.range r).generation) with
  | none => simp
  | some w => cases w with | mk _ _ _ verifier => cases verifier; simp

theorem credSetKey_empty_iff {s : State} {i : SlotId} {r : RangeId} (empty : (s.key (.range r)).state = .empty) (key : Key) :
    s.credSetKey i r = some key ↔ ∃ a w, s.authority = some a ∧ a.slot = i ∧
      (s.cred i).wraps.find? (fun w => w.range = r ∧ w.generation = (s.range r).generation) = some w ∧
      w.verifier = { madeFrom := a.unwrap } ∧ w.key = key := by
  have absent : (s.key (.range r)).inHand = false := by simp [KeyEntry.inHand, empty]
  cases holder : s.authority with
  | none => simp [State.credSetKey, absent, holder]
  | some a =>
    by_cases own : a.slot = i
    · simp [State.credSetKey, absent, holder, own, openWrap_iff]
    · simp [State.credSetKey, absent, holder, own]

/-! #### The ranges it is unavailable for -/

theorem keyMissing_iff (s : State) (i : SlotId) (r : RangeId) :
    ((s.credSetKey i r).isNone && decide (i ∈ (s.range r).fields.access)) = true ↔ s.keyMissing i r := by
  rw [Bool.and_eq_true, Option.isNone_iff_eq_none, decide_eq_true_iff, and_comm]

theorem unavailable_eq (s : State) (i : SlotId) : s.unavailable i =
    allRanges.filter (fun r => (s.credSetKey i r).isNone && decide (i ∈ (s.range r).fields.access)) := List.filter_filter

theorem mem_unavailable (s : State) (i : SlotId) (r : RangeId) : r ∈ s.unavailable i ↔ s.keyMissing i r := by
  rw [unavailable_eq, List.mem_filter, keyMissing_iff]
  exact and_iff_right (allRanges_mem r)

theorem unavailable_ascends (s : State) (i : SlotId) : (s.unavailable i).Pairwise (· < ·) := by
  have ascending : allRanges.Pairwise (· < ·) := by decide
  rw [unavailable_eq]
  exact ascending.filter _

theorem unavailable_nodup (s : State) (i : SlotId) : (s.unavailable i).Nodup := (unavailable_ascends s i).imp Fin.ne_of_lt

theorem unavailable_head {s : State} {i : SlotId} {r : RangeId} (low : lowestRange (s.keyMissing i) r) :
    (s.unavailable i).head? = some r := by
  rw [unavailable_eq, List.head?_filter]
  exact (find_iff_lowest (keyMissing_iff s i)).1 r low

/-- No more ranges are dropped than a list that holds them all has. -/
theorem unavailable_length_le {s : State} {i : SlotId} {l : List RangeId} (listed : ∀ r, s.keyMissing i r → r ∈ l) :
    (s.unavailable i).length ≤ l.length :=
  (unavailable_nodup s i).length_le_of_subset fun r m => listed r ((mem_unavailable s i r).1 m)

theorem le_unavailable_length {s : State} {i : SlotId} {l : List RangeId} (distinct : l.Nodup) (missing : ∀ r ∈ l, s.keyMissing i r) :
    l.length ≤ (s.unavailable i).length :=
  distinct.length_le_of_subset fun r m => (mem_unavailable s i r).2 (missing r m)

theorem mem_keysInHand (s : State) (i : SlotId) (r : RangeId) (key : Key) :
    (r, key) ∈ s.keysInHand i ↔ i ∈ (s.range r).fields.access ∧ s.credSetKey i r = some key := by
  simp [State.keysInHand, State.listedRanges, allRanges_mem]

/-! #### The request -/

theorem exec_credSet {s : State} (tag : Byte) {x : CredSetArgs} (takes : s.takesRequest) :
    exec (.credSet tag (.fits x)) s = .next (settle ((s.take 12 tag).credSet x)) := by
  show Host.Outcome.next (s.whilePowered fun s => s.request 12 tag (.fits x) State.credSet) = _
  rw [whilePowered_on _ takes.1, request_fits _ _ _ _ _ takes]

@[simp] theorem take_maySetCred (s : State) (kind : Nat) (tag : Byte) (i : SlotId) : (s.take kind tag).maySetCred i = s.maySetCred i := by
  simp [State.maySetCred]

@[simp] theorem take_credSetKey (s : State) (kind : Nat) (tag : Byte) (i : SlotId) (r : RangeId) :
    (s.take kind tag).credSetKey i r = s.credSetKey i r := by
  simp [State.credSetKey, State.laneKey, State.openWrap]

@[simp] theorem take_unavailable (s : State) (kind : Nat) (tag : Byte) (i : SlotId) :
    (s.take kind tag).unavailable i = s.unavailable i := by
  simp [State.unavailable, State.listedRanges]

@[simp] theorem take_keysInHand (s : State) (kind : Nat) (tag : Byte) (i : SlotId) : (s.take kind tag).keysInHand i = s.keysInHand i := by
  simp [State.keysInHand, State.listedRanges]

theorem credSet_misnamed (s : State) (tag : Byte) {x : CredSetArgs} (misnamed : 7 < x.slot ∨ x.secret.length < 8 ∨ 64 < x.secret.length) :
    (s.take 12 tag).credSet x = s.answered 12 tag .badBody .none := by
  unfold State.credSet
  split
  · exact reply_take s 12 tag _ _
  · next i named =>
    have below := i.isLt
    have slot := (slotOf_eq_some_iff _ _).1 named
    have wrong : secretOk x.secret = false := by
      rw [Bool.eq_false_iff, Ne, secretOk_iff]
      omega
    rw [if_pos wrong, reply_take]

/-- The checks of a CRED-SET that names a slot and a secret of its length, in their order (R66). -/
theorem credSet_named (s : State) (tag : Byte) {x : CredSetArgs} {i : SlotId} (slot : x.slot = i.val) (secret : secretOk x.secret = true) :
    (s.take 12 tag).credSet x =
      if s.maySetCred i = false then s.answered 12 tag .noAuthority .none
      else if s.unavailable i ≠ [] ∧ x.dropUnavailable = false then s.answered 12 tag .keyUnavailable (.range (s.unavailable i).head?)
      else if 8 < 1 + (s.unavailable i).length then s.answered 12 tag .outOfRange .none
      else (s.take 12 tag).startCredSet i x := by
  unfold State.credSet
  rw [slot, slotOf_val]
  simp only [secret, Bool.true_eq_false, if_false, take_maySetCred, take_unavailable, reply_take, Config.groupMax]

/-- Settles O48: the permission, the keys, the checks and the start of the derivation, each by its own lemma. -/
theorem credSetStartsDerivation : Obligations.CredSetStartsDerivation := by
  refine ⟨maySetCred_iff, fun s i r key => ⟨credSetKey_inHand, fun empty => credSetKey_empty_iff empty key⟩,
    fun s tag x takes misnamed => ?_, fun s tag x i takes slot long atMost => ?_⟩
  · rw [exec_credSet tag takes, credSet_misnamed s tag misnamed]
  · rw [exec_credSet tag takes, credSet_named s tag slot ((secretOk_iff _).2 ⟨long, atMost⟩)]
    refine ⟨fun unpermitted => by rw [if_pos unpermitted], fun permitted => ?_⟩
    rw [if_neg (by simp [permitted])]
    refine ⟨fun r low kept => ?_, fun drop eight => ?_, fun enough => ?_⟩
    · have some' : s.unavailable i ≠ [] := List.ne_nil_of_mem ((mem_unavailable s i r).2 low.1)
      rw [if_pos ⟨some', kept⟩, unavailable_head low]
    · obtain ⟨l, distinct, eight, missing⟩ := eight
      have many := le_unavailable_length distinct missing
      rw [if_neg (by simp [drop]), if_pos (by omega)]
    · have few : (s.unavailable i).length ≤ 7 ∧ ¬ (s.unavailable i ≠ [] ∧ x.dropUnavailable = false) := by
        rcases enough with none' | ⟨drop, l, seven, listed⟩
        · have empty : s.unavailable i = [] := List.eq_nil_iff_forall_not_mem.2 fun r m => none' r ((mem_unavailable s i r).1 m)
          simp [empty]
        · exact ⟨(unavailable_length_le listed).trans seven, by simp [drop]⟩
      rw [if_neg few.2, if_neg (by omega)]
      refine ⟨_, _, rfl, by simp [State.startCredSet], rfl, rfl, rfl, rfl, congrArg Config.freshSalt (take_entropy s 12 tag), ?_,
        fun r => ?_, fun r key => ?_, ?_, ?_, ?_, ?_, ?_⟩
      · simpa using unavailable_ascends s i
      · simpa using mem_unavailable s i r
      · simpa using mem_keysInHand s i r key
      · show State.policyToStand _ i x.policy = _
        unfold State.policyToStand
        cases x.policy with
        | none => exact congrArg CredRecord.policy (take_cred s 12 tag i)
        | some p => exact clampPolicy_eq p
      all_goals simp [State.startCredSet]

end Sys2Proof.Machine

namespace Sys2Proof.Machine

/-! ### The close of a request's group (R75, R77, R78) -/

section Close

variable (st : Store) (w : Writing)

theorem mapCell_queue (f : {α : Type} → CellPair α → CellPair α) (c : Cell) :
    (st.mapCell f c).queue = st.queue ∧ (st.mapCell f c).held = st.held := by
  cases c <;> exact ⟨rfl, rfl⟩

theorem releaseHeld_waitingGroups (who : Submitter) (g : Group) (waits : g ∈ (st.releaseHeld who).waitingGroups) :
    g ∈ st.waitingGroups := by
  unfold Store.releaseHeld at waits
  split at waits
  · next released found =>
    have among : released ∈ st.held := List.mem_of_find?_eq_some found
    simp only [Store.waitingGroups, List.mem_append, List.mem_singleton] at waits ⊢
    rcases waits with (writing | queued | rfl) | held
    · exact .inl (.inl writing)
    · exact .inl (.inr queued)
    · exact .inr among
    · exact .inr (List.mem_of_mem_erase held)
  · exact waits

/-- After the close the groups that waited behind the writing one are left. -/
theorem close_waitingGroups (g : Group) (waits : g ∈ (st.close w).waitingGroups) : g ∈ st.queue ++ st.held := by
  have folded (l : List Cell) (u : Store) :
      (l.foldl (fun st c => st.mapCell CellPair.takeTarget c) u).queue = u.queue ∧
        (l.foldl (fun st c => st.mapCell CellPair.takeTarget c) u).held = u.held := by
    induction l generalizing u with
    | nil => exact ⟨rfl, rfl⟩
    | cons c l ih =>
      obtain ⟨queue, held⟩ := mapCell_queue u CellPair.takeTarget c
      exact ⟨(ih _).1.trans queue, (ih _).2.trans held⟩
  obtain ⟨queue, held⟩ := folded w.group.cells (st.writeMarker w true)
  unfold Store.close at waits
  dsimp only at waits
  rw [beginNext_waitingGroups] at waits
  have left := releaseHeld_waitingGroups _ _ g waits
  rw [Store.waitingGroups, queue, held] at left
  exact left

end Close

theorem counters_mem_cells {g : Group} : .counters ∈ g.cells ↔ ∃ x, Record.counters x ∈ g.records := by
  simp only [Group.cells, List.mem_map]
  constructor
  · rintro ⟨q, m, e⟩
    cases q <;> cases e
    exact ⟨_, m⟩
  · rintro ⟨x, m⟩
    exact ⟨_, m, rfl⟩

/-- `t` is `s` with the records of a request's group of slots and counters in effect: the store and the events apart, nothing has changed
yet; of the events only WIPE_STEP_DONE may have been raised (R123), and the groups that waited behind it are left. -/
structure RecordsInEffect (records : List Record) (s t : State) : Prop where
  rest : t = { s with store := t.store, events := t.events }
  events : t.events = s.events ∨ t.events = (s.raise .wipeStepDone).events
  cred : ∀ i c, Record.cred i c ∈ records → t.cred i = c
  credKept : ∀ i, (∀ c, Record.cred i c ∉ records) → t.cred i = s.cred i
  counters : ∀ c, Record.counters c ∈ records → t.counters = c
  range : ∀ r, t.range r = s.range r
  triggers : t.triggers = s.triggers
  waits : ∀ g ∈ t.store.waitingGroups, g ∈ s.store.queue ++ s.store.held

/-- The records are of credential slots and of the counters, as an AUTHENTICATE's are (R58, R60, R61). -/
def OfAttempt (records : List Record) : Prop := ∀ r ∈ records, (∃ i c, r = .cred i c) ∨ ∃ c, r = .counters c

theorem OfAttempt.notMem {records : List Record} (h : OfAttempt records) {c : Cell} (cred : ∀ i, c ≠ .cred i) (counters : c ≠ .counters) :
    c ∉ (requestGroup records).cells := by
  intro m
  obtain ⟨r, among, rfl⟩ := List.mem_map.1 m
  rcases h r among with ⟨i, x, rfl⟩ | ⟨x, rfl⟩
  · exact cred i rfl
  · exact counters rfl

theorem recordsInEffect_close {records : List Record} {s t : State} {w : Writing} (of : OfAttempt records)
    (group : w.group = requestGroup records) (nodup : w.group.cells.Nodup) (target : ∀ r ∈ w.group.records, r.inTarget s.store)
    (store : t.store = s.store.close w) (rest : t = { s with store := t.store, events := t.events })
    (events : t.events = s.events ∨ t.events = (s.raise .wipeStepDone).events) : RecordsInEffect records s t where
  rest := rest
  events := events
  cred i c among := by
    have member : Cell.cred i ∈ w.group.cells := cred_mem_cells.2 ⟨c, by rw [group]; exact among⟩
    rw [State.cred, store, close_creds _ _ nodup, if_pos member]
    exact target (.cred i c) (by rw [group]; exact among)
  credKept i other := by
    have member : Cell.cred i ∉ w.group.cells := fun m => by
      obtain ⟨c, among⟩ := cred_mem_cells.1 m
      rw [group] at among
      exact other c among
    rw [State.cred, store, close_creds _ _ nodup, if_neg member]
    rfl
  counters c among := by
    have member : Cell.counters ∈ w.group.cells := counters_mem_cells.2 ⟨c, by rw [group]; exact among⟩
    rw [State.counters, store, close_counters _ _ nodup, if_pos member]
    exact target (.counters c) (by rw [group]; exact among)
  range r := by
    have member : Cell.range r ∉ w.group.cells := by rw [group]; exact of.notMem (by simp) (by simp)
    rw [State.range, store, close_ranges _ _ nodup, if_neg member]
    rfl
  triggers := by
    have member : Cell.triggers ∉ w.group.cells := by rw [group]; exact of.notMem (by simp) (by simp)
    rw [State.triggers, store, close_triggers _ _ nodup member]
    rfl
  waits g m := by
    rw [store] at m
    exact close_waitingGroups _ _ g m

/-- The close of an AUTHENTICATE's group is what the request does at it, from a state with the group's records in effect (R77). -/
theorem groupClose_attempt {s : State} {records : List Record} {a : Attempt} (scan : ScanFindings) (of : OfAttempt records)
    (job : s.executor.job = .attempt a) (ready : s.readyToClose (requestGroup records)) :
    ∃ t, exec (.groupClose scan) s = .next (settle (t.attemptClosed s a)) ∧ RecordsInEffect records s t := by
  obtain ⟨powered, ⟨number, tries, writing⟩, nodup, target⟩ := ready
  let w : Writing := { group := requestGroup records, number := number, stage := .marker tries }
  have closing : s.store.closing = some w := by rw [Store.closing, writing]
  let closed : State := { s with store := s.store.close w }
  let stepped := if stepAdvanced s.plan closed.plan then closed.raise .wipeStepDone else closed
  have steppedEq : stepped.store = s.store.close w ∧ stepped = { s with store := stepped.store, events := stepped.events } ∧
      (stepped.events = s.events ∨ stepped.events = (s.raise .wipeStepDone).events) := by
    unfold stepped
    split
    · exact ⟨rfl, rfl, .inr rfl⟩
    · exact ⟨rfl, rfl, .inl rfl⟩
  obtain ⟨store, rest, events⟩ := steppedEq
  have closes : s.closeGroup w scan = stepped.attemptClosed s a := by
    have job' : stepped.executor.job = .attempt a := by rw [rest]; exact job
    have effect : stepped.requestClosed s = stepped.attemptClosed s a := by rw [State.requestClosed, job']
    exact (if_neg (of.notMem (by simp) (by simp))).trans effect
  refine ⟨stepped, ?_, recordsInEffect_close of rfl nodup target store rest events⟩
  show Host.Outcome.next (s.whilePowered _) = _
  rw [whilePowered_on _ powered, closing]
  exact congrArg (fun u => Host.Outcome.next (settle u)) closes

end Sys2Proof.Machine

namespace Sys2Proof.Machine

/-! ### From the charge to the verdict (R58, R59, R61, R62) -/

namespace RecordsInEffect

variable {records : List Record} {s t : State} (h : RecordsInEffect records s t)
include h

theorem executor : t.executor = s.executor := by rw [h.rest]
theorem power : t.power = s.power := by rw [h.rest]
theorem derivations : t.derivations = s.derivations := by rw [h.rest]
theorem openAt : t.openAt = s.openAt := by rw [h.rest]
theorem authority : t.authority = s.authority := by rw [h.rest]
theorem table : t.table = s.table := by rw [h.rest]
theorem cache : t.cache = s.cache := by rw [h.rest]
theorem binding : t.binding = s.binding := by rw [h.rest]
theorem trigger : t.trigger = s.trigger := by rw [h.rest]
theorem clock : t.clock = s.clock := by rw [h.rest]
theorem sent : t.sent = s.sent := by rw [h.rest]

theorem key (o : Owner) : t.key o = s.key o := by
  rw [h.rest]
  cases o <;> rfl

/-- ATTEMPT_CHARGED is not among what the close itself raises. -/
theorem attemptCharged : EventKind.attemptCharged ∈ t.events.pending ↔ EventKind.attemptCharged ∈ s.events.pending := by
  rcases h.events with e | e
  · rw [e]
  · rw [e]
    exact (mem_withEvent _ _ _).trans (or_iff_right EventKind.noConfusion)

end RecordsInEffect

theorem ofAttempt_charge (i : SlotId) (record : CredRecord) (counters : Counters) : OfAttempt [.cred i record, .counters counters] := by
  intro r m
  rcases List.mem_cons.1 m with rfl | m
  · exact .inl ⟨i, record, rfl⟩
  · exact .inr ⟨counters, List.mem_singleton.1 m⟩

theorem attemptClosed_charging {s old : State} {a : Attempt} (phase : a.phase = .charging) (executing : s.executor.status = .executing) :
    s.attemptClosed old a = { s.attemptGoesOn a .deriving .working with derivations := s.derivations ++ [.executor] } := by
  rw [State.attemptClosed, phase]
  simp only [executing]

theorem attemptClosed_abandoned {s old : State} {a : Attempt} (phase : a.phase = .charging) (abandoned : s.executor.status = .abandoned) :
    s.attemptClosed old a = s.attemptGoesOn a .settling .wanted := by
  rw [State.attemptClosed, phase]
  simp only [abandoned]

theorem goesOn_executor (s : State) (a : Attempt) (p : AttemptPhase) (g : JobStage) :
    (s.attemptGoesOn a p g).executor = { s.executor with job := .attempt { a with phase := p }, stage := g } := rfl

/-- The settlement of an abandoned attempt is submitted at once where nothing is in its way (R62, R129). -/
theorem settling_submits {s : State} {a : Attempt} (part : s.power.part = .ready) (status : s.executor.status ≠ .free)
    (lets : s.store.letsRequest) :
    requestGroup (s.settleRecords a.slot) ∈ (settle (s.attemptGoesOn a .settling .wanted)).store.waitingGroups ∧
      (settle (s.attemptGoesOn a .settling .wanted)).executor =
        { s.executor with job := .attempt { a with phase := .settling }, stage := .submitted } := by
  obtain ⟨waits, executor, -⟩ := settle_submits (x := s.attemptGoesOn a .settling .wanted) part rfl status rfl
    (List.cons_ne_nil _ _) lets rfl
  exact ⟨waits, executor⟩

/-- At the end of an attempt's derivation the verdict is reached (R59, R61). -/
theorem exec_derivationComplete {s : State} {a : Attempt} {rest : List DerivationUser} (powered : s.power.powered = true)
    (first : s.derivations = .executor :: rest) (job : s.executor.job = .attempt a) (phase : a.phase = .deriving) :
    exec .derivationComplete s = .next (settle (({ s with derivations := rest } : State).verdictReached a)) := by
  have ends : s.derivationEnds = ({ s with derivations := rest } : State).verdictReached a := by
    rw [State.derivationEnds, first]
    show State.executorDerived _ = _
    rw [State.executorDerived]
    simp only [job, phase]
  show Host.Outcome.next (s.whilePowered State.derivationEnds) = _
  rw [whilePowered_on _ powered, ends]

/-- A failed verdict ends authority; of a successful one the close grants it (R59, R61). -/
theorem verdictReached_eq (s : State) (a : Attempt) : s.verdictReached a = { s with
    authority := if s.judge a.slot a.secret then s.authority else none
    authTimer := if s.judge a.slot a.secret then s.authTimer else none
    executor := { s.executor with
      job := .attempt { a with settledAt := s.clock, phase := .verdict (s.judge a.slot a.secret) }, stage := .wanted } } := by
  unfold State.verdictReached
  cases s.judge a.slot a.secret <;> rfl

theorem judge_iff (s : State) (i : SlotId) (secret : List Byte) : s.judge i secret = true ↔ (s.cred i).verifier =
    some { madeFrom := { secret := secret, salt := (s.cred i).salt.getD 0, e := (s.cred i).policy.e } } := decide_eq_true_iff

/-- Settles O30: the close of a charge by whether the attempt still has its request, and the end of its derivation. -/
theorem derivationReachesVerdict : Obligations.DerivationReachesVerdict := by
  refine ⟨fun s scan a record counters job phase ready => ?_, fun s a rest powered first job phase => ?_⟩
  · obtain ⟨t, closes, effect⟩ := groupClose_attempt scan (ofAttempt_charge a.slot record counters) job ready
    have cred := effect.cred a.slot record (by simp)
    have counted := effect.counters counters (by simp)
    refine ⟨fun executing => ?_, fun abandoned => ?_⟩
    · rw [closes, attemptClosed_charging phase (effect.executor ▸ executing)]
      refine ⟨_, rfl, cred, counted, ?_, ?_, effect.openAt, effect.authority, effect.table, effect.sent⟩
      · exact (goesOn_executor t a .deriving .working).trans (by rw [effect.executor])
      · rw [← effect.derivations]
    · rw [closes, attemptClosed_abandoned phase (effect.executor ▸ abandoned)]
      refine ⟨⟨_, rfl, cred, counted, ?_, effect.derivations, effect.openAt, effect.authority, effect.table, effect.sent⟩,
        fun part clear => ?_⟩
      · exact (goesOn_executor t a .settling .wanted).trans (by rw [effect.executor])
      · obtain ⟨waits, executor⟩ := settling_submits (a := a) (effect.power ▸ part)
          (by rw [effect.executor, abandoned]; exact ExecStatus.noConfusion) fun g m => clear g (effect.waits g m)
        refine ⟨_, rfl, ?_, by rw [executor, effect.executor]⟩
        simp only [State.settleRecords, CredRecord.atLimit, decide_eq_true_eq, cred, counted] at waits
        exact waits
  · refine ⟨s.judge a.slot a.secret, _, exec_derivationComplete powered first job phase, judge_iff s a.slot a.secret, ?_⟩
    rw [verdictReached_eq]
    rfl

end Sys2Proof.Machine

namespace Sys2Proof.Machine

/-! ### The unlock set of a successful attempt (R12, R54, R60) -/

/-- Why an entry of an unlock set is skipped (R12, R60): the slot may not unlock the range, or a check of RANGE-UNLOCK fails. -/
def State.entryRefusal (s : State) (i : SlotId) (u : Unwrap) (r : RangeId) : Option Code :=
  if roleOf i ≠ .admin ∧ i ∉ (s.range r).fields.access then some .noAuthority else s.unlockRefusal i u r

theorem applyUnlockSet_refused {s : State} {i : SlotId} {u : Unwrap} {x : Unlock} {code : Code} (l : List Unlock)
    (refused : s.entryRefusal i u x.range = some code) : State.applyUnlockSet i u (x :: l) s =
      ((State.applyUnlockSet i u l s).1, (State.applyUnlockSet i u l s).2.1, (x.range, code) :: (State.applyUnlockSet i u l s).2.2) := by
  unfold State.entryRefusal at refused
  rw [State.applyUnlockSet, refused]

theorem applyUnlockSet_applied {s : State} {i : SlotId} {u : Unwrap} {x : Unlock} (l : List Unlock)
    (passes : s.entryRefusal i u x.range = none) : State.applyUnlockSet i u (x :: l) s =
      ((State.applyUnlockSet i u l (s.applyUnlock i u x)).1, x :: (State.applyUnlockSet i u l (s.applyUnlock i u x)).2.1,
        (State.applyUnlockSet i u l (s.applyUnlock i u x)).2.2) := by
  unfold State.entryRefusal at passes
  rw [State.applyUnlockSet, passes]

theorem entryRefusal_noAuthority {s : State} {i : SlotId} {r : RangeId} (u : Unwrap) (role : roleOf i ≠ .admin)
    (access : i ∉ (s.range r).fields.access) : s.entryRefusal i u r = some .noAuthority := if_pos ⟨role, access⟩

theorem entryRefusal_permitted {s : State} {i : SlotId} {r : RangeId} (u : Unwrap)
    (permits : roleOf i = .admin ∨ i ∈ (s.range r).fields.access) : s.entryRefusal i u r = s.unlockRefusal i u r :=
  if_neg fun ⟨role, access⟩ => permits.elim role access

/-- An entry that no check skips opens an ACTIVE range whose key is in hand or in the slot's wrap. -/
theorem entryRefusal_key {s : State} {i : SlotId} {u : Unwrap} {r : RangeId} (passes : s.entryRefusal i u r = none) :
    (s.key (.range r)).state ≠ .empty ∨ (s.wrapKey i u r).isSome = true := by
  unfold State.entryRefusal at passes
  split at passes
  · cases passes
  · cases device : s.trigger.working.device with
    | lockdown => cases (unlockRefusal_lockdown s i u r device).symm.trans passes
    | normal =>
      rw [unlockRefusal_normal s i u r device] at passes
      split_ifs at passes with service key
      exact key

section Unlocked

variable (s : State) (i : SlotId) (u : Unwrap) {x : Unlock} {r : RangeId}

theorem unlocked_table_here : (s.unlocked i u x).table[x.range] = s.table[x.range].withLocks (s.range x.range).fields x.dirs false :=
  get_set_same _ _ _

variable (other : r ≠ x.range)
include other

theorem unlocked_table_there : (s.unlocked i u x).table[r] = s.table[r] := get_set_other _ _ _ _ other

theorem unlocked_unlockedKey : (s.unlocked i u x).unlockedKey i u r = s.unlockedKey i u r := by
  rw [State.unlockedKey, State.unlockedKey, (unlocked_key s i u x).2 r other]
  rfl

/-- An unlock leaves what is said of the entries of other ranges. -/
theorem unlocked_entryRefusal : (s.unlocked i u x).entryRefusal i u r = s.entryRefusal i u r := by
  have refusal : (s.unlocked i u x).unlockRefusal i u r = s.unlockRefusal i u r := by
    rw [State.unlockRefusal, State.unlockRefusal, (unlocked_key s i u x).2 r other, unlocked_table_there s i u other]
    rfl
  rw [State.entryRefusal, State.entryRefusal, refusal]
  rfl

end Unlocked

/-- What an unlock set makes of a part: each entry is judged as the part stood before the first, since their ranges differ. -/
structure UnlockSetApplied (i : SlotId) (u : Unwrap) (l : List Unlock) (s : State) (x : State × List Unlock × List (RangeId × Code)) :
    Prop where
  rest : x.1 = { s with table := x.1.table, cache := x.1.cache, binding := x.1.binding }
  applied : x.2.1 = l.filter (fun e => (s.entryRefusal i u e.range).isNone)
  skipped : x.2.2 = l.filterMap (fun e => (s.entryRefusal i u e.range).map (fun code => (e.range, code)))
  gated : ∀ r ∈ x.1.binding.gated, r ∈ s.binding.gated ∧ r ∉ x.2.1.map (·.range)
  here : ∀ e ∈ x.2.1, x.1.table[e.range] = s.table[e.range].withLocks (s.range e.range).fields e.dirs false ∧
    x.1.key (.range e.range) = s.unlockedKey i u e.range
  there : ∀ r : RangeId, r ∉ x.2.1.map (·.range) → x.1.table[r] = s.table[r] ∧ x.1.key (.range r) = s.key (.range r)

theorem applyUnlockSet_spec (i : SlotId) (u : Unwrap) {l : List Unlock} (s : State) (distinct : (l.map (·.range)).Nodup) :
    UnlockSetApplied i u l s (State.applyUnlockSet i u l s) := by
  induction l generalizing s with
  | nil => exact ⟨rfl, rfl, rfl, fun r m => ⟨m, List.not_mem_nil⟩, fun e m => absurd m List.not_mem_nil, fun r _ => ⟨rfl, rfl⟩⟩
  | cons x l ih =>
    obtain ⟨new, distinct⟩ := List.nodup_cons.1 distinct
    cases refusal : s.entryRefusal i u x.range with
    | some code =>
      obtain ⟨rest, applied, skipped, gated, here, there⟩ := ih s distinct
      rw [applyUnlockSet_refused l refusal]
      exact ⟨rest, by simp [refusal, applied], by simp [refusal, skipped], gated, here, there⟩
    | none =>
      have opened := applyUnlock_eq s i u x (entryRefusal_key refusal)
      have other {e : Unlock} (m : e ∈ l) : e.range ≠ x.range := fun same => new (List.mem_map.2 ⟨e, m, same⟩)
      obtain ⟨rest, applied, skipped, gated, here, there⟩ := ih (s.unlocked i u x) distinct
      rw [applyUnlockSet_applied l refusal, opened]
      have among {e : Unlock} (m : e ∈ (State.applyUnlockSet i u l (s.unlocked i u x)).2.1) : e ∈ l := by
        rw [applied] at m
        exact List.mem_of_mem_filter m
      have first : x.range ∉ (State.applyUnlockSet i u l (s.unlocked i u x)).2.1.map (·.range) := fun m => by
        obtain ⟨e, m, same⟩ := List.mem_map.1 m
        exact other (among m) same
      refine ⟨rest, ?_, ?_, fun r m => ?_, fun e m => ?_, fun r notMem => ?_⟩
      · rw [List.filter_cons_of_pos (by rw [refusal]; rfl), applied]
        exact congrArg (List.cons x) (List.filter_congr fun e m => by rw [unlocked_entryRefusal s i u (other m)])
      · rw [List.filterMap_cons_none (by rw [refusal]; rfl), skipped]
        exact List.filterMap_congr fun e m => by rw [unlocked_entryRefusal s i u (other m)]
      · obtain ⟨before, unopened⟩ := gated r m
        obtain ⟨before, notFirst⟩ := List.mem_filter.1 before
        rw [List.map_cons, List.mem_cons, not_or]
        exact ⟨before, by simpa using notFirst, unopened⟩
      · rcases List.mem_cons.1 m with rfl | m
        · obtain ⟨table, key⟩ := there e.range first
          rw [table, key]
          exact ⟨unlocked_table_here s i u, (unlocked_key s i u e).1⟩
        · obtain ⟨table, key⟩ := here e m
          rw [table, key, unlocked_table_there s i u (other (among m)), unlocked_unlockedKey s i u (other (among m))]
          exact ⟨rfl, rfl⟩
      · rw [List.map_cons, List.mem_cons, not_or] at notMem
        obtain ⟨table, key⟩ := there r notMem.2
        rw [table, key]
        exact ⟨unlocked_table_there s i u notMem.1, (unlocked_key s i u x).2 r notMem.1⟩

end Sys2Proof.Machine

namespace Sys2Proof.Machine

/-! ### The close of a successful verdict (R60, R62, R71) -/

theorem setOpenAt_here (s : State) (i : SlotId) (n : Nat) : (s.setOpenAt i n).openAt[i] = n := by simp [State.setOpenAt]

theorem setOpenAt_there (s : State) {i j : SlotId} (n : Nat) (other : j ≠ i) : (s.setOpenAt i n).openAt[j] = s.openAt[j] := by
  have : i.val ≠ j.val := fun e => other (Fin.ext e.symm)
  simp [State.setOpenAt, this]

theorem exitIfCleared_noCause {s : State} (old : State) {x : Trigger} (cause : x ∉ s.trigger.working.causes) : s.exitIfCleared old x = s :=
  if_neg fun h => cause h.1

theorem reply_abandoned {s : State} (abandoned : s.executor.status = .abandoned) (code : Code) (payload : Payload) :
    s.reply code payload = { s with executor := freeExecutor } := by
  simp only [State.reply, abandoned]

theorem attemptClosed_success {s old : State} {a : Attempt} (phase : a.phase = .verdict true) :
    s.attemptClosed old a = s.successClosed old a := by
  rw [State.attemptClosed, phase]

/-- The close of a successful verdict in READY: the unlock set, then authority, then the reply. -/
theorem successClosed_executing {s old : State} {a : Attempt} (part : s.power.part = .ready) (executing : s.executor.status = .executing)
    (cause : Trigger.guessLimit ∉ s.trigger.working.causes) (distinct : (a.unlock.map (·.range)).Nodup) :
    let opened := s.setOpenAt a.slot a.settledAt
    let set := State.applyUnlockSet a.slot (s.derive a.slot a.secret) a.unlock opened
    s.successClosed old a = { opened with
      table := set.1.table, cache := set.1.cache, binding := set.1.binding, executor := freeExecutor, authTimer := none
      authority := some { slot := a.slot, unwrap := s.derive a.slot a.secret }
      sent := s.sent ++ [replyTo s.executor.kind s.executor.tag .ok (.authenticated (roleOf a.slot) set.2.1 set.2.2)] } := by
  intro opened set
  have rest := (applyUnlockSet_spec a.slot (s.derive a.slot a.secret) opened distinct).rest
  have granted : set.1.grantAuthority a.slot (s.derive a.slot a.secret) =
      { set.1 with authority := some { slot := a.slot, unwrap := s.derive a.slot a.secret }, authTimer := none } := by
    refine if_pos ?_
    rw [rest]
    exact part
  have closed : s.successClosed old a = ((set.1.grantAuthority a.slot (s.derive a.slot a.secret)).reply .ok
      (.authenticated (roleOf a.slot) set.2.1 set.2.2)).exitIfCleared old .guessLimit := by
    unfold State.successClosed
    dsimp only
    split
    · rfl
    · next other => exact absurd executing other
  rw [closed, granted, reply_eq _ _ _ (by rw [rest]; exact executing)]
  rw [exitIfCleared_noCause _ (by rw [rest]; exact cause)]
  rw [rest]
  rfl

/-- The close of a successful verdict that FRONT_RESET has abandoned: only the open-at time follows (R62). -/
theorem successClosed_abandoned {s old : State} {a : Attempt} (abandoned : s.executor.status = .abandoned)
    (cause : Trigger.guessLimit ∉ s.trigger.working.causes) :
    s.successClosed old a = { s.setOpenAt a.slot a.settledAt with executor := freeExecutor } := by
  have closed : s.successClosed old a = ((s.setOpenAt a.slot a.settledAt).reply .ok).exitIfCleared old .guessLimit := by
    unfold State.successClosed
    dsimp only
    split
    · next executing => cases abandoned.symm.trans executing
    · rfl
  have freed := reply_abandoned (s := s.setOpenAt a.slot a.settledAt) abandoned .ok .none
  rw [closed, freed]
  exact exitIfCleared_noCause old cause

namespace UnlockSetApplied

variable {i : SlotId} {u : Unwrap} {l : List Unlock} {s : State} {x : State × List Unlock × List (RangeId × Code)}
  (h : UnlockSetApplied i u l s x)
include h

theorem mem_applied (e : Unlock) : e ∈ x.2.1 ↔ e ∈ l ∧ s.entryRefusal i u e.range = none := by
  rw [h.applied, List.mem_filter, Option.isNone_iff_eq_none]

theorem mem_skipped {e : Unlock} (among : e ∈ l) {code : Code} (refused : s.entryRefusal i u e.range = some code) :
    (e.range, code) ∈ x.2.2 := by
  rw [h.skipped, List.mem_filterMap]
  exact ⟨e, among, by rw [refused]; rfl⟩

/-- A range that is opened is LIVE and out of the wake gate (R6, R103). -/
theorem opened {e : Unlock} (among : e ∈ x.2.1) : (x.1.key (.range e.range)).state = .live ∧ e.range ∉ x.1.binding.gated := by
  refine ⟨?_, fun gated => (h.gated _ gated).2 (List.mem_map_of_mem among)⟩
  rw [(h.here e among).2, State.unlockedKey]
  split <;> rfl

end UnlockSetApplied

namespace RecordsInEffect

variable {records : List Record} {s t : State} (h : RecordsInEffect records s t)
include h

theorem wrapKey {i : SlotId} (wraps : (t.cred i).wraps = (s.cred i).wraps) (u : Unwrap) (r : RangeId) :
    t.wrapKey i u r = s.wrapKey i u r := by
  rw [State.wrapKey, State.wrapKey, State.openWrap, State.openWrap, h.range, wraps]

theorem entryRefusal {i : SlotId} (wraps : (t.cred i).wraps = (s.cred i).wraps) (u : Unwrap) (r : RangeId) :
    t.entryRefusal i u r = s.entryRefusal i u r := by
  have lockdown : t.inLockdown = s.inLockdown := by rw [State.inLockdown, State.inLockdown, h.trigger]
  rw [State.entryRefusal, State.entryRefusal, State.unlockRefusal, State.unlockRefusal, h.wrapKey wraps, h.range, h.key, h.table, lockdown]

end RecordsInEffect

/-- Settles O50: the unlock set by what skips each entry, and the close of a request that FRONT_RESET has abandoned. -/
theorem successOpensAndGrants : Obligations.SuccessOpensAndGrants := by
  refine ⟨fun s scan a counters u part executing job phase ready cause distinct unwrap => ?_,
    fun s scan a counters abandoned job phase ready cause => ?_⟩
  · obtain ⟨t, closes, effect⟩ := groupClose_attempt scan (ofAttempt_charge a.slot _ counters) job ready
    have cred := effect.cred a.slot _ List.mem_cons_self
    have wraps : (t.cred a.slot).wraps = (s.cred a.slot).wraps := by rw [cred]
    have derived : t.derive a.slot a.secret = u := by rw [State.derive, cred, unwrap]
    have closed := successClosed_executing (s := t) (old := s) (a := a) (effect.power ▸ part) (effect.executor ▸ executing)
      (effect.trigger ▸ cause) distinct
    have set := applyUnlockSet_spec a.slot u (t.setOpenAt a.slot a.settledAt) distinct
    rw [derived] at closed
    dsimp only at closed
    generalize State.applyUnlockSet a.slot u a.unlock (t.setOpenAt a.slot a.settledAt) = x at closed set
    have refusal (r : RangeId) : (t.setOpenAt a.slot a.settledAt).entryRefusal a.slot u r = s.entryRefusal a.slot u r :=
      effect.entryRefusal wraps u r
    have skips {e : Unlock} (among : e ∈ a.unlock) {code : Code} (refused : s.entryRefusal a.slot u e.range = some code) :
        (e.range, code) ∈ x.2.2 := set.mem_skipped among ((refusal _).trans refused)
    have key (r : RangeId) : (t.setOpenAt a.slot a.settledAt).key (.range r) = s.key (.range r) := effect.key (.range r)
    refine ⟨_, x.2.1, x.2.2, by rw [closes, attemptClosed_success phase, closed], ?_, fun i other => ?_, rfl, rfl, ?_,
      fun e among => ((set.mem_applied e).1 among).1, fun e among role access => skips among (entryRefusal_noAuthority u role access),
      fun e among permits => ⟨fun lockdown => ?_, fun normal service => ?_, fun normal service empty wrap => ?_,
        fun normal service key => ?_⟩, fun r notMem => ?_⟩
    · exact setOpenAt_here t a.slot a.settledAt
    · exact (setOpenAt_there t a.settledAt other).trans (by rw [effect.openAt])
    · show t.sent ++ _ = _
      rw [effect.sent, effect.executor]
    · exact skips among ((entryRefusal_permitted u permits).trans (unlockRefusal_lockdown s _ u _ lockdown))
    · exact skips among ((entryRefusal_permitted u permits).trans (unlockRefusal_slotState s _ u _ normal service))
    · exact skips among ((entryRefusal_permitted u permits).trans (unlockRefusal_keyUnavailable s _ u _ normal service empty wrap))
    · have applied := (set.mem_applied e).2
        ⟨among, (refusal _).trans ((entryRefusal_permitted u permits).trans (unlockRefusal_none s _ u _ normal service key))⟩
      obtain ⟨live, ungated⟩ := set.opened applied
      refine ⟨applied, live, ungated, (set.here e applied).1.trans ?_⟩
      show t.table[e.range].withLocks (t.range e.range).fields e.dirs false = _
      rw [effect.table, effect.range]
      rfl
    · obtain ⟨table, same⟩ := set.there r notMem
      exact ⟨table.trans (by rw [← effect.table]; rfl), same.trans (key r)⟩
  · obtain ⟨t, closes, effect⟩ := groupClose_attempt scan (ofAttempt_charge a.slot _ counters) job ready
    have closed := successClosed_abandoned (s := t) (old := s) (a := a) (effect.executor ▸ abandoned) (effect.trigger ▸ cause)
    rw [closes, attemptClosed_success phase, closed]
    refine ⟨_, rfl, effect.cred a.slot _ List.mem_cons_self,
      effect.counters counters (by simp), ?_, effect.authority, effect.table, effect.cache, effect.binding, rfl, effect.sent,
      effect.attemptCharged⟩
    rw [← effect.openAt]
    rfl

end Sys2Proof.Machine

namespace Sys2Proof.Machine

/-! ### What a firing in READY leaves to the request in execution (R111 to R116) -/

/-- From `s` to `t` a firing's action has been taken: the request, the backoff and the slots' records stay, no reply is sent, and of the
events ATTEMPT_CHARGED is not raised and none is taken back. -/
structure Fired (s t : State) : Prop where
  executor : t.executor = s.executor
  openAt : t.openAt = s.openAt
  clock : t.clock = s.clock
  creds : t.store.creds = s.store.creds
  sent : ∃ l, t.sent = s.sent ++ l ∧ ∀ m, Sent.reply m ∉ l
  charged : EventKind.attemptCharged ∈ t.events.pending → EventKind.attemptCharged ∈ s.events.pending
  pending : ∀ k ∈ s.events.pending, k ∈ t.events.pending
  detail : ∀ x ∈ s.events.detail, x ∈ t.events.detail

namespace Fired

theorem refl (s : State) : Fired s s := ⟨rfl, rfl, rfl, rfl, (Aside.refl s).sent, id, fun _ => id, fun _ => id⟩

variable {s t u : State} (h : Fired s t)
include h

theorem cred (i : SlotId) : t.cred i = s.cred i := by rw [State.cred, State.cred, h.creds]

/-- A request that is no RANGE-COMMIT stays none. -/
theorem commit (free : s.commit = none) : t.commit = none := by
  rw [State.commit, h.executor]
  exact free

/-- An update of parts the relation does not see. -/
theorem quiet (executor : u.executor = t.executor) (openAt : u.openAt = t.openAt) (clock : u.clock = t.clock)
    (creds : u.store.creds = t.store.creds) (sent : u.sent = t.sent) (events : u.events = t.events) : Fired s u where
  executor := executor.trans h.executor
  openAt := openAt.trans h.openAt
  clock := clock.trans h.clock
  creds := creds.trans h.creds
  sent := by rw [sent]; exact h.sent
  charged := by rw [events]; exact h.charged
  pending := by rw [events]; exact h.pending
  detail := by rw [events]; exact h.detail

/-- An operation on ranges, transfers and keys. -/
theorem aside (e : Aside t u) : Fired s u := by
  have executor := congrArg State.executor e.frame
  have openAt := congrArg State.openAt e.frame
  have clock := congrArg State.clock e.frame
  have creds := congrArg (fun x : State => x.store.creds) e.frame
  have events := congrArg State.events e.frame
  obtain ⟨l, said, noReply⟩ := h.sent
  obtain ⟨l', said', noReply'⟩ := e.sent
  have quiet : Fired s { u with sent := t.sent } := h.quiet executor openAt clock creds rfl events
  refine { quiet with sent := ⟨l ++ l', ?_, fun m => ?_⟩ }
  · rw [said', said, List.append_assoc]
  · rw [List.mem_append]
    exact fun reply => reply.elim (noReply m) (noReply' m)

theorem ite {c : Prop} [Decidable c] (k : Fired s u) : Fired s (if c then t else u) := by split <;> assumption

theorem forEach {α : Type} {f : α → State → State} (step : ∀ a {t : State}, Fired s t → Fired s (f a t)) (l : List α) :
    Fired s (Machine.forEach l f t) := by
  induction l generalizing t with
  | nil => exact h
  | cons a l ih => exact ih (step a h)

theorem raise {k : EventKind} (other : k ≠ .attemptCharged) : Fired s (t.raise k) where
  executor := h.executor
  openAt := h.openAt
  clock := h.clock
  creds := h.creds
  sent := h.sent
  charged m := h.charged (((mem_withEvent _ _ _).1 m).resolve_left other.symm)
  pending k m := (mem_withEvent _ _ _).2 (.inr (h.pending k m))
  detail := h.detail

theorem noteFiring (x : Trigger) : Fired s (t.noteFiring x) := by
  have noted : Fired s (t.addDetail x) :=
    { h.quiet (u := t) rfl rfl rfl rfl rfl rfl with detail := fun y m => (mem_withTrigger _ _ _).2 (.inr (h.detail y m)) }
  exact noted.raise EventKind.noConfusion

theorem setLockdown (x : LockdownRecord) : Fired s (t.setLockdown x) := h.quiet rfl rfl rfl rfl rfl rfl
theorem setWipe (w : Wipe) : Fired s (t.setWipe w) := h.quiet rfl rfl rfl rfl rfl rfl
theorem withPower (p : Power) : Fired s { t with power := p } := h.quiet rfl rfl rfl rfl rfl rfl
theorem endAuthority : Fired s t.endAuthority := h.quiet rfl rfl rfl rfl rfl rfl
theorem revokeAuthority : Fired s t.revokeAuthority := (h.endAuthority.raise EventKind.noConfusion).ite h.endAuthority

theorem submit (g : Group) : Fired s (t.submit g) := by
  have creds : (t.store.submit g).creds = t.store.creds := by
    have cells := congrArg Store.creds (Store.submit_cells t.store g)
    exact cells
  unfold State.submit
  split
  · exact h.quiet rfl rfl rfl creds rfl rfl
  · exact h

theorem noteRelocked {f : State → State} (step : ∀ {t : State}, Fired s t → Fired s (f t)) : Fired s (noteRelocked f t) :=
  ((step h).withPower _).ite (step h)

theorem drainKey (r : RangeId) : Fired s (t.drainKey (.range r)) := h.aside (aside_drainKey t r)

theorem relock : Fired s t.relock :=
  h.forEach (fun r t h => ((h.aside (aside_modRange t r _)).drainKey r).ite (h.aside (aside_modRange t r _))) _

theorem eraseRange (r : RangeId) : Fired s (t.eraseRange r) := h.aside (aside_eraseRange t r)

/-! #### Without a RANGE-COMMIT in execution -/

section Free

variable (free : s.commit = none)
include free

theorem endCommit (code : Code) (payload : Payload) : Fired s (t.endCommit code payload) := by
  rw [State.endCommit, h.commit free]
  exact h

theorem holdAgainst (r : RangeId) (x : Held) : Fired s (t.holdAgainst r x) := by
  rw [State.holdAgainst, h.commit free]
  exact h

theorem enterLockdown : Fired s t.enterLockdown := by
  refine ((h.endCommit free _ _).ite h).forEach (fun r t h => ?_) _
  unfold State.lockdownRange
  split
  · exact h.aside (aside_lockRangeDown t r)
  · exact h.holdAgainst free r _
  all_goals exact h

theorem markErasing (r : RangeId) : Fired s (t.markErasing r) := by
  have ended := h.endCommit free .slotState (.range (some r))
  unfold State.markErasing
  split
  · exact h.eraseRange r
  · exact h.eraseRange r
  · exact h
  · exact h
  · exact ((ended.eraseRange r).ite ended).ite ((h.holdAgainst free r _).aside (aside_ungate _ r))

theorem markTarget (o : Owner) : Fired s (t.markTarget o) := by
  cases o with
  | range r => exact h.markErasing free r
  | shadow => exact h.aside (aside_abortOwner t .shadow .erase)

theorem markAccepted (targets : List Owner) (full : Bool) : Fired s (t.markAccepted targets full) := by
  have new := h.forEach (f := fun o s => s.markTarget o) (fun o _ h => h.markTarget free o)
    (targets.filter (fun o => (t.wipe.intended.item o).isNone))
  have defined := new.forEach (f := fun r s => if s.defined r then s.markErasing r else s)
    (fun r _ h => (h.markErasing free r).ite h) allRanges
  exact ((defined.aside (aside_abortOwner _ _ _)).ite defined).ite new

theorem act (x : Trigger) (a : Action) : Fired s (t.act x a) := by
  have entered (l : LockdownRecord) : Fired s (Machine.noteRelocked State.enterLockdown (t.setLockdown l)).revokeAuthority :=
    ((h.setLockdown l).noteRelocked fun h => h.enterLockdown free).revokeAuthority
  cases a with
  | note => exact h
  | relock => exact (h.noteRelocked fun h => h.relock).revokeAuthority
  | lockdown =>
    exact ((entered _).ite ((entered _).submit _)).ite (((entered _).raise EventKind.noConfusion).submit _)
  | wipe =>
    refine revokeAuthority ?_
    unfold State.acceptWipe
    dsimp only
    split
    · exact h
    · exact ((h.noteRelocked fun h => h.markAccepted free _ _).setWipe _).submit _

theorem carryOut (x : Trigger) : Fired s (t.carryOut x) := (h.noteFiring x).act free x _

end Free

end Fired

end Sys2Proof.Machine

namespace Sys2Proof.Machine

/-! ### The close of a failed verdict or a settlement (R61 to R63, R111) -/

theorem fire_ready {s : State} (part : s.power.part = .ready) (x : Trigger) : s.fire x = s.carryOut x := by
  rw [State.fire, part]

theorem handOverG_fired {s : State} (part : s.power.part = .ready) (free : s.commit = none) : Fired s s.handOverG := by
  refine Fired.ite ?_ (.refl s)
  rw [fire_ready part]
  exact (Fired.refl s).carryOut free _

theorem handOverG_below {s : State} (below : s.counters.g < s.triggers.gmax) : s.handOverG = s := if_neg (Nat.not_le.2 below)

/-- A firing raises TRIGGER_FIRED and adds its trigger to the detail, whatever its action (R113). -/
theorem handOverG_fires {s : State} (part : s.power.part = .ready) (free : s.commit = none) (reached : s.triggers.gmax ≤ s.counters.g) :
    EventKind.triggerFired ∈ s.handOverG.events.pending ∧ Trigger.guessLimit ∈ s.handOverG.events.detail := by
  have acted : Fired (s.noteFiring .guessLimit) (s.carryOut .guessLimit) :=
    Fired.act (s := s.noteFiring .guessLimit) (.refl _) free _ _
  have fired : s.handOverG = s.carryOut .guessLimit := (if_pos reached).trans (fire_ready part _)
  rw [fired]
  exact ⟨acted.pending _ ((mem_withEvent _ _ _).2 (.inl rfl)), acted.detail _ ((mem_withTrigger _ _ _).2 (.inl rfl))⟩

theorem raiseIfLockedOut_fired {s t : State} (h : Fired s t) (i : SlotId) : Fired s (t.raiseIfLockedOut i) :=
  (h.raise EventKind.noConfusion).ite h

theorem settledFailed_fired {s : State} {a : Attempt} (part : s.power.part = .ready) (free : s.commit = none) :
    Fired (s.setOpenAt a.slot (a.settledAt + s.closedPeriodOf a.slot)) (s.settledFailed a) :=
  raiseIfLockedOut_fired (handOverG_fired (s := s.setOpenAt a.slot (a.settledAt + s.closedPeriodOf a.slot)) part free) _

theorem settledFailed_openAt {s : State} {a : Attempt} (part : s.power.part = .ready) (free : s.commit = none) :
    (s.settledFailed a).openAt[a.slot] = a.settledAt + s.closedPeriodOf a.slot ∧
      ∀ i : SlotId, i ≠ a.slot → (s.settledFailed a).openAt[i] = s.openAt[i] := by
  rw [(settledFailed_fired part free).openAt]
  exact ⟨setOpenAt_here s a.slot _, fun i other => setOpenAt_there s _ other⟩

/-- The firing of GUESS_LIMIT shows in the events of the settled state. -/
theorem settledFailed_fires {s : State} {a : Attempt} (part : s.power.part = .ready) (free : s.commit = none)
    (reached : s.triggers.gmax ≤ s.counters.g) :
    EventKind.triggerFired ∈ (s.settledFailed a).events.pending ∧ Trigger.guessLimit ∈ (s.settledFailed a).events.detail := by
  obtain ⟨raised, detail⟩ := handOverG_fires (s := s.setOpenAt a.slot (a.settledAt + s.closedPeriodOf a.slot)) part free reached
  have after := raiseIfLockedOut_fired (.refl (s.setOpenAt a.slot (a.settledAt + s.closedPeriodOf a.slot)).handOverG) a.slot
  exact ⟨after.pending _ raised, after.detail _ detail⟩

theorem settledFailed_below {s : State} {a : Attempt} (below : s.counters.g < s.triggers.gmax) :
    (s.settledFailed a).table = s.table ∧ (s.settledFailed a).cache = s.cache ∧
      (s.settledFailed a).trigger.working = s.trigger.working ∧ (s.settledFailed a).authority = s.authority := by
  have quiet := handOverG_below (s := s.setOpenAt a.slot (a.settledAt + s.closedPeriodOf a.slot)) below
  unfold State.settledFailed
  rw [quiet, State.raiseIfLockedOut]
  split <;> exact ⟨rfl, rfl, rfl, rfl⟩

theorem settledFailed_lockedOut {s : State} {a : Attempt} (lockedOut : ((s.settledFailed a).cred a.slot).state = .lockedOut) :
    EventKind.slotLockedOut ∈ (s.settledFailed a).events.pending := by
  unfold State.settledFailed State.raiseIfLockedOut at lockedOut ⊢
  split
  · exact (mem_withEvent _ _ _).2 (.inl rfl)
  · next remains => exact absurd (by rwa [if_neg remains] at lockedOut) remains

theorem ofAttempt_settle {i : SlotId} {counters : Counters} {c : CredRecord} {lockOut : List Record}
    (h : lockOut = [] ∨ lockOut = [.cred i c]) : OfAttempt (.counters counters :: lockOut) := by
  intro r m
  rcases List.mem_cons.1 m with rfl | m
  · exact .inr ⟨counters, rfl⟩
  · rcases h with rfl | rfl
    · cases m
    · exact .inl ⟨i, c, List.mem_singleton.1 m⟩

/-- The lock-out leaves the slot's policy and count. -/
theorem RecordsInEffect.charged {s t : State} {i : SlotId} {counters : Counters} {lockOut : List Record}
    (h : RecordsInEffect (.counters counters :: lockOut) s t)
    (lock : lockOut = [] ∨ lockOut = [.cred i { s.cred i with state := .lockedOut }]) :
    (t.cred i).policy = (s.cred i).policy ∧ (t.cred i).failures = (s.cred i).failures := by
  rcases lock with rfl | rfl
  · rw [h.credKept i fun c m => by simp at m]
    exact ⟨rfl, rfl⟩
  · rw [h.cred i _ (List.mem_cons_of_mem _ List.mem_cons_self)]
    exact ⟨rfl, rfl⟩

/-- The close of a failed attempt up to its reply; the settlement of an abandoned one also raises ATTEMPT_CHARGED. -/
def State.failureTold (s : State) (a : Attempt) : State :=
  if a.phase = .settling then (s.settledFailed a).raise .attemptCharged else s.settledFailed a

theorem failureTold_settling {s : State} {a : Attempt} (phase : a.phase = .settling) :
    s.failureTold a = (s.settledFailed a).raise .attemptCharged := if_pos phase

theorem failureTold_verdict {s : State} {a : Attempt} (phase : a.phase = .verdict false) : s.failureTold a = s.settledFailed a :=
  if_neg (by rw [phase]; exact AttemptPhase.noConfusion)

theorem failureTold_eq (s : State) (a : Attempt) :
    s.failureTold a = { s.settledFailed a with events := (s.failureTold a).events } ∧
      (∀ k ∈ (s.settledFailed a).events.pending, k ∈ (s.failureTold a).events.pending) ∧
      (s.failureTold a).events.detail = (s.settledFailed a).events.detail := by
  unfold State.failureTold
  generalize s.settledFailed a = settled
  split
  · exact ⟨rfl, fun k m => (mem_withEvent .attemptCharged k _).2 (.inr m), rfl⟩
  · exact ⟨rfl, fun _ => id, rfl⟩

/-- What the reply of a failed attempt carries: a settlement has none to give it to (R61, R62). -/
def State.failurePayload (s : State) (a : Attempt) : Payload :=
  if a.phase = .settling then .none else (s.settledFailed a).failedFields a.slot

theorem attemptClosed_failed {s old : State} {a : Attempt} (phase : a.phase = .verdict false ∨ a.phase = .settling) :
    s.attemptClosed old a = (s.failureTold a).reply .failed (s.failurePayload a) := by
  rcases phase with phase | phase <;> rw [State.attemptClosed, State.failureTold, State.failurePayload, phase] <;> rfl

/-- A request that is answered, or that nobody waits for, leaves the executor FREE. -/
theorem reply_frees {s : State} (busy : s.executor.status ≠ .free) (code : Code) (payload : Payload) : s.reply code payload = { s with
    executor := freeExecutor, authTimer := (s.reply code payload).authTimer, sent := (s.reply code payload).sent } := by
  unfold State.reply
  split
  · rfl
  · rfl
  · next free => exact absurd free busy

/-- Settles O51: the settled state, its events and its reply, each by what a firing leaves to the request. -/
theorem failureBacksOff : Obligations.FailureBacksOff := by
  intro s scan a counters lockOut part job ready lock phase
  obtain ⟨t, closes, effect⟩ := groupClose_attempt scan (ofAttempt_settle lock) job ready
  obtain ⟨policy, failures⟩ := effect.charged lock
  have counted := effect.counters counters List.mem_cons_self
  have free : t.commit = none := by rw [State.commit, effect.executor, job]
  have ready' : t.power.part = .ready := effect.power ▸ part
  have period : t.closedPeriodOf a.slot = closedPeriod (s.cred a.slot).policy (s.cred a.slot).failures := by
    rw [State.closedPeriodOf, policy, failures]
  have fired := settledFailed_fired (a := a) ready' free
  have fires := settledFailed_fires (a := a) ready' free
  have below := settledFailed_below (s := t) (a := a)
  have lockedOut := settledFailed_lockedOut (s := t) (a := a)
  have absent := ((Ungranted.refl t).settledFailed a).absent
  have settling := failureTold_settling (s := t) (a := a)
  have verdict := failureTold_verdict (s := t) (a := a)
  have fields : a.phase = .verdict false → t.failurePayload a = (t.settledFailed a).failedFields a.slot := fun phase =>
    if_neg (by rw [phase]; exact AttemptPhase.noConfusion)
  obtain ⟨here, there⟩ := settledFailed_openAt (a := a) ready' free
  obtain ⟨told, raised, detail⟩ := failureTold_eq t a
  rw [closes, attemptClosed_failed (phase.imp And.left And.left)]
  generalize t.settledFailed a = settled at *
  generalize t.failureTold a = told' at *
  have executor : told'.executor = s.executor := by
    rw [told]
    exact fired.executor.trans effect.executor
  have busy : told'.executor.status ≠ .free := by
    rw [executor]
    rcases phase with ⟨-, busy⟩ | ⟨-, abandoned⟩
    · exact busy
    · rw [abandoned]; exact ExecStatus.noConfusion
  have answered := reply_frees busy .failed (t.failurePayload a)
  obtain ⟨more, said, noReply⟩ := fired.sent
  have said' : told'.sent = s.sent ++ more := by
    rw [told, ← effect.sent]
    exact said
  refine ⟨_, more, rfl, ?_, fun i other => ?_, ?_, fun gone => ?_, fun reached => ?_, fun under => ?_, fun locked => ?_, noReply,
    fun phase => ?_, fun phase => ?_, fun abandoned => ?_, fun executing => ?_⟩
  · rw [answered, told, ← period]
    exact here
  · rw [answered, told, ← effect.openAt]
    exact there i other
  · rw [answered]
  · rw [answered, told]
    exact absent (effect.authority.trans gone)
  · obtain ⟨firedEvent, guess⟩ := fires (by rwa [effect.triggers, counted])
    rw [answered]
    exact ⟨raised _ firedEvent, detail ▸ guess⟩
  · rw [answered, told, ← effect.table, ← effect.cache, ← effect.trigger, ← effect.authority]
    exact below (by rwa [effect.triggers, counted])
  · rw [answered, told] at locked
    rw [answered]
    exact raised _ (lockedOut locked)
  · rw [answered, settling phase]
    exact (mem_withEvent _ _ _).2 (.inl rfl)
  · rw [answered, verdict phase, ← effect.attemptCharged]
    exact ⟨fired.charged, fired.pending _⟩
  · rw [reply_abandoned (executor ▸ abandoned)]
    exact said'
  · have verdict : a.phase = .verdict false := phase.elim And.left fun settling => by
      cases executing.symm.trans settling.2
    have cred : settled.cred a.slot = t.cred a.slot := fired.cred a.slot
    have period' : settled.closedPeriodOf a.slot = closedPeriod (s.cred a.slot).policy (s.cred a.slot).failures := by
      rw [State.closedPeriodOf, cred, policy, failures]
    have clock : settled.clock = s.clock := fired.clock.trans effect.clock
    refine ⟨if (t.cred a.slot).state = .lockedOut ∨ closedPeriod (s.cred a.slot).policy (s.cred a.slot).failures = 0 then 0
      else settled.retryAfter a.slot, ?_, fun none' => ?_, fun remains some' => ?_⟩
    · rw [reply_eq _ _ _ (executor ▸ executing), executor, said', fields verdict, State.failedFields, cred, period', policy, failures]
    · rw [answered, told] at none'
      exact if_pos (none'.imp_left fun locked => cred ▸ locked)
    · rw [answered, told] at remains
      rw [if_neg (not_or.2 ⟨fun locked => remains (cred.symm ▸ locked), some'⟩), answered, told, State.retryAfter, clock]
      dsimp only
      omega

end Sys2Proof.Machine

namespace Sys2Proof.Machine

/-- A vector after one of its entries was set, read at an index of the model. -/
theorem set_here {α : Type} {n : Nat} (v : Vector α n) (i : Fin n) (x : α) : (v.set i x)[i] = x := Vector.getElem_set_self i.isLt

theorem set_there {α : Type} {n : Nat} (v : Vector α n) {i j : Fin n} (x : α) (other : j ≠ i) : (v.set i x)[j] = v[j] :=
  Vector.getElem_set_ne i.isLt j.isLt fun e => other (Fin.ext e.symm)

/-! ### The store cell by cell (R74, R75)

What an operation makes of the copies of each cell is said by `Store.onCell`, and what it leaves of everything else by `Store.book`. What is
said of a record in the store follows from what is said of its cell. -/

/-- What the store keeps beside its cells. -/
structure StoreBook where
  lastClosed : Count32
  writing : Option Writing
  queue : List Group
  held : List Group
  failed : List Cell
  writtenSince : List Cell
  wipeAccepted : Bool

def Store.book (st : Store) : StoreBook where
  lastClosed := st.lastClosed
  writing := st.writing
  queue := st.queue
  held := st.held
  failed := st.failed
  writtenSince := st.writtenSince
  wipeAccepted := st.wipeAccepted

namespace Store.onCell

variable {old new : Store} {c : Cell}

theorem mono {p q : {α : Type} → CellPair α → CellPair α → Prop} (m : old.onCell new p c)
    (h : ∀ {α : Type} (a b : CellPair α), p a b → q a b) : old.onCell new q c := by
  cases c <;> exact h _ _ m

theorem and {p q : {α : Type} → CellPair α → CellPair α → Prop} (m : old.onCell new p c) (n : old.onCell new q c) :
    old.onCell new (fun x y => p x y ∧ q x y) c := by
  cases c <;> exact ⟨m, n⟩

theorem trans {mid : Store} {p q r : {α : Type} → CellPair α → CellPair α → Prop} (m : old.onCell mid p c) (n : mid.onCell new q c)
    (h : ∀ {α : Type} (x y z : CellPair α), p x y → q y z → r x z) : old.onCell new r c := by
  cases c <;> exact h _ _ _ m n

/-- A copy that stays holds the records that it held. -/
theorem isCopy_iff {q : Record} {side : Side} (m : old.onCell new (fun x y => y.copy side = x.copy side) q.cell) (version tag : Count32)
    (passes : Bool) : q.isCopy new side version tag passes ↔ q.isCopy old side version tag passes := by
  cases q <;> exact iff_of_eq (congrArg (· = _) m)

theorem effectiveSide_eq (m : old.onCell new (fun x y => y.effective = x.effective) c) : new.effectiveSide c = old.effectiveSide c := by
  cases c <;> exact m

theorem effective {side : Side} (e : old.effectiveSide c = some side) : old.onCell new (fun x _ => x.effective = some side) c := by
  cases c <;> exact e

/-- Which group is being written is no matter of the cells. -/
theorem withWriting {p : {α : Type} → CellPair α → CellPair α → Prop} (m : old.onCell new p c) (w : Option Writing) :
    old.onCell { new with writing := w } p c := by
  cases c <;> exact m

end Store.onCell

/-- What is read of a cell stays: so does which record is in effect (R80). -/
theorem inEffect_iff {s t : State} {q : Record} (m : s.store.onCell t.store (fun x y => ∀ lost, y.read lost = x.read lost) q.cell) :
    q.inEffect t ↔ q.inEffect s := by
  cases q <;> exact iff_of_eq (congrArg (· = _) (m _))

section Cells

variable (st : Store)

theorem onCell_refl (c : Cell) : st.onCell st (fun x y => y = x) c := by
  cases c <;> rfl

@[simp] theorem mapCell_book (f : {α : Type} → CellPair α → CellPair α) (c : Cell) : (st.mapCell f c).book = st.book := by
  cases c <;> rfl

theorem mapCell_here (f : {α : Type} → CellPair α → CellPair α) (c : Cell) : st.onCell (st.mapCell f c) (fun x y => y = f x) c := by
  cases c with
  | cred i => exact set_here _ _ _
  | range r => exact set_here _ _ _
  | _ => rfl

theorem mapCell_there (f : {α : Type} → CellPair α → CellPair α) {c d : Cell} (other : d ≠ c) :
    st.onCell (st.mapCell f c) (fun x y => y = x) d := by
  cases c with
  | cred i =>
    cases d with
    | cred j => exact set_there _ _ fun e => other (congrArg Cell.cred e)
    | _ => rfl
  | range r =>
    cases d with
    | range q => exact set_there _ _ fun e => other (congrArg Cell.range e)
    | _ => rfl
  | _ => cases d <;> simp_all [Store.onCell, Store.mapCell]

variable (tag : Count32) (passes : Bool)

@[simp] theorem writeRecord_book (r : Record) : (st.writeRecord tag passes r).book = st.book := by
  cases r <;> rfl

/-- The write of a record writes the target of its cell. -/
theorem writeRecord_here (r : Record) :
    st.onCell (st.writeRecord tag passes r) (fun x y => ∃ content, y = x.writeTarget content tag passes) r.cell := by
  cases r with
  | cred i r => exact ⟨r, set_here _ _ _⟩
  | range n r => exact ⟨r, set_here _ _ _⟩
  | _ => exact ⟨_, rfl⟩

theorem writeRecord_there {r : Record} {d : Cell} (other : d ≠ r.cell) :
    st.onCell (st.writeRecord tag passes r) (fun x y => y = x) d := by
  cases r with
  | cred i r =>
    cases d with
    | cred j => exact set_there _ _ fun e => other (congrArg Cell.cred e)
    | _ => rfl
  | range n r =>
    cases d with
    | range q => exact set_there _ _ fun e => other (congrArg Cell.range e)
    | _ => rfl
  | _ => cases d <;> simp_all [Store.onCell, Store.writeRecord, Record.cell]

/-- The copy that is not effective holds the record that was written, with the effective version plus 1 (R75). -/
theorem writeRecord_isCopy {r old : Record} {side : Side} {version before : Count32} {check : Bool}
    (effective : st.effectiveSide r.cell = some side) (cell : old.cell = r.cell) (copy : old.isCopy st side version before check) :
    r.isCopy (st.writeRecord tag passes r) (otherSide side) (version + 1) tag passes := by
  have written {α : Type} {x : CellPair α} {content was : α} (e : x.effective = some side)
      (c : x.copy side = ⟨was, version, before, check⟩) :
      (x.writeTarget content tag passes).copy (otherSide side) = ⟨content, version + 1, tag, passes⟩ := by
    rw [writeTarget_eq _ _ _ _ _ e, copy_setCopy_same, c]
  cases r with
  | cred i r =>
    cases old <;> cases cell
    exact (congrArg (fun x => CellPair.copy x _) (set_here _ _ _)).trans (written effective copy)
  | range n r =>
    cases old <;> cases cell
    exact (congrArg (fun x => CellPair.copy x _) (set_here _ _ _)).trans (written effective copy)
  | _ =>
    cases old <;> cases cell
    exact written effective copy

end Cells

theorem Record.isCopy.withWriting {st : Store} {q : Record} {side : Side} {version tag : Count32} {passes : Bool}
    (m : q.isCopy st side version tag passes) (w : Option Writing) : q.isCopy { st with writing := w } side version tag passes := by
  cases q <;> exact m

/-! #### What a write leaves of a cell (R75) -/

theorem setCopy_effective {α : Type} (x : CellPair α) (side : Side) (y : CellCopy α) : (x.setCopy side y).effective = x.effective := by
  cases side <;> rfl

theorem copy_setCopy_otherSide {α : Type} (x : CellPair α) (side : Side) (y : CellCopy α) :
    (x.setCopy (otherSide side) y).copy side = x.copy side := by
  cases side <;> rfl

/-- The effective copy stays, and stays effective. -/
def CellPair.KeepsEffective {α : Type} (x y : CellPair α) : Prop :=
  y.effective = x.effective ∧ ∀ side, x.effective = some side → y.copy side = x.copy side

theorem CellPair.KeepsEffective.refl {α : Type} (x : CellPair α) : x.KeepsEffective x := ⟨rfl, fun _ _ => rfl⟩

/-- What the owners read of the cell stays (R80). -/
theorem CellPair.KeepsEffective.read {α : Type} {x y : CellPair α} (h : x.KeepsEffective y) (lost : α) : y.read lost = x.read lost := by
  obtain ⟨effective, copy⟩ := h
  rw [CellPair.read, CellPair.read, effective]
  split
  · next side e => rw [copy side e]
  · rfl

/-- What is put in place of the target leaves the effective copy (R75). -/
theorem setCopy_target_keeps {α : Type} (x : CellPair α) (y : CellCopy α) : x.KeepsEffective (x.setCopy x.target y) := by
  refine ⟨setCopy_effective _ _ _, fun side e => ?_⟩
  have target : x.target = otherSide side := by rw [CellPair.target, e]
  rw [target, copy_setCopy_otherSide]

theorem writeTarget_keeps {α : Type} (x : CellPair α) (content : α) (tag : Count32) (passes : Bool) :
    x.KeepsEffective (x.writeTarget content tag passes) := setCopy_target_keeps _ _

/-- A write of one record leaves the effective copy of every cell. -/
theorem writeRecord_keeps (st : Store) (tag : Count32) (passes : Bool) (r : Record) (c : Cell) :
    st.onCell (st.writeRecord tag passes r) CellPair.KeepsEffective c := by
  by_cases here : c = r.cell
  · subst here
    refine (writeRecord_here st tag passes r).mono fun x y => ?_
    rintro ⟨content, rfl⟩
    exact writeTarget_keeps _ _ _ _
  · refine (writeRecord_there st tag passes here).mono fun x y => ?_
    rintro rfl
    exact .refl _

/-! ### Writes of the writing group (R77) -/

theorem exec_copyWriteDone {s : State} (powered : s.power.powered = true) (passed : Bool) :
    exec (.copyWriteDone passed) s = .next (settle (s.copyWriteDone passed)) :=
  congrArg Host.Outcome.next (whilePowered_on _ powered)

theorem copyWriteDone_going {s : State} {passed : Bool} {st : Store} (h : s.store.writeDone passed = .going st) :
    s.copyWriteDone passed = { s with store := st } := by
  rw [State.copyWriteDone, h]

theorem writeDone_copies {st : Store} {w : Writing} {i k : Nat} (writing : st.writing = some w) (stage : w.stage = .copies i k)
    (passed : Bool) : st.writeDone passed = st.copyWritten w i k passed := by
  simp only [Store.writeDone, writing, stage]

theorem copyWritten_passed (st : Store) {w : Writing} {i : Nat} {r : Record} (record : w.group.records[i]? = some r) (k : Nat) :
    st.copyWritten w i k true = .going { st.writeRecord w.number true r with writing := some { w with
      stage := if i + 1 = w.group.records.length then .marker 0 else .copies (i + 1) 0 } } := by
  rw [Store.copyWritten, record]
  rfl

/-- Settles O19: the group goes on, and each cell is the written one or another one. -/
theorem copyWriteGoesToTarget : Obligations.CopyWriteGoesToTarget := by
  intro s w i k record old side version tag passes powered writing stage listed effective cell copy
  have goes := (writeDone_copies writing stage true).trans (copyWritten_passed s.store listed k)
  have written := writeRecord_isCopy s.store w.number true effective cell copy
  have kept := writeRecord_keeps s.store w.number true record
  have there := fun d => writeRecord_there s.store w.number true (r := record) (d := d)
  have book := writeRecord_book s.store w.number true record
  refine ⟨_, exec_copyWriteDone powered true, ?_⟩
  rw [copyWriteDone_going goes]
  generalize s.store.writeRecord w.number true record = st at *
  have apart : record.cell ≠ .profile ∧ record.cell ≠ .marker := by cases record <;> exact ⟨nofun, nofun⟩
  have copies (q : Record) (which : Side) (other : q.cell ≠ record.cell ∨ which = side) :
      s.store.onCell st (fun x y => y.copy which = x.copy which) q.cell := by
    by_cases same : q.cell = record.cell
    · obtain rfl := other.resolve_left fun apart => apart same
      rw [same]
      exact ((kept _).and (Store.onCell.effective effective)).mono fun x y h => h.1.2 _ h.2
    · exact (there _ same).mono fun x y e => by rw [e]
  refine ⟨rfl, written.withWriting _, fun q which v g p other => ((copies q which other).withWriting _).isCopy_iff v g p,
    fun c => (((kept c).mono fun _ _ h => h.1).withWriting _).effectiveSide_eq, there _ apart.1.symm, there _ apart.2.symm,
    congrArg StoreBook.lastClosed book, congrArg StoreBook.queue book, congrArg StoreBook.held book, congrArg StoreBook.failed book, rfl⟩

end Sys2Proof.Machine

namespace Sys2Proof.Machine

/-! ### A request refused, and what it leaves of the part (R20, R85) -/

/-- From `s` to `t` the Range Table and the Key Cache have drained entries and changed service states alone (R5, R35). -/
structure Drains (s t : State) : Prop where
  locks : ∀ r : RangeId, t.table[r].readLocked = s.table[r].readLocked ∧ t.table[r].writeLocked = s.table[r].writeLocked
  keys : ∀ o, t.key o = s.key o ∨ t.key o = (s.key o).drain

theorem Drains.refl (s : State) : Drains s s := ⟨fun _ => ⟨rfl, rfl⟩, fun _ => .inl rfl⟩

theorem Drains.trans {s t u : State} (h : Drains s t) (k : Drains t u) : Drains s u where
  locks r := ⟨(k.locks r).1.trans (h.locks r).1, (k.locks r).2.trans (h.locks r).2⟩
  keys o := by
    rcases h.keys o with e | e <;> rcases k.keys o with d | d <;> simp only [d, e, drain_drain, true_or, or_true]

theorem Drains.drain {s t : State} (h : Drains s t) (o : Owner) : (t.key o).drain = (s.key o).drain := by
  rcases h.keys o with e | e <;> simp only [e, drain_drain]

/-- One state with the locks and the keys of another. -/
theorem Drains.same {s t u : State} (h : Drains s t) (table : u.table = t.table) (cache : u.cache = t.cache)
    (shadow : u.shadowEntry = t.shadowEntry) : Drains s u where
  locks r := by rw [table]; exact h.locks r
  keys o := by
    have key : u.key o = t.key o := by
      cases o with
      | range r => exact congrArg (·[r]) cache
      | shadow => exact shadow
    rw [key]; exact h.keys o

theorem drains_revertRange (p : RangeId × Service) (s : State) : Drains s (State.revertRange p s) := by
  have view (r : RangeId) := view_revertRange s p r
  have here : (State.revertRange p s).view p.1 = (s.view p.1).revert (s.range p.1).fields p.2 := (view _).trans (if_pos rfl)
  have seen : ((s.view p.1).revert (s.range p.1).fields p.2).live.readLocked = s.table[p.1].readLocked ∧
      ((s.view p.1).revert (s.range p.1).fields p.2).live.writeLocked = s.table[p.1].writeLocked ∧
      (((s.view p.1).revert (s.range p.1).fields p.2).key = s.key (.range p.1) ∨
        ((s.view p.1).revert (s.range p.1).fields p.2).key = (s.key (.range p.1)).drain) := by
    by_cases updating : (s.view p.1).live.service = .updating
    · obtain ⟨live, key⟩ := revert_of_updating (f := (s.range p.1).fields) (before := p.2) updating
      rw [live, key]
      refine ⟨rfl, rfl, ?_⟩
      split
      · exact .inr rfl
      · exact .inl rfl
    · rw [RangeView.revert, if_neg updating]
      exact ⟨rfl, rfl, .inl rfl⟩
  rw [← here] at seen
  refine ⟨fun r => ?_, fun o => ?_⟩
  · by_cases e : r = p.1
    · subst e
      exact ⟨seen.1, seen.2.1⟩
    · have there := congrArg RangeView.live ((view r).trans (if_neg e))
      exact ⟨congrArg RangeLive.readLocked there, congrArg RangeLive.writeLocked there⟩
  · cases o with
    | range r =>
      by_cases e : r = p.1
      · subst e
        exact seen.2.2
      · exact .inl (congrArg RangeView.key ((view r).trans (if_neg e)))
    | shadow =>
      refine .inl ?_
      unfold State.revertRange State.drainIfClosed
      split
      · split <;> rfl
      · rfl

/-- The answer to a request that cannot go on leaves the rest of the part as it was. -/
structure Answers (s t : State) : Prop extends Drains s t where
  rest : t = { s with
    table := t.table, cache := t.cache, executor := t.executor, authTimer := t.authTimer, sent := t.sent
    binding := { s.binding with freshSecret := t.binding.freshSecret } }
  timer : s.authTimer = none → t.authTimer = none

theorem Answers.refl (s : State) : Answers s s := ⟨.refl s, rfl, id⟩

theorem answers_reply {s t : State} (h : Answers s t) (code : Code) (payload : Payload) : Answers s (t.reply code payload) := by
  unfold State.reply
  split
  · exact ⟨h.toDrains.same rfl rfl rfl, by rw [h.rest]; rfl, fun _ => rfl⟩
  · exact ⟨h.toDrains.same rfl rfl rfl, by rw [h.rest], h.timer⟩
  · exact h

theorem answers_revertCommit (s : State) (c : Commit) : Answers s (s.revertCommit c) := by
  have frame := revertCommit_frame s c
  have drains (l : List (RangeId × Service)) (s : State) : Drains s (forEach l State.revertRange s) := by
    induction l generalizing s with
    | nil => exact .refl s
    | cons p l ih => exact (drains_revertRange p s).trans (ih _)
  exact ⟨drains c.affected s, by rw [frame], fun gone => by rw [frame]; exact gone⟩

theorem answers_refuseJob (s : State) : Answers s s.refuseJob := by
  unfold State.refuseJob
  split
  · unfold State.endCommit
    split
    · exact answers_reply (answers_revertCommit s _) _ _
    · exact .refl s
  · exact answers_reply (t := s.setBinding { s.binding with freshSecret := none }) ⟨(Drains.refl s).same rfl rfl rfl, rfl, id⟩ _ _
  · exact answers_reply (.refl s) _ _

theorem answers_refuseWipe (s : State) : Answers s s.refuseWipe := by
  unfold State.refuseWipe
  split
  · exact answers_reply (.refl s) _ _
  · exact .refl s

theorem answers_refuseWaiting (s : State) : Answers s s.refuseWaiting := by
  unfold State.refuseWaiting
  split
  · split
    · exact answers_refuseJob s
    · exact answers_refuseJob s
    · exact .refl s
  · exact .refl s

/-- The submitter of a failed group is told: the request in execution is answered, and the Wipe Engine's plan is as last closed. -/
theorem groupFailed_answers (g : Group) (s : State) : Answers s (s.groupFailed g) ∨ Answers s.wipeFailed (s.groupFailed g) := by
  unfold State.groupFailed
  split
  · split
    · exact .inl (answers_refuseJob s)
    · exact .inl (.refl s)
  · split
    · exact .inr (answers_refuseWipe _)
    · exact .inr (.refl _)
  · exact .inl (.refl s)

/-! ### Entry into FAILSAFE (R85) -/

/-- The part with its entries drained and its enabled directions closed. -/
@[irreducible] def State.allClosed (s : State) : State := forEach allOwners (fun o s => s.drainKey o) s.endAuthority.relock

/-- The part at entry into FAILSAFE, before a request that waits is answered: nothing goes on but the transfers (R85). -/
def State.stilled (s : State) : State := s.allClosed.stopOverwrite.wipeFailed.stopExchange

theorem enterFailsafe_eq (s : State) : s.enterFailsafe =
    { s.stilled.refuseWaiting with power := { s.stilled.refuseWaiting.power with part := .failsafe, hold := false, drained := false } } := by
  unfold State.enterFailsafe State.stilled State.allClosed
  rfl

theorem relock_frame (s : State) : s.relock = { s with table := s.relock.table, cache := s.relock.cache } := by
  have step (r : RangeId) (u : State) : ({ (u.closeRange r).drainIfClosed r with table := s.table, cache := s.cache } : State) =
      { u with table := s.table, cache := s.cache } := by
    unfold State.drainIfClosed
    split <;> rfl
  have frame := forEach_keeps (fun u : State => ({ u with table := s.table, cache := s.cache } : State)) _ step allRanges s
  unfold State.relock
  generalize forEach allRanges _ s = t at frame ⊢
  have back := congrArg (fun u : State => ({ u with table := t.table, cache := t.cache } : State)) frame
  exact back

theorem relock_keys (s : State) (o : Owner) : s.relock.key o = s.key o ∨ s.relock.key o = (s.key o).drain := by
  have visit (l : List RangeId) (u : State) (h : u.key o = s.key o ∨ u.key o = (s.key o).drain) :
      (forEach l (fun r s => (s.closeRange r).drainIfClosed r) u).key o = s.key o ∨
        (forEach l (fun r s => (s.closeRange r).drainIfClosed r) u).key o = (s.key o).drain := by
    induction l generalizing u with
    | nil => exact h
    | cons r l ih =>
      refine ih _ ?_
      have closed : (u.closeRange r).key o = u.key o := by cases o <;> rfl
      show ((u.closeRange r).drainIfClosed r).key o = _ ∨ ((u.closeRange r).drainIfClosed r).key o = _
      unfold State.drainIfClosed
      split
      · rw [State.drainKey, key_modKey, closed]
        split
        · rcases h with e | e <;> simp only [e, drain_drain, or_true]
        · exact h
      · rw [closed]; exact h
  exact visit allRanges s (.inl rfl)

theorem drainAll_frame (s : State) : forEach allOwners (fun o s => s.drainKey o) s =
    { s with cache := (forEach allOwners (fun o s => s.drainKey o) s).cache
             shadowEntry := (forEach allOwners (fun o s => s.drainKey o) s).shadowEntry } := by
  have frame := forEach_keeps (fun u : State => ({ u with cache := s.cache, shadowEntry := s.shadowEntry } : State))
    (fun o s => s.drainKey o) (fun o u => by cases o <;> rfl) allOwners s
  generalize forEach allOwners (fun o s => s.drainKey o) s = t at frame ⊢
  have back := congrArg (fun u : State => ({ u with cache := t.cache, shadowEntry := t.shadowEntry } : State)) frame
  exact back

/-- What a drain of an entry leaves of it (R35). -/
theorem drain_eq (k : KeyEntry) : k.drain = if k.state = .live then (if k.refs = 0 then emptyKey else { k with state := .draining }) else k := by
  unfold KeyEntry.drain
  split
  · next live =>
    rw [if_pos live]
    split
    · next refs => rw [KeyEntry.erase, refs]; rfl
    · rfl
  · next empty => rw [if_neg (by rw [empty]; exact KeyState.noConfusion)]
  · next draining => rw [if_neg (by rw [draining]; exact KeyState.noConfusion)]

section Stilled

variable (s : State)

theorem allClosed_frame : s.allClosed = { s with
    authority := none, authTimer := none, table := s.allClosed.table, cache := s.allClosed.cache
    shadowEntry := s.allClosed.shadowEntry } := by
  have relocked := relock_frame s.endAuthority
  have drained := drainAll_frame s.endAuthority.relock
  unfold State.allClosed
  generalize s.endAuthority.relock = v at *
  generalize forEach allOwners (fun o s => s.drainKey o) v = u at *
  rw [drained, relocked]
  rfl

theorem stopped_frame : s.stopOverwrite.wipeFailed.stopExchange = { s with
    lanes := s.stopOverwrite.lanes, derivations := s.derivations.filter (fun d => d ≠ .wipeEngine)
    wipe := { s.wipeFailed.wipe with asked := false }
    binding := { s.binding with
      exchange := .none, reference := none, challenge := none, firstHalf := none, freshSecret := none, recheck := none } } := by
  have stopped := stopOverwrite_eq s
  generalize s.stopOverwrite = u at *
  rw [stopped]
  rfl

theorem stilled_frame : s.stilled = { s with
    authority := none, authTimer := none, table := s.stilled.table, cache := s.stilled.cache, shadowEntry := s.stilled.shadowEntry
    lanes := s.stilled.lanes, derivations := s.derivations.filter (fun d => d ≠ .wipeEngine)
    wipe := { s.wipeFailed.wipe with asked := false }
    binding := { s.binding with
      exchange := .none, reference := none, challenge := none, firstHalf := none, freshSecret := none, recheck := none } } := by
  have closed := allClosed_frame s
  have stopped := stopped_frame s.allClosed
  unfold State.stilled
  generalize s.allClosed = u at *
  generalize u.stopOverwrite.lanes = lanes at *
  rw [stopped, closed]
  rfl

theorem stilled_table (r : RangeId) : s.stilled.table[r] =
    { s.table[r] with readLocked := (s.range r).fields.readLock, writeLocked := (s.range r).fields.writeLock } := by
  have locks := relock_table s.endAuthority r
  have drained : s.allClosed.table = s.endAuthority.relock.table := by
    unfold State.allClosed
    exact forEach_keeps State.table _ (fun o u => drainKey_table u o) allOwners _
  have table := congrArg State.table (stopped_frame s.allClosed)
  rw [drained] at table
  exact (congrArg (·[r]) table).trans locks

theorem stilled_key (o : Owner) : s.stilled.key o = (s.key o).drain := by
  have drained : s.allClosed.key o = (s.endAuthority.relock.key o).drain := by
    unfold State.allClosed
    exact (key_forEach_modKey KeyEntry.drain allOwners_nodup s.endAuthority.relock o).trans (if_pos (allOwners_mem o))
  have stopped := congrArg (fun u : State => u.key o) (stopped_frame s.allClosed)
  have key : s.stilled.key o = s.allClosed.key o := by
    refine Eq.trans stopped ?_
    cases o <;> rfl
  have same : s.endAuthority.key o = s.key o := by cases o <;> rfl
  rw [key, drained]
  rcases relock_keys s.endAuthority o with e | e <;> simp only [e, same, drain_drain]

theorem stilled_lanes (l : LaneId) :
    s.stilled.lanes[l] = if s.overwriteLane = some l then s.lanes[l].overwriteStopped else s.lanes[l] := by
  have stopped := stopOverwrite_lane s.allClosed l
  have lanes := congrArg State.lanes (allClosed_frame s)
  dsimp only at lanes
  rw [State.overwriteLane, lanes] at stopped
  have stilled := congrArg State.lanes (stopped_frame s.allClosed)
  exact (congrArg (·[l]) stilled).trans stopped

end Stilled

end Sys2Proof.Machine

namespace Sys2Proof.Machine

/-! ### A group that has failed, with nothing queued behind it (R81, R85) -/

/-- Nothing is left to write in `st'`, whose cells are those of `st` (R81). -/
structure Ceased (st st' : Store) : Prop where
  cells : ∀ c, st.onCell st' (fun x y => y = x) c
  lastClosed : st'.lastClosed = st.lastClosed
  writing : st'.writing = none
  queue : st'.queue = []
  held : st'.held = []

/-- With nothing queued or held the failure of a group leaves the store with nothing to write. -/
theorem fail_alone {st : Store} (queue : st.queue = []) (held : st.held = []) (g : Group) (cells : List Cell) (keep entering : Bool) :
    Ceased st (st.fail g cells keep entering) ∧
      (st.fail g cells keep entering).failed = cells.foldl (fun l c => insertNew c l) st.failed := by
  have fails : st.fail g cells keep entering = { st with
      writing := none, failed := cells.foldl (fun l c => insertNew c l) st.failed, wipeAccepted := false
      writtenSince := if entering then [] else st.writtenSince.filter (fun c => c ∉ cells) } := by
    unfold Store.fail Store.releaseHeld Store.beginNext
    cases keep <;> simp [queue, held]
  rw [fails]
  exact ⟨⟨fun c => by cases c <;> rfl, rfl, rfl, queue, held⟩, rfl⟩

theorem mem_foldl_insertNew {α : Type} [DecidableEq α] {x : α} {l : List α} (m : List α) (h : x ∈ l ∨ x ∈ m) :
    x ∈ m.foldl (fun l c => insertNew c l) l := by
  induction m generalizing l with
  | nil => simpa using h
  | cons a m ih =>
    refine ih (h.elim (fun h => .inl (mem_insertNew _ _ _ h)) fun h => ?_)
    rcases List.mem_cons.1 h with rfl | h
    · refine .inl ?_
      show x ∈ insertNew x l
      unfold insertNew
      split
      · assumption
      · exact List.mem_append_right _ (List.mem_singleton.2 rfl)
    · exact .inr h

theorem refuseWaiting_resting {s : State} (job : s.executor.job = .immediate) : s.refuseWaiting = s := by
  unfold State.refuseWaiting
  split
  · simp only [job]
  · rfl

theorem keptPlan_alone {s : State} (writing : s.store.writing = none) (queue : s.store.queue = []) (held : s.store.held = []) :
    s.keptPlan = s.plan := by
  simp [State.keptPlan, State.keptWipeGroups, Store.waitingGroups, writing, queue, held]

theorem groupFailed_power (g : Group) (s : State) : (s.groupFailed g).power = s.power := by
  rcases groupFailed_answers g s with h | h <;> rw [h.rest]
  rfl

/-- The group's submitter is told FAILED, and the part enters FAILSAFE. -/
theorem storeFailed_alone {s : State} (going : s.power.restarting = false) (queue : s.store.queue = []) (held : s.store.held = [])
    (g : Group) (cells : List Cell) : ∃ st : Store, Ceased s.store st ∧ (∀ c ∈ cells, c ∈ st.failed) ∧ (∀ c ∈ s.store.failed, c ∈ st.failed) ∧
      s.storeFailed g cells = (({ s with store := st } : State).groupFailed g).enterFailsafe.raise .storeFault := by
  obtain ⟨ceased, failed⟩ := fail_alone queue held g cells s.store.wipeAccepted (s.power.part != PartState.failsafe)
  refine ⟨_, ceased, fun c m => failed ▸ mem_foldl_insertNew cells (.inr m), fun c m => failed ▸ mem_foldl_insertNew cells (.inl m), ?_⟩
  have running (st : Store) : (({ s with store := st } : State).groupFailed g).power.restarting = false := by
    rw [groupFailed_power]
    exact going
  have waiting : (if s.store.wipeAccepted then [] else s.store.queue ++ s.store.held) = [] := by
    rw [queue, held]
    exact ite_self _
  unfold State.storeFailed
  dsimp only
  rw [waiting, running, if_neg Bool.false_ne_true]
  rfl

/-! #### What entry into FAILSAFE leaves (R85) -/

/-- Entry into FAILSAFE from a part `u` that differs from `b` by an answer, and `b` from `s` in the store and the Wipe Engine. -/
theorem failsafeEntered_of_answers {s b u : State} {st : Store}
    (base : b = { s with store := b.store, wipe := b.wipe, derivations := b.derivations })
    (cells : ∀ c, s.store.onCell b.store CellPair.KeepsEffective c) (ceased : Ceased st b.store) (closed : st.lastClosed = s.store.lastClosed)
    (told : Answers b u) : failsafeEntered s (u.enterFailsafe.raise .storeFault) := by
  have store : u.store = b.store := by rw [told.rest]
  have range (r : RangeId) : u.range r = s.range r := by
    have read := (cells (.range r)).read (lostRange r)
    rw [← store] at read
    exact read
  have plan : u.wipeFailed.wipe.intended = s.plan := by
    have read := (cells .plan).read emptyPlan
    rw [← store] at read ceased
    exact (keptPlan_alone ceased.writing ceased.queue ceased.held).trans read
  have keys (o : Owner) : (u.key o).drain = (s.key o).drain := by
    have same : b.key o = s.key o := by
      rw [base]
      cases o <;> rfl
    rw [told.drain, same]
  have lanes : u.lanes = s.lanes := by rw [told.rest, base]
  have stopped (l : LaneId) : u.stilled.lanes[l] = if s.overwriteLane = some l then s.lanes[l].overwriteStopped else s.lanes[l] := by
    rw [stilled_lanes, State.overwriteLane, lanes]
    rfl
  have drained := stilled_key u
  have table := stilled_table u
  have stilled := stilled_frame u
  have waits := answers_refuseWaiting u.stilled
  rw [enterFailsafe_eq]
  generalize u.stilled.refuseWaiting = v at *
  generalize u.stilled = z at *
  have power : v.power = s.power := by rw [waits.rest, stilled, told.rest, base]
  have wipe : v.wipe = { u.wipeFailed.wipe with asked := false } := by rw [waits.rest, stilled]
  have binding : v.binding.exchange = .none ∧ v.binding.state = s.binding.state := by
    rw [waits.rest, stilled, told.rest, base]
    exact ⟨rfl, rfl⟩
  have kept : v.store = b.store := by rw [waits.rest, stilled, store]
  refine ⟨?_, ?_, waits.timer (by rw [stilled]), (mem_withEvent _ _ _).2 (.inl rfl), ?_, ?_, ?_, ?_, fun r => ?_, fun o => ?_, ?_,
    fun l => ?_, (congrArg Wipe.intended wipe).trans plan, congrArg Wipe.asked wipe, congrArg Wipe.key wipe, congrArg Wipe.position wipe,
    congrArg Wipe.count wipe, binding.1, binding.2⟩
  · exact congrArg (fun p : Power => { p with part := .failsafe, hold := false, drained := false }) power
  · show v.authority = none
    rw [waits.rest, stilled]
  · exact (congrArg Store.lastClosed kept).trans (ceased.lastClosed.trans closed)
  · exact (congrArg Store.writing kept).trans ceased.writing
  · exact (congrArg Store.queue kept).trans ceased.queue
  · exact (congrArg Store.held kept).trans ceased.held
  · obtain ⟨read, write⟩ := waits.locks r
    rw [table r, range] at read write
    exact ⟨read, write⟩
  · have key : v.key o = (s.key o).drain := by
      rcases waits.keys o with e | e <;> simp only [e, drained, drain_drain, keys]
    rw [← drain_eq, ← key]
    cases o <;> rfl
  · show v.inflight = _
    rw [waits.rest, stilled, told.rest, base]
  · have lane : v.lanes = z.lanes := by rw [waits.rest]
    exact (congrArg (·[l]) lane).trans (stopped l)

/-- A group that fails with nothing queued behind it takes a part that runs into FAILSAFE. -/
theorem storeFailed_enters {s : State} {st : Store} (going : s.power.restarting = false) (queue : st.queue = []) (held : st.held = [])
    (kept : ∀ c, s.store.onCell st CellPair.KeepsEffective c) (closed : st.lastClosed = s.store.lastClosed) (g : Group)
    (cells : List Cell) :
    failsafeEntered s (({ s with store := st } : State).storeFailed g cells) ∧
      (∀ c ∈ cells, c ∈ (({ s with store := st } : State).storeFailed g cells).store.failed) ∧
      ∀ c ∈ st.failed, c ∈ (({ s with store := st } : State).storeFailed g cells).store.failed := by
  obtain ⟨st', ceased, new, before, fails⟩ := storeFailed_alone (s := { s with store := st }) going queue held g cells
  have cells' (c : Cell) : s.store.onCell st' CellPair.KeepsEffective c :=
    (kept c).trans (ceased.cells c) fun x y z h e => by rw [e]; exact h
  rw [fails]
  have told := groupFailed_answers g ({ s with store := st' } : State)
  generalize ({ s with store := st' } : State).groupFailed g = u at told ⊢
  have store : (u.enterFailsafe.raise .storeFault).store = st' := by
    have waits := answers_refuseWaiting u.stilled
    have stilled := stilled_frame u
    rw [enterFailsafe_eq]
    show u.stilled.refuseWaiting.store = st'
    rw [waits.rest, stilled]
    rcases told with told | told <;> rw [told.rest]
    rfl
  rw [store]
  refine ⟨?_, new, before⟩
  rcases told with told | told
  · exact failsafeEntered_of_answers rfl cells' ceased closed told
  · exact failsafeEntered_of_answers (b := ({ s with store := st' } : State).wipeFailed) rfl cells' ceased closed told

/-! #### The answers to the requests that meet it (R81, R85) -/

theorem enterFailsafe_resting {s : State} (job : s.executor.job = .immediate) :
    s.enterFailsafe.executor = s.executor ∧ s.enterFailsafe.sent = s.sent := by
  have stilled := stilled_frame s
  have resting : s.stilled.refuseWaiting = s.stilled := refuseWaiting_resting (by rw [stilled]; exact job)
  rw [enterFailsafe_eq, resting]
  generalize s.stilled = z at *
  rw [stilled]
  exact ⟨rfl, rfl⟩

/-- A charge whose group has failed is answered, and nothing waits at the entry. -/
theorem groupFailed_attempt {s : State} {g : Group} {a : Attempt} (submitter : g.submitter = .executor)
    (request : Effect.request ∈ g.effects) (executing : s.executor.status = .executing) (job : s.executor.job = .attempt a) :
    (s.groupFailed g).enterFailsafe.executor = freeExecutor ∧
      (s.groupFailed g).enterFailsafe.sent = s.sent ++ [replyTo s.executor.kind s.executor.tag .storeFault .none] := by
  have told : s.groupFailed g = s.reply .storeFault := by
    simp only [State.groupFailed, submitter, if_pos request, State.refuseJob, job]
  rw [told, reply_eq _ _ _ executing]
  exact enterFailsafe_resting rfl

/-- A RANGE-COMMIT in its drain wait is answered, and its ranges return to their previous states (R85, R20). -/
theorem enterFailsafe_commit {s : State} {c : Commit} (executing : s.executor.status = .executing) (stage : s.executor.stage = .working)
    (job : s.executor.job = .commit c) (nodup : (c.affected.map (·.1)).Nodup) :
    s.enterFailsafe.executor = freeExecutor ∧
      s.enterFailsafe.sent = s.sent ++ [replyTo s.executor.kind s.executor.tag .storeFault .none] ∧
      ∀ p ∈ c.affected, s.table[p.1].service = .updating → s.enterFailsafe.table[p.1].service = p.2 := by
  have stilled := stilled_frame s
  have table := stilled_table s
  rw [enterFailsafe_eq]
  generalize s.stilled = z at *
  have executor : z.executor = s.executor := by rw [stilled]
  have sent : z.sent = s.sent := by rw [stilled]
  have refused : z.refuseWaiting = (z.revertCommit c).reply .storeFault := by
    simp only [State.refuseWaiting, executor, stage, job, if_true, State.refuseJob, State.endCommit, State.commit]
  have frame := revertCommit_frame z c
  obtain ⟨affected, -⟩ := revertCommit_view z c nodup
  rw [refused, reply_eq _ _ _ (by rw [frame, executor]; exact executing)]
  refine ⟨rfl, ?_, fun p m updating => ?_⟩
  · show (z.revertCommit c).sent ++ [replyTo (z.revertCommit c).executor.kind (z.revertCommit c).executor.tag .storeFault .none] = _
    rw [frame, executor, sent]
  · have live := congrArg RangeView.live (affected p m)
    have back := (revert_of_updating (f := (z.range p.1).fields) (before := p.2) (v := z.view p.1)
      (by rw [view_live, table]; exact updating)).1
    exact congrArg RangeLive.service (live.trans back)

/-- A BIND-ENROLL in its exchange is answered, and its secret is erased (R85, R102). -/
theorem enterFailsafe_enrol {s : State} {recheck : Option Nat} {digest : Option Word16} (executing : s.executor.status = .executing)
    (stage : s.executor.stage = .working) (job : s.executor.job = .enrol recheck digest) :
    s.enterFailsafe.executor = freeExecutor ∧
      s.enterFailsafe.sent = s.sent ++ [replyTo s.executor.kind s.executor.tag .storeFault .none] ∧
      s.enterFailsafe.binding.freshSecret = none := by
  have stilled := stilled_frame s
  rw [enterFailsafe_eq]
  generalize s.stilled = z at *
  have executor : z.executor = s.executor := by rw [stilled]
  have sent : z.sent = s.sent := by rw [stilled]
  have refused : z.refuseWaiting = (z.setBinding { z.binding with freshSecret := none }).reply .storeFault := by
    simp only [State.refuseWaiting, executor, stage, job, if_true, State.refuseJob]
  rw [refused, reply_eq _ _ _ (by rw [State.setBinding, executor]; exact executing)]
  refine ⟨rfl, ?_, rfl⟩
  show z.sent ++ [replyTo z.executor.kind z.executor.tag .storeFault .none] = _
  rw [executor, sent]

end Sys2Proof.Machine

namespace Sys2Proof.Machine

/-! ### Writes and restores that fail (R77, R81) -/

theorem lt_writeTries_iff (k : Nat) : k + 1 < Config.writeTries ↔ k < 2 := Nat.succ_lt_succ_iff

section Writes

variable (st : Store) {w : Writing} {i k : Nat} {r : Record}

theorem copyWritten_again (record : w.group.records[i]? = some r) (few : k < 2) : st.copyWritten w i k false =
    .going { st.writeRecord w.number false r with writing := some { w with stage := .copies i (k + 1) } } := by
  rw [Store.copyWritten, record]
  exact if_pos ((lt_writeTries_iff k).2 few)

theorem copyWritten_fails (record : w.group.records[i]? = some r) (third : 2 ≤ k) : st.copyWritten w i k false =
    (st.writeRecord w.number false r).startRestore w ((w.group.records.take i).map Record.cell) r.cell := by
  rw [Store.copyWritten, record]
  exact if_neg fun few => absurd ((lt_writeTries_iff k).1 few) third.not_gt

theorem markerFailed_again (few : k < 2) : st.markerFailed w k =
    .going { st.writeMarker w false with writing := some { w with stage := .marker (k + 1) } } :=
  if_pos ((lt_writeTries_iff k).2 few)

theorem markerFailed_fails (third : 2 ≤ k) : st.markerFailed w k = (st.writeMarker w false).startRestore w w.group.cells .marker :=
  if_neg fun few => absurd ((lt_writeTries_iff k).1 few) third.not_gt

theorem startRestore_some {left : List Cell} (some' : left ≠ []) (bad : Cell) :
    st.startRestore w left bad = .going { st with writing := some { w with stage := .restoring left 0 [bad] } } := by
  cases left with
  | nil => exact absurd rfl some'
  | cons c left => rfl

variable {c : Cell} {failed : List Cell} {passed : Bool}

theorem restoreWritten_again (rest : List Cell) (fails : passed = false) (few : k < 2) :
    st.restoreWritten w (c :: rest) k failed passed = .going { st.mapCell (CellPair.restoreTarget passed) c with
      writing := some { w with stage := .restoring (c :: rest) (k + 1) failed } } := by
  unfold Store.restoreWritten
  exact if_pos ⟨fails, (lt_writeTries_iff k).2 few⟩

theorem restoreWritten_next {d : Cell} {rest : List Cell} (ends : passed = true ∨ 2 ≤ k) :
    st.restoreWritten w (c :: d :: rest) k failed passed = .going { st.mapCell (CellPair.restoreTarget passed) c with
      writing := some { w with stage := .restoring (d :: rest) 0 (if passed then failed else failed ++ [c]) } } := by
  unfold Store.restoreWritten
  refine if_neg fun ⟨fails, few⟩ => ?_
  rcases ends with passes | third
  · cases fails.symm.trans passes
  · exact absurd ((lt_writeTries_iff k).1 few) third.not_gt

theorem restoreWritten_last (ends : passed = true ∨ 2 ≤ k) : st.restoreWritten w [c] k failed passed =
    .failed (st.mapCell (CellPair.restoreTarget passed) c) w.group (if passed then failed else failed ++ [c]) := by
  unfold Store.restoreWritten
  refine if_neg fun ⟨fails, few⟩ => ?_
  rcases ends with passes | third
  · cases fails.symm.trans passes
  · exact absurd ((lt_writeTries_iff k).1 few) third.not_gt

end Writes

section WriteDone

variable {st : Store} {w : Writing} {k : Nat} (writing : st.writing = some w)
include writing

theorem writeDone_marker (stage : w.stage = .marker k) : st.writeDone false = st.markerFailed w k := by
  simp [Store.writeDone, writing, stage]

theorem writeDone_restoring {left failed : List Cell} (stage : w.stage = .restoring left k failed) (passed : Bool) :
    st.writeDone passed = st.restoreWritten w left k failed passed := by
  simp only [Store.writeDone, writing, stage]

end WriteDone

/-- A restore that is not the last: its write is made again, or the next copy is restored. -/
theorem restoring_goes {st : Store} {w : Writing} {c d : Cell} {rest failed : List Cell} {k : Nat} (writing : st.writing = some w)
    (stage : w.stage = .restoring (c :: d :: rest) k failed) (passed : Bool) : ∃ w',
    st.writeDone passed = .going { st.mapCell (CellPair.restoreTarget passed) c with writing := some w' } ∧
      (passed = true → w' = { w with stage := .restoring (d :: rest) 0 failed }) ∧
      (passed = false → k < 2 → w' = { w with stage := .restoring (c :: d :: rest) (k + 1) failed }) ∧
      (passed = false → 2 ≤ k → w' = { w with stage := .restoring (d :: rest) 0 (failed ++ [c]) }) := by
  have done := writeDone_restoring writing stage passed
  cases passed with
  | true => exact ⟨_, done.trans (restoreWritten_next st (.inl rfl)), fun _ => rfl, nofun, nofun⟩
  | false =>
    rcases Nat.lt_or_ge k 2 with few | third
    · exact ⟨_, done.trans (restoreWritten_again st _ rfl few), nofun, fun _ _ => rfl, fun _ third => absurd few third.not_gt⟩
    · exact ⟨_, done.trans (restoreWritten_next st (.inr third)), nofun, fun _ few => absurd few third.not_gt, fun _ _ => rfl⟩

theorem restoreTarget_keeps {α : Type} (passes : Bool) (x : CellPair α) : x.KeepsEffective (x.restoreTarget passes) := by
  unfold CellPair.restoreTarget
  split
  · next side e =>
    have target : otherSide side = x.target := by rw [CellPair.target, e]
    rw [target]
    exact setCopy_target_keeps _ _
  · exact setCopy_target_keeps _ _

/-- The copy that was written takes the content, version and tag of the effective copy (R81). -/
theorem restoreTarget_copy {α : Type} (passes : Bool) {x : CellPair α} {side : Side} (e : x.effective = some side) :
    (x.restoreTarget passes).copy (otherSide side) = { x.copy side with passes := passes } := by
  rw [CellPair.restoreTarget, e]
  exact copy_setCopy_same _ _ _

section Keeps

variable (st : Store)

/-- A change of one cell that leaves its effective copy leaves every effective copy. -/
theorem mapCell_keeps (f : {α : Type} → CellPair α → CellPair α) (h : ∀ {α : Type} (x : CellPair α), x.KeepsEffective (f x)) (c d : Cell) :
    st.onCell (st.mapCell f c) CellPair.KeepsEffective d := by
  by_cases here : d = c
  · subst here
    exact (mapCell_here st f d).mono fun x y e => by rw [e]; exact h x
  · exact (mapCell_there st f here).mono fun x y e => by rw [e]; exact .refl x

theorem writeMarker_there (w : Writing) (passed : Bool) {c : Cell} (other : c ≠ .marker) :
    st.onCell (st.writeMarker w passed) (fun x y => y = x) c := by
  cases c with
  | marker => exact absurd rfl other
  | _ => rfl

theorem writeMarker_keeps (w : Writing) (passed : Bool) (c : Cell) : st.onCell (st.writeMarker w passed) CellPair.KeepsEffective c := by
  by_cases here : c = .marker
  · subst here
    exact writeTarget_keeps _ _ _ _
  · exact (writeMarker_there st w passed here).mono fun x y e => by rw [e]; exact .refl x

end Keeps

/-- The Trigger Unit does nothing at the failure of its group. -/
theorem groupFailed_silent {s : State} {g : Group} (submitter : g.submitter = .triggerUnit) : s.groupFailed g = s := by
  simp only [State.groupFailed, submitter]

/-- The record that an effective copy holds stands in the other one, once that is restored. -/
theorem Store.onCell.isCopy_restored {old new : Store} {q : Record} {side : Side} {version tag : Count32} {passes passed : Bool}
    (m : old.onCell new (fun x y => y.copy (otherSide side) = { x.copy side with passes := passed }) q.cell)
    (copy : q.isCopy old side version tag passes) : q.isCopy new (otherSide side) version tag passed := by
  cases q <;> exact Eq.trans m (congrArg (fun x : CellCopy _ => { x with passes := passed }) copy)

/-- A group that goes on: only the store changes, and what the owners read stays. -/
theorem copyWriteDone_goes {s : State} {passed : Bool} {st : Store} {w : Writing}
    (goes : s.store.writeDone passed = .going { st with writing := some w })
    (kept : ∀ c, s.store.onCell st CellPair.KeepsEffective c) (book : st.book = s.store.book) :
    s.copyWriteDone passed = { s with store := (s.copyWriteDone passed).store } ∧
      (∀ q : Record, q.inEffect (s.copyWriteDone passed) ↔ q.inEffect s) ∧
      (s.copyWriteDone passed).store.lastClosed = s.store.lastClosed ∧ (s.copyWriteDone passed).store.writing = some w := by
  rw [copyWriteDone_going goes]
  exact ⟨rfl, fun q => inEffect_iff (((kept q.cell).mono fun _ _ h => h.read).withWriting (some w)), congrArg StoreBook.lastClosed book, rfl⟩

/-- The third failure of the last write of a failed group takes a part that runs into FAILSAFE. -/
theorem copyWriteDone_enters {s : State} {passed : Bool} {st : Store} {g : Group} {cells : List Cell}
    (fails : s.store.writeDone passed = .failed st g cells) (going : s.power.restarting = false) (queue : s.store.queue = [])
    (held : s.store.held = []) (kept : ∀ c, s.store.onCell st CellPair.KeepsEffective c) (book : st.book = s.store.book) :
    failsafeEntered s (s.copyWriteDone passed) ∧ (∀ c ∈ cells, c ∈ (s.copyWriteDone passed).store.failed) ∧
      ∃ st' : Store, s.copyWriteDone passed = (({ s with store := st' } : State).groupFailed g).enterFailsafe.raise .storeFault := by
  have closed : st.lastClosed = s.store.lastClosed := congrArg StoreBook.lastClosed book
  have queue' : st.queue = [] := (congrArg StoreBook.queue book).trans queue
  have held' : st.held = [] := (congrArg StoreBook.held book).trans held
  obtain ⟨entered, new, -⟩ := storeFailed_enters going queue' held' kept closed g cells
  obtain ⟨st', -, -, -, told⟩ := storeFailed_alone (s := { s with store := st }) going queue' held' g cells
  have done : s.copyWriteDone passed = ({ s with store := st } : State).storeFailed g cells := by rw [State.copyWriteDone, fails]
  rw [done]
  exact ⟨entered, new, st', told⟩

/-- Settles O20: each write leads to one case of its stage, and the failed group to the entry into FAILSAFE. -/
theorem thirdFailedWriteEntersFailsafe : Obligations.ThirdFailedWriteEntersFailsafe := by
  refine ⟨fun s w r k powered part going writing stage record => ⟨fun few => ?_, fun third queue held => ?_⟩,
    fun s w k powered writing => ⟨fun i r later stage record => ?_, fun stage some' => ?_, fun c d rest failed passed stage => ?_⟩,
    fun s w k c failed passed powered part going writing stage queue held ends => ?_⟩
  · have goes := (writeDone_copies writing stage false).trans (copyWritten_again s.store record few)
    obtain ⟨rest, -, -, next⟩ := copyWriteDone_goes goes (writeRecord_keeps _ _ _ _) (writeRecord_book _ _ _ _)
    exact ⟨_, exec_copyWriteDone powered false, by rw [rest], next⟩
  · have fails := (writeDone_copies writing stage false).trans (copyWritten_fails s.store record third.ge)
    obtain ⟨entered, failed, st, told⟩ :=
      copyWriteDone_enters fails going queue held (writeRecord_keeps _ _ _ _) (writeRecord_book _ _ _ _)
    refine ⟨_, exec_copyWriteDone powered false, entered, failed _ (List.mem_singleton.2 rfl), fun submitter request executing job => ?_,
      fun submitter executing working => ⟨fun c job nodup => ?_, fun recheck digest p job exchange => ?_⟩⟩
    · obtain ⟨a, job⟩ := job
      have answered := groupFailed_attempt (s := { s with store := st }) submitter request executing job
      rw [told]
      generalize (({ s with store := st } : State).groupFailed w.group).enterFailsafe = y at answered ⊢
      exact ⟨congrArg Executor.status answered.1, answered.2⟩
    · have answered := enterFailsafe_commit (s := { s with store := st }) executing working job nodup
      rw [told, groupFailed_silent submitter]
      generalize ({ s with store := st } : State).enterFailsafe = y at answered ⊢
      exact answered
    · have answered := enterFailsafe_enrol (s := { s with store := st }) executing working job
      rw [told, groupFailed_silent submitter]
      generalize ({ s with store := st } : State).enterFailsafe = y at answered ⊢
      exact answered
  · have some' : (w.group.records.take i).map Record.cell ≠ [] := by
      obtain ⟨bound, -⟩ := List.getElem?_eq_some_iff.1 record
      rw [ne_eq, List.map_eq_nil_iff, List.take_eq_nil_iff]
      rintro (zero | none')
      · omega
      · rw [none'] at bound; cases bound
    refine ⟨_, exec_copyWriteDone powered false, ?_⟩
    rcases Nat.lt_or_ge k 2 with few | third
    · have goes := (writeDone_copies writing stage false).trans (copyWritten_again s.store record few)
      obtain ⟨rest, effect, closed, next⟩ := copyWriteDone_goes goes (writeRecord_keeps _ _ _ _) (writeRecord_book _ _ _ _)
      exact ⟨rest, effect, closed, fun _ => next, fun third => absurd few third.not_gt⟩
    · have goes := (writeDone_copies writing stage false).trans ((copyWritten_fails s.store record third).trans (startRestore_some _ some' _))
      obtain ⟨rest, effect, closed, next⟩ := copyWriteDone_goes goes (writeRecord_keeps _ _ _ _) (writeRecord_book _ _ _ _)
      exact ⟨rest, effect, closed, fun few => absurd few third.not_gt, fun _ => next⟩
  · have some' : w.group.cells ≠ [] := by rwa [Group.cells, ne_eq, List.map_eq_nil_iff]
    refine ⟨_, exec_copyWriteDone powered false, ?_⟩
    rcases Nat.lt_or_ge k 2 with few | third
    · have goes := (writeDone_marker writing stage).trans (markerFailed_again s.store few)
      obtain ⟨rest, effect, closed, next⟩ := copyWriteDone_goes goes (writeMarker_keeps _ _ _) rfl
      exact ⟨rest, effect, closed, fun _ => next, fun third => absurd few third.not_gt⟩
    · have goes := (writeDone_marker writing stage).trans ((markerFailed_fails s.store third).trans (startRestore_some _ some' _))
      obtain ⟨rest, effect, closed, next⟩ := copyWriteDone_goes goes (writeMarker_keeps _ _ _) rfl
      exact ⟨rest, effect, closed, fun few => absurd few third.not_gt, fun _ => next⟩
  · have here := mapCell_here s.store (CellPair.restoreTarget passed) c
    have there := fun b => mapCell_there s.store (CellPair.restoreTarget passed) (c := c) (d := b)
    have kept := mapCell_keeps s.store _ (restoreTarget_keeps passed) c
    have book := mapCell_book s.store (CellPair.restoreTarget passed) c
    obtain ⟨w', goes, passes, again, gives⟩ := restoring_goes writing stage passed
    have effective (b : Cell) := ((kept b).mono fun _ _ h => h.1).withWriting (some w')
    obtain ⟨frame, -, closed, next⟩ := copyWriteDone_goes goes kept book
    have done := copyWriteDone_going goes
    generalize s.store.mapCell (CellPair.restoreTarget passed) c = st at *
    refine ⟨_, exec_copyWriteDone powered passed, frame, fun q side v g cell eff copy => ?_, fun q side v g p other => ?_, fun b => ?_,
      closed, fun ok => next.trans (congrArg some (passes ok)), fun fails few => next.trans (congrArg some (again fails few)),
      fun fails third => next.trans (congrArg some (gives fails third))⟩
    all_goals rw [done]
    · subst cell
      have sides := Store.onCell.effective (new := st) eff
      have stays : s.store.onCell st (fun x y => y.copy side = x.copy side) q.cell :=
        ((kept _).and sides).mono fun _ _ h => h.1.2 _ h.2
      have restored : s.store.onCell st (fun x y => y.copy (otherSide side) = { x.copy side with passes := passed }) q.cell :=
        (here.and sides).mono fun x y h => by rw [h.1]; exact restoreTarget_copy passed h.2
      exact ⟨((stays.isCopy_iff v g true).2 copy).withWriting _, (restored.isCopy_restored copy).withWriting _⟩
    · have stays : s.store.onCell st (fun x y => y.copy side = x.copy side) q.cell := (there _ other).mono fun x y e => by rw [e]
      exact (stays.withWriting _).isCopy_iff v g p
    · exact (effective b).effectiveSide_eq
  · have fails := (writeDone_restoring writing stage passed).trans (restoreWritten_last s.store ends)
    obtain ⟨entered, new, -⟩ := copyWriteDone_enters fails going queue held (mapCell_keeps _ _ (restoreTarget_keeps passed) c)
      (mapCell_book _ _ _)
    refine ⟨_, exec_copyWriteDone powered passed, entered, fun b m => new b ?_, fun fails => new c ?_⟩
    · split
      · exact m
      · exact List.mem_append_left _ m
    · rw [fails, if_neg Bool.false_ne_true]
      exact List.mem_append_right _ (List.mem_singleton.2 rfl)

end Sys2Proof.Machine

namespace Sys2Proof.Machine

/-! ### Power loss (R88, R89) -/

theorem spoilTarget_keeps {α : Type} (x : CellPair α) : x.KeepsEffective x.spoilTarget := setCopy_target_keeps _ _

/-- A copy that fails from now on keeps its content. -/
theorem spoilTarget_content {α : Type} (x : CellPair α) : x.spoilTarget.a.content = x.a.content := by
  unfold CellPair.spoilTarget
  cases x.target <;> rfl

/-- A write that power loss cuts short leaves every effective copy. -/
theorem cutWrite_keeps (st : Store) (c : Cell) : st.onCell st.cutWrite CellPair.KeepsEffective c := by
  have same : st.onCell st CellPair.KeepsEffective c := (onCell_refl st c).mono fun x y e => by rw [e]; exact .refl x
  unfold Store.cutWrite
  split
  · exact same
  · split
    · split
      · exact writeRecord_keeps _ _ _ _ _
      · exact same
    · exact writeMarker_keeps _ _ _ _
    · exact mapCell_keeps _ _ spoilTarget_keeps _ _
    · exact same

/-- The drive profile is written by no group: a restore at most spoils its target. -/
theorem cutWrite_profile (st : Store) : st.cutWrite.profile.a.content = st.profile.a.content := by
  unfold Store.cutWrite
  split
  · rfl
  · split
    · split
      · next r _ => cases r <;> rfl
      · rfl
    · rfl
    · next c _ _ _ _ =>
      cases c with
      | profile => exact spoilTarget_content _
      | _ => rfl
    · rfl

theorem cutWrite_book (st : Store) : st.cutWrite.book = st.book := by
  unfold Store.cutWrite
  split
  · rfl
  · split
    · split
      · exact writeRecord_book _ _ _ _
      · rfl
    · rfl
    · exact mapCell_book _ _ _
    · rfl

/-- Power loss keeps every effective copy, the drive profile and the last closed number. -/
theorem powerLoss_keeps (st : Store) (midWrite : Bool) :
    (∀ c, st.onCell (st.powerLoss midWrite) CellPair.KeepsEffective c) ∧
      (st.powerLoss midWrite).profile.a.content = st.profile.a.content ∧ (st.powerLoss midWrite).lastClosed = st.lastClosed := by
  cases midWrite with
  | false => exact ⟨fun c => by cases c <;> exact .refl _, rfl, rfl⟩
  | true =>
    refine ⟨fun c => ?_, cutWrite_profile st, congrArg StoreBook.lastClosed (cutWrite_book st)⟩
    have kept := cutWrite_keeps st c
    cases c <;> exact kept

/-- Settles O22: the store keeps what is effective, and the start of the volatile state takes the rest. -/
theorem powerLossKeepsEffectiveRecords : Obligations.PowerLossKeepsEffectiveRecords := by
  intro s midWrite powered
  obtain ⟨kept, content, closed⟩ := powerLoss_keeps s.store midWrite
  have lost : exec (.powerLoss midWrite) s = .next (s.losePower midWrite) := congrArg Host.Outcome.next (if_pos powered)
  have store : (s.losePower midWrite).store = s.store.powerLoss midWrite := rfl
  refine ⟨_, lost, rfl, fun r => inEffect_iff ?_, ?_, closed, rfl, rfl, rfl, fun o => ?_, fun tag => tab32_get _ tag, fun l => tab4_get _ l,
    rfl, rfl, rfl, rfl, rfl, rfl, rfl, rfl, rfl, rfl, rfl, rfl, rfl⟩
  · rw [store]
    exact (kept r.cell).mono fun _ _ h => h.read
  · rw [State.profile, store, content]
    exact (kept .profile).read _
  · cases o with
    | range r => exact tab16_get _ r
    | shadow => rfl

end Sys2Proof.Machine

namespace Sys2Proof.Machine

/-! ### The scan of one cell (R82) -/

theorem eq_otherSide : {p q : Side} → p ≠ q → p = otherSide q
  | .a, .b, _ => rfl
  | .b, .a, _ => rfl
  | .a, .a, h => absurd rfl h
  | .b, .b, h => absurd rfl h

/-- A copy remains at a scan: it passes and is not of the group that never closed (R82 step 2). -/
def CellCopy.remains {α : Type} (x : CellCopy α) (unclosed : Option Count32) : Bool := x.passes && !(unclosed = some x.tag)

theorem remains_iff {α : Type} (x : CellCopy α) (unclosed : Option Count32) :
    x.remains unclosed = true ↔ x.passes = true ∧ unclosed ≠ some x.tag := by
  simp [CellCopy.remains]

/-- The cell with the copies of the unclosed group failing. -/
def CellPair.cleaned {α : Type} (c : CellPair α) (unclosed : Option Count32) : CellPair α :=
  { c with a := if c.a.passes && (unclosed = some c.a.tag) then { c.a with passes := false } else c.a
           b := if c.b.passes && (unclosed = some c.b.tag) then { c.b with passes := false } else c.b }

section Cell

variable {α : Type} (c : CellPair α) (unclosed last : Option Count32) (repairs : Bool)

theorem cleaned_copy (side : Side) : (c.cleaned unclosed).copy side =
    if (c.copy side).passes && (unclosed = some (c.copy side).tag) then { c.copy side with passes := false } else c.copy side := by
  cases side <;> rfl

theorem cleaned_copy_of_remains {side : Side} (remains : (c.copy side).remains unclosed = true) :
    (c.cleaned unclosed).copy side = c.copy side := by
  rw [cleaned_copy, if_neg]
  simp [((remains_iff _ _).1 remains).2]

/-- No copy of the unclosed group passes any more. -/
theorem cleaned_tag {side : Side} (passes : ((c.cleaned unclosed).copy side).passes = true) :
    unclosed ≠ some ((c.cleaned unclosed).copy side).tag := by
  rw [cleaned_copy] at passes ⊢
  split at passes
  · cases passes
  · next other =>
    rw [if_neg other]
    simpa [passes] using other

/-- The copy that the scan takes of those that remain (R82 step 3). -/
abbrev CellPair.chosen : Option Side := c.choose (fun x => x.remains unclosed)

theorem chosen_eq_none_iff : c.chosen unclosed = none ↔ ∀ side, (c.copy side).remains unclosed = false := by
  have both : (∀ side, (c.copy side).remains unclosed = false) ↔ c.a.remains unclosed = false ∧ c.b.remains unclosed = false :=
    ⟨fun h => ⟨h .a, h .b⟩, fun h side => by cases side; exacts [h.1, h.2]⟩
  rw [both, CellPair.chosen, CellPair.choose]
  cases c.a.remains unclosed <;> cases c.b.remains unclosed <;> simp
  split <;> simp

theorem remains_of_chosen {side : Side} (h : c.chosen unclosed = some side) : (c.copy side).remains unclosed = true := by
  unfold CellPair.chosen CellPair.choose at h
  split at h
  · next a b => cases side <;> assumption
  · next a _ => cases h; exact a
  · next _ b => cases h; exact b
  · cases h

theorem chosen_alone {side : Side} (remains : (c.copy side).remains unclosed = true)
    (other : (c.copy (otherSide side)).remains unclosed = false) : c.chosen unclosed = some side := by
  cases side with
  | a =>
    have remains : c.a.remains unclosed = true := remains
    have other : c.b.remains unclosed = false := other
    simp only [CellPair.chosen, CellPair.choose, remains, other]
  | b =>
    have remains : c.b.remains unclosed = true := remains
    have other : c.a.remains unclosed = false := other
    simp only [CellPair.chosen, CellPair.choose, remains, other]

/-- Of two copies that remain the one with the higher version is taken. -/
theorem chosen_newer {side : Side} (remains : ∀ side, (c.copy side).remains unclosed = true)
    (newer : (c.copy side).version = (c.copy (otherSide side)).version + 1) : c.chosen unclosed = some side := by
  have a : c.a.remains unclosed = true := remains .a
  have b : c.b.remains unclosed = true := remains .b
  simp only [CellPair.chosen, CellPair.choose, a, b]
  cases side with
  | a =>
    have newer : c.a.version = c.b.version + 1 := newer
    rw [if_pos (by simp [newerOrEqual, newer])]
  | b =>
    have newer : c.b.version = c.a.version + 1 := newer
    have other : newerOrEqual c.a.version c.b.version = false := by
      simp only [newerOrEqual, newer, Bool.or_eq_false_iff, decide_eq_false_iff_not]
      exact ⟨by bv_omega, by bv_omega⟩
    rw [if_neg (by rw [other]; exact Bool.false_ne_true)]

/-- The copy is the one that the last group wrote, where the cell is in its list (R82 step 4). -/
def CellCopy.whole (x : CellCopy α) : Prop := ∀ z, last = some z → x.tag = z

/-- What a scan makes of one cell. -/
inductive Scanned : ScanResult α → Prop where
  /-- no copy remains, or the one that does is not the last group's -/
  | lost (rolledBack : Bool) (gone : ∀ side, c.chosen unclosed = some side → ¬ (c.copy side).whole last) :
      Scanned { pair := { c.cleaned unclosed with effective := none }, rolledBack := rolledBack, repairFailed := false }
  /-- both copies remain -/
  | both (rolledBack : Bool) (side : Side) (taken : c.chosen unclosed = some side) (whole : (c.copy side).whole last)
      (other : (c.copy (otherSide side)).remains unclosed = true) :
      Scanned { pair := { c.cleaned unclosed with effective := some side }, rolledBack := rolledBack, repairFailed := false }
  /-- the copy that was set aside is written again -/
  | repaired (pair : CellPair α) (rolledBack : Bool) (side : Side) (taken : c.chosen unclosed = some side)
      (whole : (c.copy side).whole last) (other : (c.copy (otherSide side)).remains unclosed = false)
      (effective : pair.effective = some side) (stays : pair.copy side = c.copy side)
      (rewritten : pair.copy (otherSide side) = { c.copy side with passes := repairs }) :
      Scanned { pair := pair, rolledBack := rolledBack, repairFailed := !repairs }

theorem copy_withEffective (side : Side) (e : Option Side) : ({ c with effective := e } : CellPair α).copy side = c.copy side := by
  cases side <;> rfl

theorem scan_scanned : Scanned c unclosed last repairs (c.scan unclosed last repairs) := by
  have wholeIff (x : CellCopy α) : last.any (fun z => x.tag ≠ z) = true ↔ ¬ x.whole last := by
    cases last <;> simp [CellCopy.whole]
  unfold CellPair.scan
  dsimp only
  split
  · next gone => exact .lost _ fun side taken => by cases gone.symm.trans taken
  · next side taken =>
    split
    · next stale =>
      refine .lost _ fun side' taken' => ?_
      obtain rfl := Option.some.inj (Eq.trans (Eq.symm taken) taken')
      exact (wholeIff _).1 stale
    · next fresh =>
      have whole : (c.copy side).whole last := not_not.1 fun stale => fresh ((wholeIff _).2 stale)
      split
      · next other => exact .both _ side taken whole other
      · next other =>
        refine .repaired _ _ side taken whole (Bool.eq_false_iff.2 other) rfl ?_ ?_
        · rw [copy_withEffective, copy_setCopy_same]
        · rw [copy_withEffective, copy_setCopy_other, copy_setCopy_same]

theorem scan_rolledBack_iff : (c.scan unclosed last repairs).rolledBack = true ↔
    ∃ side, (c.copy side).passes = true ∧ unclosed = some (c.copy side).tag := by
  have same : (c.scan unclosed last repairs).rolledBack =
      ((c.a.passes && (unclosed = some c.a.tag)) || (c.b.passes && (unclosed = some c.b.tag))) := by
    unfold CellPair.scan
    dsimp only
    split
    · rfl
    · split
      · rfl
      · split <;> rfl
  rw [same, Bool.or_eq_true, Bool.and_eq_true, Bool.and_eq_true, decide_eq_true_eq, decide_eq_true_eq]
  constructor
  · rintro (a | b)
    · exact ⟨.a, a⟩
    · exact ⟨.b, b⟩
  · rintro ⟨side, h⟩
    cases side
    · exact .inl h
    · exact .inr h

end Cell

namespace Scanned

variable {α : Type} {c : CellPair α} {unclosed last : Option Count32} {repairs : Bool} {x : ScanResult α}
  (h : Scanned c unclosed last repairs x)
include h

/-- Without a copy that the scan may take the cell has failed in both. -/
theorem effective_none (gone : ∀ side, c.chosen unclosed = some side → ¬ (c.copy side).whole last) : x.pair.effective = none := by
  cases h with
  | lost => rfl
  | both _ side taken whole => exact absurd whole (gone side taken)
  | repaired _ _ side taken whole => exact absurd whole (gone side taken)

variable {side : Side} (taken : c.chosen unclosed = some side) (whole : (c.copy side).whole last)

include taken whole in
/-- A copy that remains alone is effective and is written over the other. -/
theorem effective_alone (other : (c.copy (otherSide side)).remains unclosed = false) : x.pair.effective = some side ∧
    x.pair.copy side = c.copy side ∧ x.pair.copy (otherSide side) = { c.copy side with passes := repairs } ∧
    x.repairFailed = !repairs := by
  cases h with
  | lost _ gone => exact absurd whole (gone side taken)
  | both _ side' taken' _ other' =>
    obtain rfl := Option.some.inj (taken'.symm.trans taken)
    cases other.symm.trans other'
  | repaired _ _ side' taken' _ _ effective stays rewritten =>
    obtain rfl := Option.some.inj (taken'.symm.trans taken)
    exact ⟨effective, stays, rewritten, rfl⟩

include taken whole in
/-- Of two copies that remain both stay as they are. -/
theorem effective_both (other : (c.copy (otherSide side)).remains unclosed = true) : x.pair.effective = some side ∧
    ∀ which, x.pair.copy which = c.copy which := by
  cases h with
  | lost _ gone => exact absurd whole (gone side taken)
  | both _ side' taken' _ other' =>
    obtain rfl := Option.some.inj (taken'.symm.trans taken)
    refine ⟨rfl, fun which => ?_⟩
    have remains : (c.copy which).remains unclosed = true := by
      have here := remains_of_chosen c unclosed taken
      by_cases e : which = side'
      · rw [e]; exact here
      · rw [eq_otherSide e]; exact other
    rw [copy_withEffective, cleaned_copy_of_remains c unclosed remains]
  | repaired _ _ side' taken' _ other' =>
    obtain rfl := Option.some.inj (taken'.symm.trans taken)
    cases other.symm.trans other'

/-- No copy of the unclosed group is left passing. -/
theorem tag_ne (which : Side) (passes : (x.pair.copy which).passes = true) : unclosed ≠ some (x.pair.copy which).tag := by
  cases h with
  | lost =>
    rw [copy_withEffective] at passes ⊢
    exact cleaned_tag c unclosed passes
  | both =>
    rw [copy_withEffective] at passes ⊢
    exact cleaned_tag c unclosed passes
  | repaired pair _ side' taken _ _ _ stays rewritten =>
    have fresh := ((remains_iff _ _).1 (remains_of_chosen c unclosed taken)).2
    by_cases e : which = side'
    · rw [e, stays]; exact fresh
    · rw [eq_otherSide e, rewritten]; exact fresh

/-- A cell has failed where it has no effective copy or its repair has failed (R84). -/
theorem scanFailed_iff : x.pair.scanFailed ↔ x.pair.effective.isNone = true ∨ x.repairFailed = true := by
  cases h with
  | lost => exact ⟨fun _ => .inl rfl, fun _ side e => by cases e⟩
  | both _ side' taken _ other =>
    refine ⟨fun failed => ?_, fun e => by rcases e with e | e <;> cases e⟩
    have fails := failed side' rfl
    rw [copy_withEffective, cleaned_copy_of_remains c unclosed other] at fails
    cases fails.symm.trans ((remains_iff _ _).1 other).1
  | repaired pair _ side' taken _ _ effective stays rewritten =>
    have failed : pair.scanFailed ↔ (!repairs) = true := by
      have same : (pair.copy (otherSide side')).passes = repairs := by rw [rewritten]
      rw [Bool.not_eq_true', ← same]
      refine ⟨fun failed => failed side' effective, fun fails side e => ?_⟩
      obtain rfl := Option.some.inj (effective.symm.trans e)
      exact fails
    rw [failed, effective]
    exact ⟨.inr, fun e => e.resolve_left Bool.false_ne_true⟩

end Scanned

/-! ### Decay (R75) -/

/-- Of a cell the copies that have decayed fail their check; each copy keeps its content, version and tag (log 18). -/
def CellPair.Decays {α : Type} (c : Cell) (l : List (Cell × Side)) (x y : CellPair α) : Prop :=
  ∀ side, y.copy side = { x.copy side with passes := (x.copy side).passes && decide ((c, side) ∉ l) }

theorem decays_one {α : Type} (x : CellPair α) (c : Cell) (side : Side) :
    CellPair.Decays c [(c, side)] x (x.setCopy side { x.copy side with passes := false }) := by
  intro which
  by_cases e : which = side
  · subst e
    rw [copy_setCopy_same]
    simp
  · rw [eq_otherSide e, copy_setCopy_other]
    have other : otherSide side ≠ side := by cases side <;> exact nofun
    simp [other]

theorem CellPair.Decays.refl {α : Type} {c : Cell} {l : List (Cell × Side)} (apart : ∀ side, (c, side) ∉ l) (x : CellPair α) :
    CellPair.Decays c l x x := fun side => by simp [apart side]

theorem CellPair.Decays.cons {α : Type} {c : Cell} {p : Cell × Side} {l : List (Cell × Side)} {x y z : CellPair α}
    (h : CellPair.Decays c [p] x y) (k : CellPair.Decays c l y z) : CellPair.Decays c (p :: l) x z := fun side => by
  rw [k side, h side]
  simp [Bool.and_assoc]

theorem decay_cell (l : List (Cell × Side)) (st : Store) (c : Cell) : st.onCell (st.decay l) (CellPair.Decays c l) c := by
  induction l generalizing st with
  | nil => exact (onCell_refl st c).mono fun x y e => by rw [e]; exact .refl (fun _ => List.not_mem_nil) x
  | cons p l ih =>
    obtain ⟨d, side⟩ := p
    have one : st.onCell (st.mapCell (fun c => c.setCopy side { c.copy side with passes := false }) d) (CellPair.Decays c [(d, side)]) c := by
      by_cases e : c = d
      · subst e
        exact (mapCell_here st _ c).mono fun x y e => by rw [e]; exact decays_one x c side
      · refine (mapCell_there st _ e).mono fun x y same => ?_
        rw [same]
        exact .refl (fun which m => e (Prod.mk.inj (List.mem_singleton.1 m)).1) x
    exact one.trans (ih _) fun x y z h k => h.cons k

section Decays

variable {α : Type} {x y : CellPair α} {c : Cell} {scan : ScanFindings} (decays : CellPair.Decays c scan.decayed x y)
include decays

theorem CellPair.Decays.found_iff (side : Side) : x.found c scan side ↔ (y.copy side).passes = true := by
  rw [decays side, CellPair.found]
  simp

theorem CellPair.Decays.tag (side : Side) : (y.copy side).tag = (x.copy side).tag := by rw [decays side]

theorem CellPair.Decays.copy_of_found {side : Side} (found : x.found c scan side) : y.copy side = x.copy side := by
  obtain ⟨passes, apart⟩ := found
  have same : ((x.copy side).passes && decide ((c, side) ∉ scan.decayed)) = (x.copy side).passes := by simp [passes, apart]
  rw [decays side, same]

/-- A scan settles the copies that are found passing as R82 says. -/
theorem settled_of_scanned {unclosed last : Option Count32} {result : ScanResult α}
    (scanned : Scanned y unclosed last (decide (c ∉ scan.repairFails)) result) : x.settled result.pair c scan unclosed last := by
  have remains (side : Side) : (x.found c scan side ∧ unclosed ≠ some (x.copy side).tag) ↔ (y.copy side).remains unclosed = true := by
    rw [remains_iff, decays.found_iff, decays.tag]
  have absent {side : Side} (h : ¬ (y.copy side).remains unclosed = true) : (y.copy side).remains unclosed = false := by
    simpa using h
  have whole (side : Side) : (∀ z, last = some z → (x.copy side).tag = z) ↔ (y.copy side).whole last := by
    rw [CellCopy.whole, decays.tag]
  have copy {side : Side} (h : (y.copy side).remains unclosed = true) : y.copy side = x.copy side :=
    decays.copy_of_found ((remains side).2 h).1
  unfold CellPair.settled
  simp only [remains, whole]
  refine ⟨fun gone => ?_, fun side here other => ?_, fun side here other newer => ?_, fun all equal => ?_, scanned.tag_ne⟩
  · have none' := (chosen_eq_none_iff y unclosed).2 fun side => absent (gone side)
    exact scanned.effective_none fun side taken => by cases none'.symm.trans taken
  · have taken := chosen_alone y unclosed here (absent other)
    refine ⟨fun stale => scanned.effective_none fun side' taken' => ?_, fun whole => ?_⟩
    · obtain rfl := Option.some.inj (taken.symm.trans taken')
      exact stale
    · rw [← copy here]
      obtain ⟨effective, stays, rewritten, -⟩ := scanned.effective_alone taken whole (absent other)
      exact ⟨effective, stays, rewritten⟩
  · have all (which : Side) : (y.copy which).remains unclosed = true := by
      by_cases e : which = side
      · rw [e]; exact here
      · rw [eq_otherSide e]; exact other
    have taken := chosen_newer y unclosed all (by rw [copy here, copy other]; exact newer)
    refine ⟨fun stale => scanned.effective_none fun side' taken' => ?_, fun whole => ?_⟩
    · obtain rfl := Option.some.inj (taken.symm.trans taken')
      exact stale
    · obtain ⟨effective, copies⟩ := scanned.effective_both taken whole other
      exact ⟨effective, fun which => (copies which).trans (copy (all which))⟩
  · refine ⟨fun stale => scanned.effective_none fun side _ => stale side, fun whole => ?_⟩
    cases taken : y.chosen unclosed with
    | none => cases (all .a).symm.trans ((chosen_eq_none_iff y unclosed).1 taken .a)
    | some side =>
      obtain ⟨effective, copies⟩ := scanned.effective_both taken (whole side) (all _)
      exact ⟨by rw [effective]; rfl, fun which => (copies which).trans (copy (all which))⟩

end Decays

end Sys2Proof.Machine

namespace Sys2Proof.Machine

namespace Store.onCell

variable {old mid new : Store} {c : Cell}

theorem congr {r p q : {α : Type} → CellPair α → CellPair α → Prop} (m : old.onCell new r c)
    (h : ∀ {α : Type} (x y : CellPair α), r x y → (p x y ↔ q x y)) : old.onCell new p c ↔ old.onCell new q c := by
  cases c <;> exact h _ _ m

/-- What is said of the cells before, said of another store that is tied to it. -/
theorem before_iff {r : {α : Type} → CellPair α → CellPair α → Prop} {p q : {α : Type} → CellPair α → Prop} (m : old.onCell mid r c)
    (h : ∀ {α : Type} (x y : CellPair α), r x y → (p x ↔ q y)) :
    old.onCell new (fun x _ => p x) c ↔ mid.onCell new (fun y _ => q y) c := by
  cases c <;> exact h _ _ m

theorem after_iff (old' : Store) {p : {α : Type} → CellPair α → Prop} :
    old.onCell new (fun _ y => p y) c ↔ old'.onCell new (fun _ y => p y) c := by
  cases c <;> exact Iff.rfl

theorem or_iff {p q : {α : Type} → CellPair α → CellPair α → Prop} :
    old.onCell new (fun x y => p x y ∨ q x y) c ↔ old.onCell new p c ∨ old.onCell new q c := by
  cases c <;> exact Iff.rfl

end Store.onCell

/-! ### The store scan, cell by cell (R82 to R84) -/

/-- The tag of the group that never closed, after a scan; none with the marker cell lost. -/
def Store.unclosed (st : Store) : Option Count32 := if st.marker.effective.isSome then some (st.lastClosed + 1) else none

/-- The cells that the last closed group wrote. -/
def Store.lastCells (st : Store) : List Cell :=
  match st.marker.effective with
  | some side => (st.marker.copy side).content.cells
  | none => []

/-- The number that the cell's copy of the last closed group must carry, where the cell is in its list. -/
def Store.lastOf (st : Store) (c : Cell) : Option Count32 := if c ∈ st.lastCells then some st.lastClosed else none

/-- What a scan finds of one record cell, where `new` is the store that it leaves. -/
def Store.scanCell (new : Store) (found : ScanFindings) {α : Type} (c : Cell) (x : CellPair α) : ScanResult α :=
  x.scan new.unclosed (new.lastOf c) (c ∉ found.repairFails)

/-- The record cells of which the scan result answers a test. -/
def Store.cellsWith (st new : Store) (found : ScanFindings) (p : {α : Type} → ScanResult α → Bool) : List Cell :=
  recordCells.filter (st.scanTest (fun c x => new.scanCell found c x) p)

theorem mem_recordCells (c : Cell) : c ∈ recordCells ↔ c ≠ .marker := by
  cases c with
  | cred i => simp [recordCells, allSlots_mem]
  | range r => simp [recordCells, allRanges_mem]
  | _ => simp [recordCells]

theorem scanTest_iff (st new : Store) (scanOf : {α : Type} → Cell → CellPair α → ScanResult α) (p : {α : Type} → ScanResult α → Bool)
    {c : Cell} (record : c ≠ .marker) : st.scanTest scanOf p c = true ↔ st.onCell new (fun x _ => p (scanOf c x) = true) c := by
  cases c with
  | marker => exact absurd rfl record
  | _ => rfl

theorem mem_cellsWith (st new other : Store) (found : ScanFindings) (p : {α : Type} → ScanResult α → Bool) (c : Cell) :
    c ∈ st.cellsWith new found p ↔ c ≠ .marker ∧ st.onCell other (fun x _ => p (new.scanCell found c x) = true) c := by
  rw [Store.cellsWith, List.mem_filter, mem_recordCells]
  exact and_congr_right fun record => scanTest_iff st other _ p record

section Scan

variable (st0 : Store) (found : ScanFindings)

/-- What the scan finds of the marker cell. -/
def Store.scanMarker : ScanResult CloseMarker :=
  (st0.decay found.decayed).marker.scan none none (.marker ∉ found.repairFails)

theorem scan_marker : (st0.scan found).store.marker = (st0.scanMarker found).pair := rfl

/-- What the marker cell says of the last closed group; with the cell lost, what stands for it. -/
def Store.lastMarker : CloseMarker :=
  (st0.scanMarker found).pair.read { number := highestTag (st0.decay found.decayed).passingTags, cells := [] }

theorem lastMarker_some {side : Side} (h : (st0.scanMarker found).pair.effective = some side) :
    st0.lastMarker found = ((st0.scanMarker found).pair.copy side).content := by
  rw [Store.lastMarker, CellPair.read, h]

theorem lastMarker_none (h : (st0.scanMarker found).pair.effective = none) :
    st0.lastMarker found = { number := highestTag (st0.decay found.decayed).passingTags, cells := [] } := by
  rw [Store.lastMarker, CellPair.read, h]

theorem scan_lastClosed : (st0.scan found).store.lastClosed = (st0.lastMarker found).number := by
  have number : (st0.scan found).store.lastClosed = if (st0.scanMarker found).pair.effective.isSome then (st0.lastMarker found).number
      else highestTag (st0.decay found.decayed).passingTags := rfl
  rw [number]
  cases e : (st0.scanMarker found).pair.effective with
  | none => rw [lastMarker_none _ _ e]; rfl
  | some side => rfl

theorem scan_lastCells : (st0.scan found).store.lastCells =
    if (st0.scanMarker found).pair.effective.isSome then (st0.lastMarker found).cells else [] := by
  rw [Store.lastCells, scan_marker]
  cases e : (st0.scanMarker found).pair.effective with
  | none => rfl
  | some side => rw [lastMarker_some _ _ e]; rfl

theorem scan_cell {c : Cell} (record : c ≠ .marker) : (st0.decay found.decayed).onCell (st0.scan found).store
    (fun x y => y = ((st0.scan found).store.scanCell found c x).pair) c := by
  unfold Store.scanCell Store.lastOf
  rw [scan_lastCells]
  cases c with
  | marker => exact absurd rfl record
  | cred i => exact tab8_get _ i
  | range r => exact tab16_get _ r
  | _ => rfl

theorem scan_failed : (st0.scan found).store.failed =
    (st0.decay found.decayed).cellsWith (st0.scan found).store found (fun x => x.pair.effective.isNone) ++
      (st0.decay found.decayed).cellsWith (st0.scan found).store found (fun x => x.repairFailed) ++
      (if !(st0.scanMarker found).pair.effective.isSome || (st0.scanMarker found).repairFailed then [.marker] else []) := by
  unfold Store.cellsWith Store.scanCell Store.lastOf
  rw [scan_lastCells]
  rfl

theorem scan_rolledBack : (st0.scan found).rolledBack =
    !((st0.decay found.decayed).cellsWith (st0.scan found).store found (fun x => x.rolledBack)).isEmpty := by
  unfold Store.cellsWith Store.scanCell Store.lastOf
  rw [scan_lastCells]
  rfl

theorem scan_failsafe : (st0.scan found).failsafe = !(st0.scan found).store.failed.isEmpty := rfl

/-! #### What the scan leaves of the store -/

theorem scan_settles_marker : st0.marker.settled (st0.scan found).store.marker .marker found none none :=
  settled_of_scanned (decay_cell found.decayed st0 .marker) (scan_scanned _ _ _ _)

theorem scan_settles {c : Cell} (record : c ≠ .marker) : st0.onCell (st0.scan found).store (fun x y =>
    x.settled y c found (st0.scan found).store.unclosed ((st0.scan found).store.lastOf c)) c :=
  (decay_cell found.decayed st0 c).trans (scan_cell st0 found record) fun x y z decays e => by
    rw [e]
    exact settled_of_scanned decays (scan_scanned _ _ _ _)

/-- The failed cells are those that have failed at the scan. -/
theorem mem_scan_failed (c : Cell) :
    c ∈ (st0.scan found).store.failed ↔ st0.onCell (st0.scan found).store (fun _ y => y.scanFailed) c := by
  have marker := (scan_scanned (st0.decay found.decayed).marker none none (decide (.marker ∉ found.repairFails))).scanFailed_iff
  rw [scan_failed, List.mem_append, List.mem_append, mem_cellsWith _ _ (st0.scan found).store, mem_cellsWith _ _ (st0.scan found).store]
  by_cases record : c = .marker
  · subst record
    have failed : Cell.marker ∈ (if !(st0.scanMarker found).pair.effective.isSome || (st0.scanMarker found).repairFailed
        then [Cell.marker] else []) ↔ (st0.scanMarker found).pair.effective.isNone = true ∨ (st0.scanMarker found).repairFailed = true := by
      cases (st0.scanMarker found).pair.effective <;> cases (st0.scanMarker found).repairFailed <;> simp
    rw [failed]
    simp only [ne_eq, not_true_eq_false, false_and, false_or]
    exact marker.symm
  · have other : c ∉ (if !(st0.scanMarker found).pair.effective.isSome || (st0.scanMarker found).repairFailed
        then [Cell.marker] else []) := by
      split
      · simpa using record
      · exact List.not_mem_nil
    have cell := (scan_cell st0 found record).congr (p := fun _ y => y.scanFailed)
      (q := fun x _ => ((st0.scan found).store.scanCell found c x).pair.effective.isNone = true ∨
        ((st0.scan found).store.scanCell found c x).repairFailed = true)
      fun x y e => by rw [e]; exact (scan_scanned x _ _ _).scanFailed_iff
    rw [Store.onCell.after_iff (st0.decay found.decayed), cell, Store.onCell.or_iff]
    simp only [other, or_false, ne_eq, record, not_false_eq_true, true_and]

/-- A record copy found passing carries the tag. -/
def Store.recordTag (old new : Store) (found : ScanFindings) (tag : Count32) : Prop :=
  ∃ c, c ≠ .marker ∧ old.onCell new (fun x _ => ∃ side, x.found c found side ∧ (x.copy side).tag = tag) c

/-- A copy is found passing where it passes after its decay. -/
theorem recordTag_iff (new : Store) (tag : Count32) : st0.recordTag new found tag ↔ ∃ c, c ≠ .marker ∧
    (st0.decay found.decayed).onCell new (fun y _ => ∃ side, (y.copy side).passes = true ∧ (y.copy side).tag = tag) c := by
  refine exists_congr fun c => and_congr_right fun _ => (decay_cell found.decayed st0 c).before_iff fun x y decays => ?_
  exact exists_congr fun side => and_congr (decays.found_iff side) (by rw [decays.tag])

/-- A copy has been rolled back where a record copy found passing is of the unclosed group (R83). -/
theorem scan_rolledBack_iff_recordTag : (st0.scan found).rolledBack = true ↔
    ∃ tag, (st0.scan found).store.unclosed = some tag ∧ st0.recordTag (st0.scan found).store found tag := by
  have some' : (st0.scan found).rolledBack = true ↔ ∃ c, c ≠ .marker ∧ (st0.decay found.decayed).onCell (st0.scan found).store
      (fun x _ => ((st0.scan found).store.scanCell found c x).rolledBack = true) c := by
    rw [scan_rolledBack, Bool.not_eq_true', List.isEmpty_eq_false_iff_exists_mem]
    exact exists_congr fun c => mem_cellsWith _ _ _ _ _ _
  have cell (c : Cell) {α : Type} (x : CellPair α) : ((st0.scan found).store.scanCell found c x).rolledBack = true ↔
      ∃ side, (x.copy side).passes = true ∧ (st0.scan found).store.unclosed = some (x.copy side).tag :=
    scan_rolledBack_iff _ _ _ _
  simp only [some', cell, recordTag_iff]
  cases (st0.scan found).store.unclosed with
  | none =>
    simp only [reduceCtorEq, and_false, exists_false, false_and, iff_false, not_exists, not_and]
    intro c _ h
    cases c <;> exact h
  | some tag => simp only [Option.some.injEq, exists_eq_left', eq_comm]

/-! #### The highest tag of a passing record copy (R82) -/

theorem foldl_highest (l : List Count32) (m : Count32) :
    (l.foldl (fun m t => if m.toNat < t.toNat then t else m) m = m ∨ l.foldl (fun m t => if m.toNat < t.toNat then t else m) m ∈ l) ∧
      ∀ t, t = m ∨ t ∈ l → t.toNat ≤ (l.foldl (fun m t => if m.toNat < t.toNat then t else m) m).toNat := by
  induction l generalizing m with
  | nil => simp
  | cons a l ih =>
    obtain ⟨among, highest⟩ := ih (if m.toNat < a.toNat then a else m)
    rw [List.foldl_cons]
    have first : m.toNat ≤ (if m.toNat < a.toNat then a else m).toNat ∧ a.toNat ≤ (if m.toNat < a.toNat then a else m).toNat := by
      split <;> omega
    have fold := highest _ (.inl rfl)
    refine ⟨?_, fun t h => ?_⟩
    · rcases among with e | m
      · rw [e]
        split
        · exact .inr List.mem_cons_self
        · exact .inl rfl
      · exact .inr (List.mem_cons_of_mem _ m)
    · rcases h with rfl | h
      · exact first.1.trans fold
      · rcases List.mem_cons.1 h with rfl | h
        · exact first.2.trans fold
        · exact highest t (.inr h)

theorem highestTag_spec (l : List Count32) : (l ≠ [] → highestTag l ∈ l) ∧ ∀ t ∈ l, t.toNat ≤ (highestTag l).toNat := by
  obtain ⟨among, highest⟩ := foldl_highest l 0
  refine ⟨fun some' => ?_, fun t m => highest t (.inr m)⟩
  rcases among with zero | m
  · obtain ⟨t, m⟩ := List.exists_mem_of_ne_nil l some'
    have least := highest t (.inr m)
    rw [zero] at least
    have e : t = 0 := BitVec.eq_of_toNat_eq (by simpa using least)
    rw [highestTag, zero, ← e]
    exact m
  · exact m

theorem mem_cell_passingTags {α : Type} (x : CellPair α) (tag : Count32) :
    tag ∈ x.passingTags ↔ ∃ side, (x.copy side).passes = true ∧ (x.copy side).tag = tag := by
  have one (y : CellCopy α) : tag ∈ (if y.passes then [y.tag] else []) ↔ y.passes = true ∧ y.tag = tag := by
    cases y.passes <;> simp [eq_comm]
  rw [CellPair.passingTags, List.mem_append, one, one]
  constructor
  · rintro (a | b)
    · exact ⟨.a, a⟩
    · exact ⟨.b, b⟩
  · rintro ⟨side, h⟩
    cases side
    · exact .inl h
    · exact .inr h

theorem mem_passingTags_iff (st new : Store) (tag : Count32) : tag ∈ st.passingTags ↔
    ∃ c, c ≠ .marker ∧ st.onCell new (fun y _ => ∃ side, (y.copy side).passes = true ∧ (y.copy side).tag = tag) c := by
  simp only [Store.passingTags, List.mem_append, List.mem_flatMap, allSlots_mem, allRanges_mem, true_and, mem_cell_passingTags]
  constructor
  · rintro (((((((((h | ⟨i, h⟩) | ⟨r, h⟩) | h) | h) | h) | h) | h) | h) | h)
    · exact ⟨.profile, nofun, h⟩
    · exact ⟨.cred i, nofun, h⟩
    · exact ⟨.range r, nofun, h⟩
    · exact ⟨.shadow, nofun, h⟩
    · exact ⟨.counters, nofun, h⟩
    · exact ⟨.binding, nofun, h⟩
    · exact ⟨.triggers, nofun, h⟩
    · exact ⟨.lockdown, nofun, h⟩
    · exact ⟨.plan, nofun, h⟩
    · exact ⟨.token, nofun, h⟩
  · rintro ⟨c, record, h⟩
    cases c with
    | marker => exact absurd rfl record
    | cred i =>
      have among : ∃ i : SlotId, ∃ side, (st.creds[i].copy side).passes = true ∧ (st.creds[i].copy side).tag = tag := ⟨i, h⟩
      simp only [among, true_or, or_true]
    | range r =>
      have among : ∃ r : RangeId, ∃ side, (st.ranges[r].copy side).passes = true ∧ (st.ranges[r].copy side).tag = tag := ⟨r, h⟩
      simp only [among, true_or, or_true]
    | _ =>
      simp only [Store.onCell] at h
      simp only [h, true_or, or_true]

theorem scan_highest (lost : (st0.scan found).store.marker.effective = none)
    (some' : ∃ tag, st0.recordTag (st0.scan found).store found tag) :
    st0.recordTag (st0.scan found).store found (st0.scan found).store.lastClosed ∧
      ∀ tag, st0.recordTag (st0.scan found).store found tag → tag.toNat ≤ (st0.scan found).store.lastClosed.toNat := by
  have number : (st0.scan found).store.lastClosed = highestTag (st0.decay found.decayed).passingTags := by
    rw [scan_lastClosed, lastMarker_none _ _ lost]
  obtain ⟨among, highest⟩ := highestTag_spec (st0.decay found.decayed).passingTags
  simp only [recordTag_iff, ← mem_passingTags_iff] at some' ⊢
  rw [number]
  exact ⟨among (List.ne_nil_of_mem some'.choose_spec), highest⟩

end Scan

end Sys2Proof.Machine

namespace Sys2Proof.Machine

/-! ### The start-up after the scan (R83, R84) -/

theorem startCharge_keeps (s : State) : s.startCharge.power.part = s.power.part ∧ s.startCharge.events = s.events := by
  unfold State.startCharge
  split
  · unfold State.submit
    split <;> exact ⟨rfl, rfl⟩
  · exact ⟨rfl, rfl⟩

/-- What the scan's outcome makes of the part state and the events of a start-up. -/
theorem startUp_outcome (s : State) (cause : StartCause) (found : ScanFindings) :
    (s.startUp cause found).power.part = (if (s.store.scan found).failsafe then .failsafe else .starting) ∧
      (EventKind.storeFault ∈ (s.startUp cause found).events.pending ↔ (s.store.scan found).failsafe = true) ∧
      (EventKind.storeRollback ∈ (s.startUp cause found).events.pending ↔ (s.store.scan found).rolledBack = true) ∧
      ((s.store.scan found).failsafe = true → (s.startUp cause found).store = (s.store.scan found).store) := by
  unfold State.startUp
  generalize s.store.scan found = o
  dsimp only
  have bare : (s.startVolatile o.store cause o.rolledBack).events.pending = [] := rfl
  have part : (s.startVolatile o.store cause o.rolledBack).power.part = .starting := rfl
  have store : (s.startVolatile o.store cause o.rolledBack).store = o.store := rfl
  generalize s.startVolatile o.store cause o.rolledBack = v at *
  have rolled : ∃ u : State, u = (if o.rolledBack then v.raise .storeRollback else v) ∧ u.power.part = .starting ∧ u.store = o.store ∧
      EventKind.storeFault ∉ u.events.pending ∧ (EventKind.storeRollback ∈ u.events.pending ↔ o.rolledBack = true) := by
    refine ⟨_, rfl, ?_⟩
    split
    · next rolledBack => exact ⟨part, store, by simp [State.raise, bare], by simp [State.raise, rolledBack]⟩
    · next other => exact ⟨part, store, by simp [bare], by simp [bare, other]⟩
  obtain ⟨u, same, part, store, quiet, rollback⟩ := rolled
  rw [← same]
  split
  · next failsafe =>
    refine ⟨rfl, iff_of_true ((mem_withEvent _ _ _).2 (.inl rfl)) failsafe, ?_, fun _ => store⟩
    exact (mem_withEvent _ _ _).trans ((or_iff_right EventKind.noConfusion).trans rollback)
  · next running =>
    obtain ⟨part', events⟩ := startCharge_keeps u
    rw [part', events]
    exact ⟨part, iff_of_false quiet running, rollback, fun failsafe => absurd failsafe running⟩

/-- A start-up in the event that begins it: the level of ALERT is all that follows. -/
theorem settle_startUp (s : State) (cause : StartCause) (found : ScanFindings) :
    settle (s.startUp cause found) = settleAlert (s.startUp cause found) ∧
      ∃ writing, (s.startUp cause found).store = { (s.store.scan found).store with writing := writing } ∧
        (s.startUp cause found).power.rollbackFound = (s.store.scan found).rolledBack ∧
        ∀ r : RangeId, (s.startUp cause found).table[r].service =
          if r ≠ 0 ∧ ((s.startUp cause found).range r).fields.length = 0 then .undefined else .active := by
  obtain ⟨part, stage, working, pending, writing, starts⟩ := startUp_startsAs s cause found
  have unaccepted : (s.store.scan found).store.wipeAccepted = false := rfl
  generalize (s.store.scan found).store = store at starts unaccepted ⊢
  generalize (s.store.scan found).rolledBack = rolledBack at starts ⊢
  refine ⟨?_, writing, ?_⟩
  · rw [starts.state]
    exact settle_resting (starts.parts.imp_right fun e => ⟨e, unaccepted⟩) rfl rfl rfl (fun t => tab32_get _ t) rfl rfl rfl rfl
  · rw [starts.state]
    exact ⟨rfl, rfl, fun r => congrArg RangeLive.service
      (tab16_get (fun r => rebuiltRange r (({ s with store := store } : State).range r)) r)⟩

theorem read_lost {α : Type} {x : CellPair α} (h : x.effective = none) (lost : α) : x.read lost = lost := by
  rw [CellPair.read, h]

/-- A range whose cell is lost reads as its manufacture contents, without a key under the root (R84). -/
theorem lostRange_fields (r : RangeId) : (lostRange r).fields = defaultFields ∧
    lostRange r = { lostRange r with tweakOrigin := 0, rootWrap := none } := by
  unfold lostRange manufacturedRange
  split <;> exact ⟨rfl, rfl⟩

/-- One copy that remains beside one of the unclosed group (R82, R83). -/
theorem scan_rollsBack {α : Type} (c : CellPair α) (side : Side) (unclosed : Count32) (last : Option Count32) (lost : α)
    (passes : (c.copy side).passes = true) (closed : (c.copy side).tag ≠ unclosed) (tag : (c.copy (otherSide side)).tag = unclosed)
    (open' : (c.copy (otherSide side)).passes = true) (whole : ∀ z, last = some z → (c.copy side).tag = z) :
    (c.scan (some unclosed) last true).pair.read lost = (c.copy side).content ∧ (c.scan (some unclosed) last true).rolledBack = true ∧
      (c.scan (some unclosed) last true).repairFailed = false ∧ (c.scan (some unclosed) last true).pair.copy side = c.copy side ∧
      (c.scan (some unclosed) last true).pair.copy (otherSide side) = c.copy side := by
  have remains : (c.copy side).remains (some unclosed) = true := by
    rw [remains_iff]
    exact ⟨passes, fun e => closed (Option.some.inj e).symm⟩
  have other : (c.copy (otherSide side)).remains (some unclosed) = false := by
    simp [CellCopy.remains, tag]
  obtain ⟨effective, stays, rewritten, repaired⟩ :=
    (scan_scanned c (some unclosed) last true).effective_alone (chosen_alone c _ remains other) whole other
  refine ⟨?_, (scan_rolledBack_iff _ _ _ _).2 ⟨otherSide side, open', by rw [tag]⟩, repaired, stays, ?_⟩
  · rw [CellPair.read, effective]
    exact congrArg CellCopy.content stays
  · rw [rewritten, ← passes]

/-- What the owners read of the cells that a scan found lost (R84). -/
structure ReadsLost (t : State) : Prop where
  creds : ∀ i : SlotId, t.store.creds[i].effective = none → t.cred i = emptySlot
  ranges : ∀ r : RangeId, t.store.ranges[r].effective = none → t.range r = lostRange r
  shadow : t.store.shadow.effective = none → t.shadowRecord = manufacturedShadow (Config.unstatedKey 0)
  counters : t.store.counters.effective = none → t.counters = manufacturedCounters
  binding : t.store.binding.effective = none → t.bindingRecord = manufacturedBinding
  triggers : t.store.triggers.effective = none → t.triggers = manufacturedTriggers
  lockdown : t.store.lockdown.effective = none → t.lockdownRecord = manufacturedLockdown
  plan : t.store.plan.effective = none → t.plan = emptyPlan
  token : t.store.token.effective = none → t.token = none

theorem readsLost (t : State) : ReadsLost t :=
  ⟨fun _ h => read_lost h _, fun _ h => read_lost h _, fun h => read_lost h _, fun h => read_lost h _, fun h => read_lost h _,
    fun h => read_lost h _, fun h => read_lost h _, fun h => read_lost h _, fun h => read_lost h _⟩

theorem Store.onCell.withWriting_iff {old new : Store} {p : {α : Type} → CellPair α → CellPair α → Prop} {c : Cell} (w : Option Writing) :
    old.onCell { new with writing := w } p c ↔ old.onCell new p c := by
  cases c <;> exact Iff.rfl

/-- The store `new` is what a scan of `old` leaves, cell by cell (R82, R83). -/
structure Store.ScannedTo (old new : Store) (found : ScanFindings) : Prop where
  marker : old.marker.settled new.marker .marker found none none
  number : ∀ side, new.marker.effective = some side → new.lastClosed = (new.marker.copy side).content.number
  highest : new.marker.effective = none → (∃ tag, old.recordTag new found tag) →
    old.recordTag new found new.lastClosed ∧ ∀ tag, old.recordTag new found tag → tag.toNat ≤ new.lastClosed.toNat
  cells : ∀ b, b ≠ .marker → old.onCell new (fun x y => x.settled y b found new.unclosed (new.lastOf b)) b
  failed : ∀ b, b ∈ new.failed ↔ old.onCell new (fun _ y => y.scanFailed) b

theorem scan_scannedTo (st : Store) (found : ScanFindings) : st.ScannedTo (st.scan found).store found where
  marker := scan_settles_marker st found
  number _ e := (scan_lastClosed st found).trans (congrArg CloseMarker.number (lastMarker_some st found e))
  highest := scan_highest st found
  cells _ record := scan_settles st found record
  failed := mem_scan_failed st found

theorem recordTag_withWriting (old new : Store) (found : ScanFindings) (w : Option Writing) (tag : Count32) :
    old.recordTag { new with writing := w } found tag ↔ old.recordTag new found tag :=
  exists_congr fun _ => and_congr_right fun _ => Store.onCell.withWriting_iff w

/-- The submission that a start-up makes touches no cell. -/
theorem Store.ScannedTo.withWriting {old new : Store} {found : ScanFindings} (m : old.ScannedTo new found) (w : Option Writing) :
    old.ScannedTo { new with writing := w } found where
  marker := m.marker
  number := m.number
  highest := by
    simp only [recordTag_withWriting]
    exact m.highest
  cells b record := (m.cells b record).withWriting w
  failed b := (m.failed b).trans (Store.onCell.withWriting_iff w).symm

/-- The two events of a scan: power-on of a part without power, and the restart that RESET-PART makes due. -/
theorem exec_scan (s : State) (found : ScanFindings) (c : Instr)
    (begins : (c = .powerOn found ∧ s.power.powered = false) ∨ (c = .partRestart found ∧ s.power.powered = true ∧ s.restartDue = true)) :
    ∃ cause, exec c s = .next (settle (s.startUp cause found)) := by
  rcases begins with ⟨rfl, off⟩ | ⟨rfl, on, due⟩
  · exact ⟨.powerOn, congrArg Host.Outcome.next (if_neg (by rw [off]; decide))⟩
  · exact ⟨.partReset, congrArg Host.Outcome.next ((whilePowered_on _ on).trans (congrArg settle (if_pos due)))⟩

/-- Settles O23: the scan cell by cell, and what the start-up makes of its outcome. -/
theorem scanSettlesStore : Obligations.ScanSettlesStore := by
  refine ⟨fun α => scan_rollsBack, fun s scan c begins => ?_⟩
  obtain ⟨cause, starts⟩ := exec_scan s scan c begins
  obtain ⟨settled, writing, store, rollback, service⟩ := settle_startUp s cause scan
  obtain ⟨part, fault, rolled, fails⟩ := startUp_outcome s cause scan
  have ceased : (s.store.scan scan).store.writing = none ∧ (s.store.scan scan).store.queue = [] ∧ (s.store.scan scan).store.held = [] :=
    ⟨rfl, rfl, rfl⟩
  have found : s.store.ScannedTo (s.startUp cause scan).store scan := by
    rw [store]
    exact (scan_scannedTo s.store scan).withWriting writing
  have failing : (s.store.scan scan).failsafe = true ↔ (s.startUp cause scan).store.failed ≠ [] := by
    rw [store, scan_failsafe, Bool.not_eq_true']
    exact List.isEmpty_eq_false_iff
  have tagged : (s.store.scan scan).rolledBack = true ↔
      ∃ tag, (s.startUp cause scan).store.unclosed = some tag ∧ s.store.recordTag (s.startUp cause scan).store scan tag := by
    rw [store]
    simp only [recordTag_withWriting]
    exact scan_rolledBack_iff_recordTag s.store scan
  rw [settled] at starts
  generalize s.startUp cause scan = x at *
  generalize s.store.scan scan = o at *
  have reads := readsLost x
  refine ⟨_, starts, found.marker, found.number, found.highest, found.cells, found.failed, ?_, fault.trans failing, fun h => ?_, ?_,
    rolled.trans tagged, reads.creds, fun r h => ?_, fun h => ?_, reads.counters, reads.binding, reads.triggers, reads.lockdown, reads.plan,
    reads.token⟩
  · refine part.trans ?_
    by_cases e : x.store.failed = []
    · exact (if_neg (fun h => failing.1 h e)).trans (if_pos e).symm
    · exact (if_pos (failing.2 e)).trans (if_neg e).symm
  · have store' : (settleAlert x).store = o.store := fails (failing.2 h)
    rw [store']
    exact ceased
  · exact (Bool.eq_iff_iff.1 rollback).trans tagged
  · obtain ⟨fields, bare⟩ := lostRange_fields r
    have record : x.range r = lostRange r := reads.ranges r h
    refine ⟨(congrArg RangeRecord.fields record).trans fields, record.trans (bare.trans (by rw [← record]; rfl)), ?_⟩
    refine (service r).trans ?_
    rw [record, fields]
    by_cases e : r = 0
    · exact (if_neg (fun h => h.1 e)).trans (if_pos e).symm
    · exact (if_pos ⟨e, rfl⟩).trans (if_neg e).symm
  · have record : x.shadowRecord = manufacturedShadow (Config.unstatedKey 0) := reads.shadow h
    refine record.trans ?_
    rw [show (settleAlert x).shadowRecord = manufacturedShadow (Config.unstatedKey 0) from record]
    rfl

end Sys2Proof.Machine

namespace Sys2Proof.Machine

/-! ### The close of a group, cell by cell (R75, R77, R80) -/

theorem foldl_takeTarget {l : List Cell} (nodup : l.Nodup) (st : Store) (c : Cell) :
    st.onCell (l.foldl (fun st c => st.mapCell CellPair.takeTarget c) st) (fun x y => y = if c ∈ l then x.takeTarget else x) c := by
  induction l generalizing st with
  | nil => exact (onCell_refl st c).mono fun x y e => by simp [e]
  | cons d l ih =>
    obtain ⟨new, rest⟩ := List.nodup_cons.1 nodup
    by_cases same : c = d
    · subst same
      exact (mapCell_here st CellPair.takeTarget c).trans (ih rest _) fun x y z e e' => by simp [e', e, new]
    · exact (mapCell_there st CellPair.takeTarget same).trans (ih rest _) fun x y z e e' => by simp [e', e, same]

theorem Record.cell_apart (q : Record) : q.cell ≠ .profile ∧ q.cell ≠ .marker := by cases q <;> exact ⟨nofun, nofun⟩

section Close

variable (st : Store) (w : Writing)

/-- What a submission, a release or the start of the next group leaves of a store: every copy, and all but the queue, the writing group and
the held groups (R77, R78). -/
def Store.SameCells (old new : Store) : Prop := { new with queue := old.queue, writing := old.writing, held := old.held } = old

theorem Store.SameCells.refl : st.SameCells st := rfl

theorem Store.SameCells.trans {a b c : Store} (h : a.SameCells b) (k : b.SameCells c) : a.SameCells c := by
  unfold Store.SameCells at *
  rw [← h, ← k]

theorem Store.SameCells.onCell {old new : Store} (h : old.SameCells new) (c : Cell) : old.onCell new (fun x y => y = x) c := by
  rw [← h]
  exact onCell_refl new c

theorem releaseHeld_sameCells (who : Submitter) : st.SameCells (st.releaseHeld who) := by
  unfold Store.releaseHeld
  split <;> rfl

theorem beginNext_sameCells : st.SameCells st.beginNext := by
  unfold Store.beginNext
  split <;> rfl

/-- The store at the close, before it turns to what waits. -/
def Store.closed : Store :=
  let flipped := w.group.cells.foldl (fun st c => st.mapCell CellPair.takeTarget c) (st.writeMarker w true)
  { flipped with
    marker := flipped.marker.takeTarget
    lastClosed := w.number
    writing := none
    writtenSince := (Cell.marker :: w.group.cells).foldl (fun l c => insertNew c l) flipped.writtenSince }

/-- The close of the store turns to what waits last (R77, R78). -/
theorem closed_sameCells_close : (st.closed w).SameCells (st.close w) :=
  (releaseHeld_sameCells _ _).trans (beginNext_sameCells _)

theorem close_lastClosed : (st.close w).lastClosed = w.number :=
  congrArg Store.lastClosed (closed_sameCells_close st w)

/-- The close makes the target of each of the group's cells effective, and leaves every other record cell (R75). -/
theorem close_cell (nodup : w.group.cells.Nodup) {c : Cell} (record : c ≠ .marker) :
    st.onCell (st.close w) (fun x y => y = if c ∈ w.group.cells then x.takeTarget else x) c := by
  have marked : st.onCell (st.writeMarker w true) (fun x y => y = x) c := writeMarker_there st w true record
  have flipped := marked.trans (foldl_takeTarget nodup (st.writeMarker w true) c) (fun x y z e e' => (e ▸ e' :
    z = if c ∈ w.group.cells then x.takeTarget else x))
  have closed : st.onCell (st.closed w) (fun x y => y = if c ∈ w.group.cells then x.takeTarget else x) c := by
    cases c with
    | marker => exact absurd rfl record
    | _ => exact flipped
  exact closed.trans ((closed_sameCells_close st w).onCell c) fun x y z e e' => e'.trans e

/-- No group writes the drive profile. -/
theorem close_profile (nodup : w.group.cells.Nodup) : (st.close w).profile = st.profile := by
  have apart : Cell.profile ∉ w.group.cells := fun among => by
    obtain ⟨q, _, e⟩ := List.mem_map.1 among
    exact q.cell_apart.1 e
  have kept : (st.close w).profile = _ := close_cell st w nodup (c := .profile) Cell.noConfusion
  rw [kept, if_neg apart]

end Close

/-- A target that is taken is what its owner reads (R80). -/
theorem inEffect_of_taken {s t : State} {q : Record}
    (m : s.store.onCell t.store (fun x y => ∀ lost, y.read lost = (x.copy x.target).content) q.cell) (h : q.inTarget s.store) :
    q.inEffect t := by
  cases q <;> exact (m _).trans h

/-- At the close of `w` the records of its group, and no others, have taken effect (R77, R80). -/
structure TakesEffect (s t : State) (w : Writing) : Prop where
  records : ∀ r ∈ w.group.records, r.inEffect t
  others : ∀ q : Record, q.cell ∉ w.group.cells → (q.inEffect t ↔ q.inEffect s)
  profile : t.store.profile = s.store.profile
  lastClosed : t.store.lastClosed = w.number

theorem takesEffect_of_sameCells {s t : State} {w : Writing} (nodup : w.group.cells.Nodup)
    (target : ∀ r ∈ w.group.records, r.inTarget s.store) (same : (s.store.close w).SameCells t.store) : TakesEffect s t w where
  records r among := by
    have cell := (close_cell s.store w nodup r.cell_apart.2).trans (same.onCell _) fun x y z e e' => e'.trans e
    have among' : r.cell ∈ w.group.cells := List.mem_map_of_mem among
    exact inEffect_of_taken (cell.mono fun x y e lost => by rw [e, if_pos among']; rfl) (target r among)
  others q apart := by
    have cell := (close_cell s.store w nodup q.cell_apart.2).trans (same.onCell _) fun x y z e e' => e'.trans e
    exact inEffect_iff (cell.mono fun x y e lost => by rw [e, if_neg apart])
  profile := (congrArg Store.profile same).trans (close_profile _ _ nodup)
  lastClosed := (congrArg Store.lastClosed same).trans (close_lastClosed _ _)

end Sys2Proof.Machine

namespace Sys2Proof.Machine

/-! ### What the owners do at a close leaves every copy (R77 step 3)

At a close the owners change their own state, and submit. `KeepsCells` is kept along all of it but the final commit, after which a start-up may
follow. -/

/-- From `s` to `t` no copy of the store has changed, nor the last closed number. -/
def KeepsCells (s t : State) : Prop := s.store.SameCells t.store

namespace KeepsCells

theorem refl (s : State) : KeepsCells s s := rfl

variable {s t u : State} (h : KeepsCells s t)
include h

theorem trans (k : KeepsCells t u) : KeepsCells s u := Store.SameCells.trans h k

theorem same (e : u.store = t.store) : KeepsCells s u := h.trans (by rw [KeepsCells, Store.SameCells, e])

theorem kept (k : Kept t u) : KeepsCells s u := h.trans k.cells

/-- An operation on transfers, lanes, keys and ranges. -/
theorem aside (e : transferFrame u.besideRanges = transferFrame t.besideRanges) : KeepsCells s u := by
  have store := congrArg State.store e
  exact h.same store

theorem framed (e : transferFrame u = transferFrame t) : KeepsCells s u := by
  have beside := congrArg State.besideRanges e
  exact h.aside beside

theorem ite {c : Prop} [Decidable c] (k : KeepsCells s u) : KeepsCells s (if c then t else u) := by split <;> assumption

theorem forEach {α : Type} {f : α → State → State} (step : ∀ a {t : State}, KeepsCells s t → KeepsCells s (f a t)) (l : List α) :
    KeepsCells s (Machine.forEach l f t) := by
  induction l generalizing t with
  | nil => exact h
  | cons a l ih => exact ih (step a h)

/-! #### Updates of other parts of the state -/

theorem raise (k : EventKind) : KeepsCells s (t.raise k) := h.same rfl
theorem setLockdown (x : LockdownRecord) : KeepsCells s (t.setLockdown x) := h.same rfl
theorem setBinding (b : Binding) : KeepsCells s (t.setBinding b) := h.same rfl
theorem setWipe (w : Wipe) : KeepsCells s (t.setWipe w) := h.same rfl
theorem restage (r : RangeId) : KeepsCells s (t.restage r) := h.same rfl
theorem setOpenAt (i : SlotId) (n : Nat) : KeepsCells s (t.setOpenAt i n) := h.same rfl
theorem modRange (r : RangeId) (f : RangeLive → RangeLive) : KeepsCells s (t.modRange r f) := h.same rfl
theorem revokeAuthority : KeepsCells s t.revokeAuthority := by
  have ended : KeepsCells s t.endAuthority := h.same rfl
  exact (ended.raise _).ite ended

theorem submit (g : Group) : KeepsCells s (t.submit g) := h.kept (kept_submit t g)
theorem reply (code : Code) (payload : Payload) : KeepsCells s (t.reply code payload) := h.kept (kept_reply t code payload)
theorem modKey (o : Owner) (f : KeyEntry → KeyEntry) : KeepsCells s (t.modKey o f) := h.kept (kept_modKey t o f)
theorem drainIfClosed (r : RangeId) : KeepsCells s (t.drainIfClosed r) := h.kept (kept_drainIfClosed t r)
theorem endCommit (code : Code) (payload : Payload) : KeepsCells s (t.endCommit code payload) := h.kept (kept_endCommit t code payload)
theorem noteRelocked {f : State → State} (step : ∀ {t : State}, KeepsCells s t → KeepsCells s (f t)) : KeepsCells s (noteRelocked f t) := by
  have noted (p : Power) : KeepsCells s { f t with power := p } := (step h).same rfl
  exact (noted _).ite (step h)

/-! #### Ranges and keys (R5, R12, R20, R22) -/

theorem loadFromRoot (r : RangeId) : KeepsCells s (t.loadFromRoot r) := by
  unfold State.loadFromRoot
  split
  · exact h.modKey _ _
  · exact h

theorem relock : KeepsCells s t.relock := h.forEach (fun r _ h => (h.modRange r _).drainIfClosed r) _

theorem holdAgainst (r : RangeId) (x : Held) : KeepsCells s (t.holdAgainst r x) := by
  unfold State.holdAgainst
  split
  · exact h.same rfl
  · exact h

theorem enterLockdown : KeepsCells s t.enterLockdown := by
  have range (r : RangeId) {t : State} (h : KeepsCells s t) : KeepsCells s (t.lockdownRange r) := by
    unfold State.lockdownRange
    split
    · exact h.aside (aside_lockRangeDown t r).frame
    · exact h.holdAgainst r _
    all_goals exact h
  exact ((h.endCommit _ _).ite h).forEach (fun r _ h => range r h) _

theorem leaveLockdown : KeepsCells s t.leaveLockdown := by
  have range (r : RangeId) {t : State} (h : KeepsCells s t) : KeepsCells s (t.unlockdownRange r) := by
    have active : KeepsCells s ((t.modRange r (fun e => { e with service := .active })).closeRange r) := h.same rfl
    exact ((active.loadFromRoot r).ite ((active.modKey _ _).ite active)).ite h
  exact h.forEach (fun r _ h => range r h) _

theorem eraseRange (r : RangeId) : KeepsCells s (t.eraseRange r) := h.aside (aside_eraseRange t r).frame

theorem markErasing (r : RangeId) : KeepsCells s (t.markErasing r) := by
  have ended := h.endCommit .slotState (.range (some r))
  unfold State.markErasing
  split
  · exact h.eraseRange r
  · exact h.eraseRange r
  · exact h
  · exact h
  · exact ((ended.eraseRange r).ite ended).ite ((h.holdAgainst r _).same rfl)

theorem markTarget (o : Owner) : KeepsCells s (t.markTarget o) := by
  cases o with
  | range r => exact h.markErasing r
  | shadow => exact h.framed (frame_abortOwner t .shadow .erase)

theorem markAccepted (targets : List Owner) (full : Bool) : KeepsCells s (t.markAccepted targets full) := by
  have new := h.forEach (f := fun o s => s.markTarget o) (fun o _ h => h.markTarget o)
    (targets.filter (fun o => (t.wipe.intended.item o).isNone))
  have all := new.forEach (f := fun r s => if s.defined r then s.markErasing r else s) (fun r _ h => (h.markErasing r).ite h) allRanges
  exact ((all.framed (frame_abortOwner _ .shadow .erase)).ite all).ite new

theorem acceptWipe (targets : List Owner) (overwrite full answers : Bool) :
    KeepsCells s (t.acceptWipe targets overwrite full answers).1 := by
  unfold State.acceptWipe
  dsimp only
  split
  · exact h
  · exact ((h.noteRelocked fun h => h.markAccepted _ _).setWipe _).submit _

theorem removeShadow : KeepsCells s t.removeShadow := by
  have off : KeepsCells s { t with shadow := .off } := h.same rfl
  exact ((off.modKey .shadow KeyEntry.drain).raise _).ite h

theorem switch (old : State) (c : Commit) : KeepsCells s (t.switch old c) := by
  have ranges : KeepsCells s (t.switchRanges old c) := h.aside (congrArg transferFrame (switchRanges_frame t old c))
  have held := ranges.aside (aside_held (t.switchRanges old c) c.held).frame
  rw [switch_eq]
  exact ((held.forEach (f := fun r s => s.restage r) (fun r _ h => h.restage r) allRanges).raise _).reply _ _

/-! #### The Trigger Unit (R113 to R118) -/

theorem exitDecision : KeepsCells s t.exitDecision := by
  have left : KeepsCells s t.leave := (h.setLockdown _).leaveLockdown.raise _
  exact (left.submit _).ite h

theorem act (x : Trigger) (a : Action) : KeepsCells s (t.act x a) := by
  have entered (y : LockdownRecord) := ((h.setLockdown y).noteRelocked fun h => h.enterLockdown).revokeAuthority
  cases a with
  | note => exact h
  | relock => exact (h.noteRelocked fun h => h.relock).revokeAuthority
  | lockdown => exact ((entered _).ite ((entered _).submit _)).ite (((entered _).raise _).submit _)
  | wipe => exact (h.acceptWipe _ _ _ _).revokeAuthority

theorem carryOut (x : Trigger) : KeepsCells s (t.carryOut x) := by
  have noted : KeepsCells s (t.noteFiring x) := h.same rfl
  exact noted.act x _

theorem fire (x : Trigger) : KeepsCells s (t.fire x) := by
  unfold State.fire
  split
  · exact h.same rfl
  · exact (h.carryOut x).ite (h.same rfl)
  · exact h.carryOut x

theorem handOverG : KeepsCells s t.handOverG := (h.fire _).ite h

theorem exitIfCleared (old : State) (x : Trigger) : KeepsCells s (t.exitIfCleared old x) := h.exitDecision.ite h

/-! #### The requests' closes -/

theorem applyUnlockSet (i : SlotId) (u : Unwrap) (l : List Unlock) : KeepsCells s (State.applyUnlockSet i u l t).1 := by
  induction l generalizing t with
  | nil => exact h
  | cons x l ih =>
    have opened : KeepsCells s ((t.setLocks x.range x.dirs false).ungate x.range) := h.same rfl
    have applied : KeepsCells s (t.applyUnlock i u x) := by
      unfold State.applyUnlock
      dsimp only
      split
      · exact opened.modKey _ _
      · split
        · exact opened.modKey _ _
        · exact opened
    unfold State.applyUnlockSet
    dsimp only
    split
    · exact ih h
    · exact ih applied

theorem successClosed (old : State) (a : Attempt) : KeepsCells s (t.successClosed old a) := by
  have opened := h.setOpenAt a.slot a.settledAt
  have granted {t : State} (h : KeepsCells s t) (i : SlotId) (u : Unwrap) : KeepsCells s (t.grantAuthority i u) := by
    have holder : KeepsCells s { t with authority := some { slot := i, unwrap := u }, authTimer := none } := h.same rfl
    exact holder.ite h
  unfold State.successClosed
  dsimp only
  split
  · exact ((granted (opened.applyUnlockSet _ _ _) _ _).reply _ _).exitIfCleared _ _
  · exact (opened.reply _ _).exitIfCleared _ _

theorem settledFailed (a : Attempt) : KeepsCells s (t.settledFailed a) := by
  have handed := (h.setOpenAt a.slot (a.settledAt + t.closedPeriodOf a.slot)).handOverG
  exact (handed.raise _).ite handed

theorem attemptClosed (old : State) (a : Attempt) : KeepsCells s (t.attemptClosed old a) := by
  unfold State.attemptClosed
  split
  · split
    · exact h.same rfl
    · exact h.same rfl
  · exact h
  · exact h.successClosed old a
  · exact (h.settledFailed a).reply _ _
  · exact ((h.settledFailed a).raise _).reply _ _

theorem credSetClosed (j : CredSetJob) : KeepsCells s (t.credSetClosed j) := by
  have renewed {t : State} (h : KeepsCells s t) (i : SlotId) (u : Unwrap) : KeepsCells s (t.renewUnwrap i u) := by
    unfold State.renewUnwrap
    split
    · split
      · exact h.same rfl
      · exact h
    · exact h
  have staged := (h.setOpenAt j.slot t.clock).forEach (f := fun r s => s.restage r) (fun r _ h => h.restage r) j.dropped
  exact (renewed staged _ _).reply _ _

theorem credPolicyClosed (old : State) (i : SlotId) : KeepsCells s (t.credPolicyClosed old i) := ((h.raise _).ite h).reply _ _

theorem credStateClosed (i : SlotId) (a : CredAction) : KeepsCells s (t.credStateClosed i a) := by
  have opened := (h.setOpenAt i t.clock).ite (c := a = .reopen) h
  exact ((opened.raise _).ite opened).reply _ _

theorem shadowConfigClosed (old : State) (enabled : Option Bool) (size : Option Nat) :
    KeepsCells s (t.shadowConfigClosed old enabled size) := by
  have removed := h.removeShadow.ite (c := enabled = some false) h
  exact ((removed.raise _).ite removed).reply _ _

theorem triggerSetClosed (limit : Option Nat) : KeepsCells s (t.triggerSetClosed limit) := by
  have timed : KeepsCells s { t with trigger := { t.trigger with idle := .stopped } } := h.same rfl
  exact ((timed.ite h).reply _ _).exitDecision

theorem enrolClosed (digest : Word16) : KeepsCells s (t.enrolClosed digest) := by
  have gate := ((h.setBinding { t.binding with state := .bound, rounds := 0, freshSecret := none, recheck := none }).exitIfCleared t
    .unbound).setBinding
  exact ((gate _).ite ((gate _).raise _)).reply _ _

theorem requestClosed (old : State) : KeepsCells s (t.requestClosed old) := by
  unfold State.requestClosed
  split
  · exact h
  · exact h.attemptClosed old _
  · exact h.switch old _
  · exact h.credSetClosed _
  · exact h.credPolicyClosed old _
  · exact h.credStateClosed _ _
  · exact h.shadowConfigClosed old _ _
  · exact h.triggerSetClosed _
  · exact h.reply _ _
  · exact h.reply _ _
  · exact h.handOverG.reply _ _
  · exact h
  · exact h.enrolClosed _
  · exact h

/-! #### The other closes (R127 to R133, R152) -/

theorem chargeClosed (lockedOut : Bool) : KeepsCells s (t.chargeClosed lockedOut) := by
  have charged : KeepsCells s (({ t with power := { t.power with attemptCharged := true } } : State).raise .attemptCharged) := h.same rfl
  exact ((charged.raise _).ite charged).handOverG.same rfl

theorem planClosed : KeepsCells s t.planClosed := by
  unfold State.planClosed
  split
  · exact h.reply _ _
  · exact h

theorem clearItem : KeepsCells s t.clearItem := h.setWipe _

theorem keyStepClosed (o : Owner) (key : Key) : KeepsCells s (t.keyStepClosed o key) := by
  have emptied : KeepsCells s (t.clearItem.emptyKeyOf o) := h.clearItem.modKey o _
  cases o with
  | range r => exact emptied.same rfl
  | shadow => exact emptied.same rfl

theorem itemDone (o : Owner) : KeepsCells s (t.itemDone o) := by
  have cleared := h.clearItem
  unfold State.itemDone
  refine h.ite (cleared.ite ?_)
  split
  · exact cleared.ite ((cleared.modRange _ _).ite ((cleared.modRange _ _).loadFromRoot _))
  · exact (cleared.modKey _ _).ite cleared

theorem closeEffect (old : State) (found : ScanFindings) {e : Effect} (other : ∀ key, e ≠ .finalCommit key) :
    KeepsCells s (t.closeEffect old found e) := by
  cases e with
  | request => exact h.requestClosed old
  | chargeStage i lockedOut => exact h.chargeClosed lockedOut
  | lockdownRecord => exact h
  | planAccepted => exact h.planClosed
  | trimmed r => exact h.same rfl
  | keyStep o key => exact h.keyStepClosed o key
  | cursor => exact h.raise _
  | itemDone o => exact h.itemDone o
  | planEnded o => exact h.ite (h.raise _)
  | finalCommit key => exact absurd rfl (other key)

theorem closeEffects (old : State) (found : ScanFindings) {l : List Effect} (other : ∀ key, Effect.finalCommit key ∉ l) :
    KeepsCells s (Machine.forEach l (fun e t => t.closeEffect old found e) t) := by
  induction l generalizing t with
  | nil => exact h
  | cons e l ih =>
    exact ih (h.closeEffect old found fun key same => other key (same ▸ List.mem_cons_self)) fun key among =>
      other key (List.mem_cons_of_mem _ among)

end KeepsCells

/-- From the close of the store on, a group's close leaves every copy, but for a full wipe's final commit. -/
theorem closeGroup_keepsCells (s : State) (w : Writing) (found : ScanFindings) (other : ∀ key, Effect.finalCommit key ∉ w.group.effects) :
    KeepsCells { s with store := s.store.close w } (s.closeGroup w found) := by
  have closed := KeepsCells.refl { s with store := s.store.close w }
  have effects := ((closed.raise .wipeStepDone).ite closed (c := stepAdvanced s.plan { s with store := s.store.close w }.plan)).closeEffects
    s found other
  exact ((effects.ite (effects.submit _))).ite effects

/-- What a group that is ready to close leaves at its close. -/
theorem exec_groupClose {s : State} {g : Group} (scan : ScanFindings) (ready : s.readyToClose g) :
    ∃ w : Writing, s.store.writing = some w ∧ w.group = g ∧ exec (.groupClose scan) s = .next (settle (s.closeGroup w scan)) := by
  obtain ⟨powered, ⟨number, tries, writing⟩, _⟩ := ready
  refine ⟨_, writing, rfl, ?_⟩
  have closing : s.store.closing = some { group := g, number := number, stage := .marker tries } := by rw [Store.closing, writing]
  show Host.Outcome.next (s.whilePowered _) = _
  rw [whilePowered_on _ powered, closing]

theorem closeGroup_takesEffect {s : State} {w : Writing} (scan : ScanFindings) (ready : s.readyToClose w.group)
    (other : ∀ key, Effect.finalCommit key ∉ w.group.effects) : TakesEffect s (s.closeGroup w scan) w := by
  obtain ⟨_, _, nodup, target⟩ := ready
  exact takesEffect_of_sameCells nodup target (closeGroup_keepsCells s w scan other)

theorem groupClose_takesEffect (s : State) (scan : ScanFindings) (g : Group) (ready : s.readyToClose g)
    (other : ∀ key, Effect.finalCommit key ∉ g.effects) :
    ∃ x, exec (.groupClose scan) s = .next (settle x) ∧ (∀ r ∈ g.records, r.inEffect x) ∧
      (∀ q : Record, q.cell ∉ g.cells → (q.inEffect x ↔ q.inEffect s)) ∧ x.store.profile = s.store.profile ∧
      ∀ w, s.store.writing = some w → x.store.lastClosed = w.number := by
  obtain ⟨w, writing, rfl, closes⟩ := exec_groupClose scan ready
  obtain ⟨records, others, profile, lastClosed⟩ := closeGroup_takesEffect scan ready other
  refine ⟨_, closes, records, others, profile, fun w' same => ?_⟩
  cases Option.some.inj (writing.symm.trans same)
  exact lastClosed

end Sys2Proof.Machine

namespace Sys2Proof.Machine

/-! ### The state that a group's one effect meets at its close -/

/-- `t` is `s` at the close of `w`, before its effect: the store and the events apart nothing has changed, and of the events only
WIPE_STEP_DONE may have been raised (R77, R123). -/
structure AtClose (s t : State) (w : Writing) : Prop extends TakesEffect s t w where
  rest : t = { s with store := t.store, events := t.events }
  told : ∀ k, k ≠ .wipeStepDone → (k ∈ t.events.pending ↔ k ∈ s.events.pending)

namespace AtClose

variable {s t : State} {w : Writing} (h : AtClose s t w)
include h

theorem executor : t.executor = s.executor := by rw [h.rest]
theorem power : t.power = s.power := by rw [h.rest]
theorem trigger : t.trigger = s.trigger := by rw [h.rest]
theorem table : t.table = s.table := by rw [h.rest]
theorem shadow : t.shadow = s.shadow := by rw [h.rest]
theorem clock : t.clock = s.clock := by rw [h.rest]
theorem authority : t.authority = s.authority := by rw [h.rest]

/-- The group's only record. -/
theorem record {r : Record} (only : w.group.records = [r]) : r.inEffect t := h.records r (by rw [only]; exact List.mem_singleton_self _)

/-- The request answers OK. -/
theorem reply_eq (executing : s.executor.status = .executing) (payload : Payload) : t.reply .ok payload = { t with
    executor := freeExecutor, authTimer := none, sent := s.sent ++ [replyTo s.executor.kind s.executor.tag .ok payload] } := by
  rw [Machine.reply_eq t .ok payload (by rw [h.executor]; exact executing), h.executor, show t.sent = s.sent by rw [h.rest]]

end AtClose

/-- The close of a group with one effect (R77). -/
theorem closeGroup_one {s : State} {w : Writing} {e : Effect} (scan : ScanFindings) (ready : s.readyToClose w.group)
    (effects : w.group.effects = [e]) : ∃ t, AtClose s t w ∧ s.closeGroup w scan =
      if Cell.lockdown ∈ w.group.cells then (t.closeEffect s scan e).compareRecord else t.closeEffect s scan e := by
  obtain ⟨_, _, nodup, target⟩ := ready
  let closed : State := { s with store := s.store.close w }
  refine ⟨if stepAdvanced s.plan closed.plan then closed.raise .wipeStepDone else closed, ?_, ?_⟩
  · split
    · exact ⟨takesEffect_of_sameCells nodup target rfl, rfl, fun k other => (mem_withEvent _ _ _).trans (or_iff_right other)⟩
    · exact ⟨takesEffect_of_sameCells nodup target rfl, rfl, fun k _ => Iff.rfl⟩
  · rw [State.closeGroup, effects]
    rfl

/-- The close of a group that writes no lockdown record. -/
theorem exec_groupClose_one {s : State} {g : Group} {e : Effect} (scan : ScanFindings) (ready : s.readyToClose g)
    (effects : g.effects = [e]) (apart : Cell.lockdown ∉ g.cells) :
    ∃ w t, w.group = g ∧ AtClose s t w ∧ exec (.groupClose scan) s = .next (settle (t.closeEffect s scan e)) := by
  obtain ⟨w, _, rfl, closes⟩ := exec_groupClose scan ready
  obtain ⟨t, at', same⟩ := closeGroup_one scan ready effects
  exact ⟨w, t, rfl, at', by rw [closes, same, if_neg apart]⟩

theorem bringRecordUp_rest (s : State) : s.bringRecordUp = { s with store := s.bringRecordUp.store } := by
  unfold State.bringRecordUp State.submit
  split <;> rfl

theorem compareRecord_rest (s : State) : s.compareRecord = { s with store := s.compareRecord.store } := by
  unfold State.compareRecord
  split
  · rfl
  · exact bringRecordUp_rest s

/-! ### WIPE-TOKEN-SET, LOCKDOWN-CLEAR and WIPE (R119, R125, R126) -/

theorem groupClose_answers (s : State) (scan : ScanFindings) (record : Record) (payload : Payload) (g : Group)
    (executing : s.executor.status = .executing)
    (request : (∃ token, g = requestGroup [record] ∧ record = .token token ∧ s.executor.job = .setToken token ∧ payload = .none) ∨
      (∃ l, g = requestGroup [record] ∧ record = .lockdown l ∧ s.executor.job = .lockdownClear ∧ payload = .none) ∨
      (∃ p, g = wipeGroup [record] [.planAccepted] false ∧ record = .plan p ∧ s.executor.job = .wipe ∧
        payload = .items p.items.length)) (ready : s.readyToClose g) :
    ∃ x, exec (.groupClose scan) s = .next (settle x) ∧ record.inEffect x ∧
      x.sent = s.sent ++ [replyTo s.executor.kind s.executor.tag .ok payload] ∧ x.executor = freeExecutor ∧
      x.table = s.table ∧ x.cache = s.cache ∧ x.shadow = s.shadow ∧ x.shadowEntry = s.shadowEntry ∧ x.inflight = s.inflight ∧
      x.authority = s.authority := by
  obtain ⟨w, _, rfl, closes⟩ := exec_groupClose scan ready
  have shape : ∃ e, w.group.effects = [e] ∧ w.group.records = [record] ∧ (∀ key, e ≠ .finalCommit key) ∧
      ∀ t, AtClose s t w → t.closeEffect s scan e = t.reply .ok payload := by
    rcases request with ⟨token, group, rfl, job, rfl⟩ | ⟨l, group, rfl, job, rfl⟩ | ⟨p, group, rfl, job, rfl⟩
    · exact ⟨.request, by rw [group]; rfl, by rw [group]; rfl, fun _ => Effect.noConfusion, fun t h => by
        rw [State.closeEffect, State.requestClosed, h.executor, job]⟩
    · exact ⟨.request, by rw [group]; rfl, by rw [group]; rfl, fun _ => Effect.noConfusion, fun t h => by
        rw [State.closeEffect, State.requestClosed, h.executor, job]⟩
    · refine ⟨.planAccepted, by rw [group]; rfl, by rw [group]; rfl, fun _ => Effect.noConfusion, fun t h => ?_⟩
      have plan : t.plan = p := h.record (r := .plan p) (by rw [group]; rfl)
      rw [State.closeEffect, State.planClosed, h.executor, job, ← plan]
  obtain ⟨e, effects, records, other, replies⟩ := shape
  have takes := closeGroup_takesEffect scan ready (by simpa [effects, eq_comm] using other)
  have inEffect := takes.records record (by rw [records]; exact List.mem_singleton_self _)
  obtain ⟨t, at', same⟩ := closeGroup_one scan ready effects
  rw [replies t at', at'.reply_eq executing, at'.rest] at same
  refine ⟨_, closes, inEffect, ?_⟩
  rw [same]
  split
  · rw [compareRecord_rest]
    exact ⟨rfl, rfl, rfl, rfl, rfl, rfl, rfl, rfl⟩
  · exact ⟨rfl, rfl, rfl, rfl, rfl, rfl, rfl, rfl⟩

end Sys2Proof.Machine

namespace Sys2Proof.Machine

/-! ### SHADOW-CONFIG (R159) -/

/-- What the window's removal changes: the window, its entry and MEDIA_VIEW_CHANGED. -/
theorem removeShadow_present {s : State} (present : s.shadow ≠ .off) :
    s.removeShadow = { s with shadow := .off, shadowEntry := s.shadowEntry.drain, events := (s.raise .mediaViewChanged).events } :=
  if_pos (decide_eq_true present)

theorem removeShadow_off {s : State} (off : s.shadow = .off) : s.removeShadow = s :=
  if_neg (by rw [State.windowPresent, off]; decide)

/-- The close of a SHADOW-CONFIG, but for the reply: whether MEDIA_VIEW_CHANGED is raised apart, the window is removed or not. -/
structure ShadowConfigured (s t u : State) (enabled : Option Bool) (size : Option Nat) : Prop where
  rest : u = { t with shadow := u.shadow, shadowEntry := u.shadowEntry, events := u.events }
  removed : enabled = some false → t.shadow ≠ .off →
    u.shadow = .off ∧ u.shadowEntry = t.shadowEntry.drain ∧ EventKind.mediaViewChanged ∈ u.events.pending
  kept : enabled ≠ some false ∨ t.shadow = .off → u.shadow = t.shadow ∧ u.shadowEntry = t.shadowEntry
  resized : enabled ≠ some false ∨ t.shadow = .off → size.isSome = true → t.shadow ≠ .off → t.shadowRecord.size ≠ s.shadowRecord.size →
    EventKind.mediaViewChanged ∈ u.events.pending
  quiet : enabled ≠ some false ∨ t.shadow = .off → size = none ∨ t.shadow = .off ∨ t.shadowRecord.size = s.shadowRecord.size →
    u.events = t.events

theorem shadowConfigClosed_eq (s t : State) (enabled : Option Bool) (size : Option Nat) :
    ∃ u, ShadowConfigured s t u enabled size ∧
      t.shadowConfigClosed s enabled size = u.reply .ok (.shadowConfig t.shadowRecord.enabled t.shadowRecord.size) := by
  refine ⟨_, ?_, rfl⟩
  by_cases removes : enabled = some false ∧ t.shadow ≠ .off
  · obtain ⟨disables, present⟩ := removes
    have apart : ¬ (enabled ≠ some false ∨ t.shadow = .off) := fun h => h.elim (fun h => h disables) (fun h => present h)
    rw [if_pos disables, removeShadow_present present, if_neg fun h => absurd h.2.2 (by simp [State.windowPresent])]
    exact ⟨rfl, fun _ _ => ⟨rfl, rfl, (mem_withEvent _ _ _).2 (.inl rfl)⟩, fun h => absurd h apart, fun h => absurd h apart,
      fun h => absurd h apart⟩
  · have same : (if enabled = some false then t.removeShadow else t) = t := by
      split
      · next disables => exact removeShadow_off (not_not.1 fun h => removes ⟨disables, h⟩)
      · rfl
    rw [same]
    split
    · next raises =>
      obtain ⟨some', changes, present⟩ := raises
      refine ⟨rfl, fun h k => absurd ⟨h, k⟩ removes, fun _ => ⟨rfl, rfl⟩, fun _ _ _ _ => (mem_withEvent _ _ _).2 (.inl rfl), ?_⟩
      rintro _ (h | h | h)
      · rw [h] at some'; exact absurd some' (by decide)
      · exact absurd present (by rw [State.windowPresent, h]; decide)
      · exact absurd h changes
    · next quiet =>
      exact ⟨rfl, fun h k => absurd ⟨h, k⟩ removes, fun _ => ⟨rfl, rfl⟩,
        fun _ some' present changes => absurd ⟨some', changes, decide_eq_true present⟩ quiet, fun _ _ => rfl⟩

theorem groupClose_shadowConfig (s : State) (scan : ScanFindings) (r : ShadowRecord) (enabled : Option Bool) (size : Option Nat)
    (ready : s.readyToClose (requestGroup [.shadow r])) (executing : s.executor.status = .executing)
    (job : s.executor.job = .shadowConfig enabled size) :
    ∃ x, exec (.groupClose scan) s = .next (settle x) ∧ x.shadowRecord = r ∧
      x.sent = s.sent ++ [replyTo s.executor.kind s.executor.tag .ok (.shadowConfig r.enabled r.size)] ∧ x.executor = freeExecutor ∧
      x.table = s.table ∧ x.cache = s.cache ∧ x.inflight = s.inflight ∧ x.authority = s.authority ∧
      (enabled = some false → s.shadow ≠ .off → x.shadow = .off ∧ EventKind.mediaViewChanged ∈ x.events.pending ∧
        (s.shadowEntry.state = .live → x.shadowEntry =
          if s.shadowEntry.refs = 0 then emptyKey else { s.shadowEntry with state := .draining })) ∧
      (enabled ≠ some false ∨ s.shadow = .off → x.shadow = s.shadow ∧ x.shadowEntry = s.shadowEntry ∧
        (size.isSome = true → s.shadow ≠ .off → r.size ≠ s.shadowRecord.size → EventKind.mediaViewChanged ∈ x.events.pending) ∧
        (size = none ∨ s.shadow = .off ∨ r.size = s.shadowRecord.size →
          (EventKind.mediaViewChanged ∈ x.events.pending ↔ EventKind.mediaViewChanged ∈ s.events.pending))) := by
  obtain ⟨w, t, group, at', closes⟩ := exec_groupClose_one scan ready rfl (by simp [requestGroup, Group.cells, Record.cell])
  have record : t.shadowRecord = r := at'.record (r := .shadow r) (by rw [group]; rfl)
  obtain ⟨u, configured, same⟩ := shadowConfigClosed_eq s t enabled size
  rw [record] at same
  have told := at'.told .mediaViewChanged EventKind.noConfusion
  obtain ⟨rest, removed, kept, resized, quiet⟩ := configured
  rw [record, at'.shadow] at resized quiet
  rw [at'.shadow, show t.shadowEntry = s.shadowEntry by rw [at'.rest]] at removed kept
  rw [State.closeEffect, State.requestClosed, at'.executor, job] at closes
  dsimp only at closes
  have answered : t.shadowConfigClosed s enabled size = _ := same.trans (reply_eq u .ok _ (by rw [rest, at'.executor]; exact executing))
  rw [answered] at closes
  have frame : u.store = t.store ∧ u.sent = s.sent ∧ u.executor = s.executor ∧ u.table = s.table ∧ u.cache = s.cache ∧
      u.inflight = s.inflight ∧ u.authority = s.authority := by
    rw [rest, at'.rest]
    exact ⟨rfl, rfl, rfl, rfl, rfl, rfl, rfl⟩
  obtain ⟨store, sent, executor, table, cache, inflight, authority⟩ := frame
  refine ⟨_, closes, ?_, by rw [sent, executor], rfl, table, cache, inflight, authority, fun disables present => ?_, fun stays => ?_⟩
  · rw [← record, State.shadowRecord, State.shadowRecord, store]
  · obtain ⟨off, drained, raised⟩ := removed disables present
    exact ⟨off, raised, fun live => by rw [drained, drain_eq, if_pos live]⟩
  · obtain ⟨window, entry⟩ := kept stays
    exact ⟨window, entry, resized stays, fun h => by rw [quiet stays h]; exact told⟩

end Sys2Proof.Machine

namespace Sys2Proof.Machine

/-! ### CRED-POLICY and CRED-STATE (R68, R69) -/

/-- An event that is raised under a condition. -/
theorem raiseIf_eq (s : State) (c : Prop) [Decidable c] (k : EventKind) :
    ∃ events, (if c then s.raise k else s) = { s with events := events } ∧ (k ∈ events.pending ↔ c ∨ k ∈ s.events.pending) := by
  split
  · next holds => exact ⟨_, rfl, iff_of_true ((mem_withEvent _ _ _).2 (.inl rfl)) (.inl holds)⟩
  · next fails => exact ⟨_, rfl, (or_iff_right fails).symm⟩

theorem credPolicyClosed_eq {s t : State} {w : Writing} (at' : AtClose s t w) (executing : s.executor.status = .executing) (i : SlotId) :
    ∃ events, (EventKind.slotLockedOut ∈ events.pending ↔
        ((t.cred i).state = .lockedOut ∧ (s.cred i).state ≠ .lockedOut) ∨ EventKind.slotLockedOut ∈ s.events.pending) ∧
      t.credPolicyClosed s i = { t with
        events := events, executor := freeExecutor, authTimer := none
        sent := s.sent ++ [replyTo s.executor.kind s.executor.tag .ok
          (.credPolicy (t.cred i).policy (t.cred i).failures t.counters.idleLimit)] } := by
  obtain ⟨events, told, raised⟩ := raiseIf_eq t ((t.cred i).state = .lockedOut ∧ (s.cred i).state ≠ .lockedOut) .slotLockedOut
  refine ⟨events, raised.trans (or_congr Iff.rfl (at'.told _ EventKind.noConfusion)), ?_⟩
  unfold State.credPolicyClosed
  dsimp only
  rw [told, reply_eq _ _ _ (by rw [at'.executor]; exact executing), at'.executor, at'.rest]

theorem groupClose_credPolicy (s : State) (scan : ScanFindings) (i : SlotId) (c : CredRecord) (more : List Record)
    (policy : Policy) (idle : Option Nat) (ready : s.readyToClose (requestGroup (.cred i c :: more)))
    (shape : more = [] ∨ (∃ k, more = [.counters k]))
    (executing : s.executor.status = .executing) (job : s.executor.job = .credPolicy i policy idle) :
    ∃ x, exec (.groupClose scan) s = .next (settle x) ∧ x.cred i = c ∧ (more = [] → x.counters = s.counters) ∧
      (∀ k, more = [.counters k] → x.counters = k) ∧ x.executor = freeExecutor ∧
      x.sent = s.sent ++
        [replyTo s.executor.kind s.executor.tag .ok (.credPolicy c.policy c.failures x.counters.idleLimit)] ∧
      (c.state = .lockedOut → (s.cred i).state ≠ .lockedOut → EventKind.slotLockedOut ∈ x.events.pending) ∧
      (c.state ≠ .lockedOut ∨ (s.cred i).state = .lockedOut →
        (EventKind.slotLockedOut ∈ x.events.pending ↔ EventKind.slotLockedOut ∈ s.events.pending)) ∧
      x.openAt = s.openAt ∧ x.table = s.table ∧ x.cache = s.cache ∧ x.authority = s.authority := by
  have apart : Cell.lockdown ∉ (requestGroup (.cred i c :: more)).cells := by
    rcases shape with rfl | ⟨k, rfl⟩ <;> simp [requestGroup, Group.cells, Record.cell]
  obtain ⟨w, t, group, at', closes⟩ := exec_groupClose_one scan ready rfl apart
  have records : w.group.records = .cred i c :: more := by rw [group]; rfl
  have record : t.cred i = c := at'.records (.cred i c) (by rw [records]; exact List.mem_cons_self)
  obtain ⟨events, raised, closed⟩ := credPolicyClosed_eq at' executing i
  rw [record] at raised closed
  rw [State.closeEffect, State.requestClosed, at'.executor, job] at closes
  dsimp only at closes
  rw [closed] at closes
  refine ⟨_, closes, record, ?_, ?_, rfl, rfl, fun locked was => raised.2 (.inl ⟨locked, was⟩), fun other => ?_, ?_, at'.table, ?_,
    at'.authority⟩
  · rintro rfl
    exact (at'.others (.counters s.counters) (by rw [group]; simp [requestGroup, Group.cells, Record.cell])).2 rfl
  · rintro k rfl
    exact at'.records (.counters k) (by rw [records]; simp)
  · refine raised.trans (or_iff_right ?_)
    rintro ⟨locked, was⟩
    exact other.elim (fun h => h locked) was
  · exact (congrArg State.openAt at'.rest :)
  · exact (congrArg State.cache at'.rest :)

theorem credStateClosed_eq {s t : State} {w : Writing} (at' : AtClose s t w) (executing : s.executor.status = .executing) (i : SlotId)
    (action : CredAction) :
    ∃ events, (EventKind.slotLockedOut ∈ events.pending ↔
        (action = .enable ∧ (t.cred i).state = .lockedOut) ∨ EventKind.slotLockedOut ∈ s.events.pending) ∧
      t.credStateClosed i action = { t with
        events := events, openAt := if action = .reopen then s.openAt.set i s.clock else s.openAt, executor := freeExecutor
        authTimer := none
        sent := s.sent ++ [replyTo s.executor.kind s.executor.tag .ok (.credState (t.cred i).state (t.cred i).failures)] } := by
  have opened : (if action = .reopen then t.setOpenAt i t.clock else t) =
      { t with openAt := if action = .reopen then s.openAt.set i s.clock else s.openAt } := by
    split
    · rw [State.setOpenAt, at'.clock, show t.openAt = s.openAt by rw [at'.rest]]
    · rw [at'.rest]
  obtain ⟨events, told, raised⟩ := raiseIf_eq { t with openAt := if action = .reopen then s.openAt.set i s.clock else s.openAt }
    (action = .enable ∧ (t.cred i).state = .lockedOut) .slotLockedOut
  refine ⟨events, raised.trans (or_congr Iff.rfl (at'.told _ EventKind.noConfusion)), ?_⟩
  unfold State.credStateClosed
  dsimp only
  rw [opened, told, reply_eq _ _ _ (by rw [at'.executor]; exact executing), at'.executor, at'.rest]

theorem groupClose_credState (s : State) (scan : ScanFindings) (i : SlotId) (c : CredRecord) (action : CredAction)
    (ready : s.readyToClose (requestGroup [.cred i c])) (executing : s.executor.status = .executing)
    (job : s.executor.job = .credState i action) :
    ∃ x, exec (.groupClose scan) s = .next (settle x) ∧ x.cred i = c ∧ x.executor = freeExecutor ∧
      x.sent = s.sent ++ [replyTo s.executor.kind s.executor.tag .ok (.credState c.state c.failures)] ∧
      (action = .enable → c.state = .lockedOut → EventKind.slotLockedOut ∈ x.events.pending) ∧
      (action ≠ .enable ∨ c.state ≠ .lockedOut →
        (EventKind.slotLockedOut ∈ x.events.pending ↔ EventKind.slotLockedOut ∈ s.events.pending)) ∧
      x.openAt = (if action = .reopen then s.openAt.set i s.clock else s.openAt) ∧
      x.table = s.table ∧ x.cache = s.cache ∧ x.authority = s.authority := by
  obtain ⟨w, t, group, at', closes⟩ := exec_groupClose_one scan ready rfl (by simp [requestGroup, Group.cells, Record.cell])
  have record : t.cred i = c := at'.record (r := .cred i c) (by rw [group]; rfl)
  obtain ⟨events, raised, closed⟩ := credStateClosed_eq at' executing i action
  rw [record] at raised closed
  rw [State.closeEffect, State.requestClosed, at'.executor, job] at closes
  dsimp only at closes
  rw [closed] at closes
  refine ⟨_, closes, record, rfl, rfl, fun enable locked => raised.2 (.inl ⟨enable, locked⟩), fun other => ?_, rfl, at'.table, ?_,
    at'.authority⟩
  · refine raised.trans (or_iff_right ?_)
    rintro ⟨enable, locked⟩
    exact other.elim (fun h => h enable) (fun h => h locked)
  · exact (congrArg State.cache at'.rest :)

end Sys2Proof.Machine

namespace Sys2Proof.Machine

/-! ### The idle timer in what follows a close (R110, R129)

With the executor FREE nothing that falls in the same event touches the Trigger Unit before its idle timer is tended. -/

section IdleTimer

variable (s : State)

@[simp] theorem submit_trigger (g : Group) : (s.submit g).trigger = s.trigger := by
  unfold State.submit
  split <;> rfl

@[simp] theorem modKey_trigger (o : Owner) (f : KeyEntry → KeyEntry) : (s.modKey o f).trigger = s.trigger := by
  cases o <;> rfl

theorem advanceWipe_trigger : s.advanceWipe.trigger = s.trigger := by
  have started : (if s.finalDue then s.startFinal else s).trigger = s.trigger := by split <;> rfl
  have submitted (u : State) (salt : Word32) : (u.submitFinal salt).trigger = u.trigger := by
    simp [State.submitFinal, State.setWipe, State.draw]
  have planned (u : State) (p : WipePlan) (l : List Record) (e : List Effect) (b : Bool) : (u.submitPlan p l e b).trigger = u.trigger :=
    submit_trigger _ _
  have finished (u : State) (o : Owner) : (u.finishOverwrite o).trigger = u.trigger := planned (u.setWipe _) _ _ _ _
  unfold State.advanceWipe
  split
  · rfl
  · dsimp only
    generalize (if s.finalDue then s.startFinal else s) = u at started ⊢
    split
    · split
      · exact started
      · rw [submitted, started]
    · split
      · split
        · rw [finished, started]
        · exact started
      · exact started

theorem trigger_of_frame {s t : State} (e : transferFrame t = transferFrame s) : t.trigger = s.trigger := by
  have trigger := congrArg State.trigger e
  exact trigger

theorem grantLane_trigger (l : LaneId) : (s.grantLane l).trigger = s.trigger := by
  have overwritten (s : State) : (s.issueOverwrite l).trigger = s.trigger := by
    unfold State.issueOverwrite
    split
    · dsimp only; split <;> rfl
    · rfl
  have transfer (t : Tag) (i : Nat) : (s.grantTransfer l t i).trigger = s.trigger := by
    unfold State.grantTransfer
    split
    · rfl
    · exact (trigger_of_frame (frame_fillLane _ l)).trans rfl
  have wipe : (s.grantWipe l).trigger = s.trigger := by
    unfold State.grantWipe
    split
    · rfl
    · split
      · rfl
      · exact forEach_keeps State.trigger _ (fun _ s => overwritten s) _ _
  unfold State.grantLane
  split
  · rfl
  · split
    · split
      · exact wipe
      · exact transfer _ _
    · split
      · exact wipe
      · rfl

theorem advanceSleep_trigger : s.advanceSleep.trigger = s.trigger := by
  have dropped (s : State) : s.applySleepDrop.trigger = s.trigger := by
    have all : s.sleepDropAll.trigger = s.trigger := forEach_keeps State.trigger _ (fun r s => by
      unfold State.dropRange
      split
      · dsimp only; split
        · exact modKey_trigger _ _ _
        · rfl
      · rfl) _ _
    have noted : (noteRelocked State.sleepDropAll s).trigger = s.trigger := by
      unfold noteRelocked
      dsimp only
      generalize s.sleepDropAll = t at all
      split <;> exact all
    exact noted
  have asleep (s : State) : s.goAsleep.trigger = s.trigger := by
    unfold State.goAsleep State.abandonCheck
    dsimp only
    split <;> rfl
  have due (b : Bool) (f : State → State) (step : ∀ s : State, (f s).trigger = s.trigger) (s : State) :
      (if b then f s else s).trigger = s.trigger := by
    split
    · exact step s
    · rfl
  unfold State.advanceSleep
  dsimp only
  rw [due _ _ asleep, due _ _ dropped, due _ State.enterSleep fun _ => rfl]

theorem tend_idle (stopped : s.trigger.idle = .stopped) : (settleAlert s.tendIdle.tendRecheck.tendAuthority).trigger.idle =
    if (settleAlert s.tendIdle.tendRecheck.tendAuthority).idleRuns then .running s.clock else .stopped := by
  have authority (s : State) : s.tendAuthority.trigger = s.trigger ∧ s.tendAuthority.idleRuns = s.idleRuns := by
    unfold State.tendAuthority
    split
    · split <;> exact ⟨rfl, rfl⟩
    · exact ⟨rfl, rfl⟩
  have recheck (s : State) : s.tendRecheck.trigger = s.trigger ∧ s.tendRecheck.idleRuns = s.idleRuns := by
    unfold State.tendRecheck
    split
    · split <;> exact ⟨rfl, rfl⟩
    · exact ⟨rfl, rfl⟩
  have alert (s : State) : (settleAlert s).trigger = s.trigger ∧ (settleAlert s).idleRuns = s.idleRuns := ⟨rfl, rfl⟩
  rw [(alert _).1, (alert _).2, (authority _).1, (authority _).2, (recheck _).1, (recheck _).2]
  unfold State.tendIdle
  rw [stopped]
  split
  · next runs => exact (if_pos runs).symm
  · next rests => exact (if_neg rests).symm

/-- A stopped idle timer starts with the event, if its running condition holds (R110). -/
theorem settle_idle (free : s.executor = freeExecutor) (stopped : s.trigger.idle = .stopped) :
    (settle s).trigger.idle = if (settle s).idleRuns then .running s.clock else .stopped := by
  have worked : settle s = settleAlert s.advanceWipe.grantLanes.advanceSleep.advanceWipe.tendIdle.tendRecheck.tendAuthority := by
    rw [settle, executor_resting free]
  have trigger : s.advanceWipe.grantLanes.advanceSleep.advanceWipe.trigger = s.trigger := by
    rw [advanceWipe_trigger, advanceSleep_trigger, State.grantLanes, forEach_keeps State.trigger _ (fun l s => grantLane_trigger s l),
      advanceWipe_trigger]
  have clock := ((((kept_advanceWipe s).trans (kept_grantLanes _)).trans (kept_advanceSleep _)).trans (kept_advanceWipe _)).clock
  rw [worked, ← clock]
  exact tend_idle _ (by rw [trigger]; exact stopped)

end IdleTimer

/-! ### The leave of lockdown (R11, R118, R120) -/

section Leave

variable (s : State)

theorem loadFromRoot_table (r : RangeId) : (s.loadFromRoot r).table = s.table := by
  unfold State.loadFromRoot
  split
  · exact State.setKey_table _ _ _
  · rfl

/-- A range that leaves LOCKDOWN is ACTIVE, and no other is touched. -/
theorem unlockdownRange_service (q r : RangeId) : (s.unlockdownRange q).table[r].service =
    if q = r ∧ s.table[r].service = .lockdown then .active else s.table[r].service := by
  have active : (s.unlockdownRange q).table = if s.table[q].service = .lockdown
      then ((s.modRange q (fun e => { e with service := .active })).closeRange q).table else s.table := by
    unfold State.unlockdownRange
    dsimp only
    split
    · split
      · exact loadFromRoot_table _ _
      · split
        · exact State.setKey_table _ _ _
        · rfl
    · rfl
  rw [active]
  by_cases same : q = r
  · subst same
    by_cases locked : s.table[q].service = .lockdown
    · rw [if_pos locked, if_pos ⟨rfl, locked⟩, State.closeRange, State.modRange_same, State.modRange_same]
    · rw [if_neg locked]
      exact (if_neg fun h => locked h.2).symm
  · refine Eq.trans ?_ (if_neg fun h => same h.1).symm
    split
    · rw [State.closeRange, State.modRange_other _ _ (Ne.symm same), State.modRange_other _ _ (Ne.symm same)]
    · rfl

theorem unlockdownRange_beside (r : RangeId) : (s.unlockdownRange r).besideRanges = s.besideRanges := by
  have loaded (s : State) : (s.loadFromRoot r).besideRanges = s.besideRanges := by
    unfold State.loadFromRoot
    split <;> rfl
  unfold State.unlockdownRange
  dsimp only
  split
  · split
    · exact loaded _
    · split <;> rfl
  · rfl

theorem leaveLockdown_service {r : RangeId} (locked : s.table[r].service = .lockdown) : s.leaveLockdown.table[r].service = .active := by
  have visits (l : List RangeId) (s : State) (h : s.table[r].service = .active ∨ (s.table[r].service = .lockdown ∧ r ∈ l)) :
      (forEach l (fun r s => s.unlockdownRange r) s).table[r].service = .active := by
    induction l generalizing s with
    | nil => exact h.resolve_right fun h => absurd h.2 (by simp)
    | cons q l ih =>
      refine ih (s.unlockdownRange q) ?_
      rw [unlockdownRange_service]
      rcases h with active | ⟨locked, among⟩
      · exact .inl (by rw [active]; simp)
      · by_cases same : q = r
        · exact .inl (if_pos ⟨same, locked⟩)
        · exact .inr ⟨(if_neg fun h => same h.1).trans locked, (List.mem_cons.1 among).resolve_left (Ne.symm same)⟩
  exact visits allRanges s (.inr ⟨locked, allRanges_mem r⟩)

end Leave

end Sys2Proof.Machine

namespace Sys2Proof.Machine

/-! ### The exit decision (R112, R118, R120) -/

theorem causeActive_iff (s : State) (c : Trigger) : s.causeActive c = true ↔
    (c = .guessLimit ∧ s.triggers.gmax ≤ s.counters.g) ∨ (c = .bayOpen ∧ s.trigger.bayLevel = .open) ∨
      (c = .unbound ∧ (s.binding.state = .mismatch ∨ s.binding.state = .fault ∨ s.binding.state = .checking)) := by
  cases c <;> simp [State.causeActive]

/-- Some cause keeps the device in LOCKDOWN: it is active, or does not resume by itself (R118). -/
def State.causeHolds (s : State) : Prop :=
  ∃ c ∈ s.trigger.working.causes, (s.triggers.entry c).autoResume = false ∨ s.causeActive c = true

theorem causeHolds_iff (s : State) : s.causeHolds ↔ ¬ (s.someCauseActive = false ∧ s.allAutoResume = true) := by
  rw [State.causeHolds, State.someCauseActive, State.allAutoResume, List.any_eq_false, List.all_eq_true, ← forall₂_and]
  simp only [not_forall, exists_prop]
  refine exists_congr fun c => and_congr_right fun _ => ?_
  cases s.causeActive c <;> cases (s.triggers.entry c).autoResume <;> decide

theorem exitDecision_normal {s : State} (normal : s.trigger.working.device = .normal) : s.exitDecision = s :=
  if_neg fun h => absurd h.1 (by rw [State.inLockdown, normal]; decide)

theorem exitDecision_stays {s : State} (holds : s.causeHolds) : s.exitDecision = s :=
  if_neg fun h => (causeHolds_iff s).1 holds h.2.2

theorem exitDecision_leaves {s : State} (ready : s.power.part = .ready) (locked : s.trigger.working.device = .lockdown)
    (leaves : ¬ s.causeHolds) : s.exitDecision = s.leave.bringRecordUp := by
  have clear := not_not.1 fun h => leaves ((causeHolds_iff s).2 h)
  exact if_pos ⟨decide_eq_true locked, by rw [State.mayDecideExit, ready], clear⟩

/-- What the leave makes of the state besides the ranges (R118, R120). -/
theorem leave_beside (s : State) :
    s.leave.besideRanges = ((s.setLockdown manufacturedLockdown).raise .lockdownLeft).besideRanges := by
  have left : (s.setLockdown manufacturedLockdown).leaveLockdown.besideRanges = (s.setLockdown manufacturedLockdown).besideRanges :=
    forEach_keeps State.besideRanges _ (fun r s => unlockdownRange_beside s r) _ _
  rw [State.leave]
  generalize (s.setLockdown manufacturedLockdown).leaveLockdown = t at left ⊢
  exact congrArg (fun t : State => t.raise .lockdownLeft) left

/-- The exit decision leaves the request executor, what was sent, authority, the idle timer and the clock. -/
theorem exitDecision_keeps (s : State) : s.exitDecision.executor = s.executor ∧ s.exitDecision.sent = s.sent ∧
    s.exitDecision.authority = s.authority ∧ s.exitDecision.trigger.idle = s.trigger.idle ∧ s.exitDecision.clock = s.clock := by
  have beside := leave_beside s
  unfold State.exitDecision
  generalize s.leave = t at beside ⊢
  have executor := congrArg State.executor beside
  have sent := congrArg State.sent beside
  have authority := congrArg State.authority beside
  have idle := congrArg (fun t : State => t.trigger.idle) beside
  have clock := congrArg State.clock beside
  split
  · rw [bringRecordUp_rest]
    exact ⟨executor, sent, authority, idle, clock⟩
  · exact ⟨rfl, rfl, rfl, rfl, rfl⟩

theorem exitDecision_triggers (s : State) : s.exitDecision.triggers = s.triggers := by
  have cells := congrArg Store.triggers (KeepsCells.refl s).exitDecision
  exact congrArg (fun x => CellPair.read x manufacturedTriggers) cells

/-- The leave by auto-resume: NORMAL, LOCKDOWN_LEFT, and every range in LOCKDOWN ACTIVE (R11, R120). -/
theorem leave_leaves (s : State) : s.leave.bringRecordUp.trigger.working = manufacturedLockdown ∧
    EventKind.lockdownLeft ∈ s.leave.bringRecordUp.events.pending ∧
    ∀ r : RangeId, s.table[r].service = .lockdown → s.leave.bringRecordUp.table[r].service = .active := by
  have working := congrArg (fun t : State => t.trigger.working) (leave_beside s)
  have ranges (r : RangeId) (locked : s.table[r].service = .lockdown) := leaveLockdown_service (s.setLockdown manufacturedLockdown) locked
  have left : s.leave = (s.setLockdown manufacturedLockdown).leaveLockdown.raise .lockdownLeft := rfl
  rw [bringRecordUp_rest]
  generalize (s.setLockdown manufacturedLockdown).leaveLockdown = t at left ranges
  rw [left] at working ⊢
  exact ⟨working, (mem_withEvent _ _ _).2 (.inl rfl), ranges⟩

/-! ### TRIGGER-SET (R107) -/

/-- `u` is `s` after the reply of a TRIGGER-SET that wrote the table `t`, before the exit decision. -/
structure TriggerSetAnswered (s u : State) (t : TriggerTable) (limit : Option Nat) : Prop where
  triggers : u.triggers = t
  counters : u.counters = s.counters
  idle : u.trigger.idle = if limit.isSome then .stopped else s.trigger.idle
  working : u.trigger.working = s.trigger.working
  bayLevel : u.trigger.bayLevel = s.trigger.bayLevel
  binding : u.binding = s.binding
  power : u.power = s.power
  table : u.table = s.table
  authority : u.authority = s.authority
  clock : u.clock = s.clock
  executor : u.executor = freeExecutor
  sent : u.sent = s.sent ++ [replyTo s.executor.kind s.executor.tag .ok (.triggers t)]

theorem triggerSetClosed_eq {s v : State} {w : Writing} {t : TriggerTable} (at' : AtClose s v w) (records : w.group.records = [.triggers t])
    (executing : s.executor.status = .executing) (limit : Option Nat) :
    ∃ u, TriggerSetAnswered s u t limit ∧ v.triggerSetClosed limit = u.exitDecision := by
  have triggers : v.triggers = t := at'.record records
  have counters : v.counters = s.counters := (at'.others (.counters s.counters) (by simp [Group.cells, records, Record.cell])).2 rfl
  have timed : (if limit.isSome then { v with trigger := { v.trigger with idle := .stopped } } else v) =
      { v with trigger := { s.trigger with idle := if limit.isSome then .stopped else s.trigger.idle } } := by
    split
    · rw [at'.trigger]
    · rw [at'.rest]
  refine ⟨_, ?_, rfl⟩
  rw [timed, reply_eq _ _ _ (by rw [at'.executor]; exact executing), triggers]
  exact ⟨triggers, counters, rfl, rfl, rfl, by rw [at'.rest], at'.power, at'.table, at'.authority, at'.clock, rfl, by rw [at'.rest]⟩

/-- The cause set keeps the device in LOCKDOWN under a new table. -/
theorem TriggerSetAnswered.causeHolds_iff {s u : State} {t : TriggerTable} {limit : Option Nat} (h : TriggerSetAnswered s u t limit) :
    u.causeHolds ↔ ∃ c ∈ s.trigger.working.causes, (t.entry c).autoResume = false ∨
      (c = .guessLimit ∧ t.gmax ≤ s.counters.g) ∨ (c = .bayOpen ∧ s.trigger.bayLevel = .open) ∨
      (c = .unbound ∧ (s.binding.state = .mismatch ∨ s.binding.state = .fault ∨ s.binding.state = .checking)) := by
  simp only [State.causeHolds, causeActive_iff, h.working, h.triggers, h.counters, h.bayLevel, h.binding]

theorem groupClose_triggerSet (s : State) (scan : ScanFindings) (t : TriggerTable) (entry : Option TriggerChange) (gmax idleLimit : Option Nat)
    (ready : s.readyToClose (requestGroup [.triggers t])) (executing : s.executor.status = .executing)
    (job : s.executor.job = .triggerSet entry gmax idleLimit) :
    ∃ x, exec (.groupClose scan) s = .next (settle x) ∧ x.triggers = t ∧ x.executor = freeExecutor ∧
      x.sent = s.sent ++ [replyTo s.executor.kind s.executor.tag .ok (.triggers t)] ∧ x.authority = s.authority ∧
      (idleLimit = none → x.trigger.idle = s.trigger.idle) ∧
      (idleLimit.isSome = true →
        (settle x).trigger.idle = if (settle x).idleRuns then IdleTimer.running s.clock else .stopped) ∧
      (s.trigger.working.device = .normal → x.trigger.working = s.trigger.working ∧ x.table = s.table) ∧
      (s.power.part = .ready → s.trigger.working.device = .lockdown →
        let stays := ∃ c ∈ s.trigger.working.causes, (t.entry c).autoResume = false ∨
          (c = .guessLimit ∧ t.gmax ≤ s.counters.g) ∨ (c = .bayOpen ∧ s.trigger.bayLevel = .open) ∨
          (c = .unbound ∧ (s.binding.state = .mismatch ∨ s.binding.state = .fault ∨ s.binding.state = .checking))
        (stays → x.trigger.working = s.trigger.working ∧ x.table = s.table) ∧
        (¬ stays → x.trigger.working = { device := .normal, causes := [] } ∧ EventKind.lockdownLeft ∈ x.events.pending ∧
          ∀ r : RangeId, s.table[r].service = .lockdown → x.table[r].service = .active)) := by
  obtain ⟨w, v, group, at', closes⟩ := exec_groupClose_one scan ready rfl (by simp [requestGroup, Group.cells, Record.cell])
  obtain ⟨u, answered, closed⟩ := triggerSetClosed_eq at' (by rw [group]; rfl) executing idleLimit
  rw [State.closeEffect, State.requestClosed, at'.executor, job] at closes
  dsimp only at closes
  rw [closed] at closes
  obtain ⟨executor, sent, authority, idle, clock⟩ := exitDecision_keeps u
  have free := executor.trans answered.executor
  have idle := idle.trans answered.idle
  refine ⟨_, closes, (exitDecision_triggers u).trans answered.triggers, free, sent.trans answered.sent, authority.trans answered.authority,
    fun none' => ?_, fun some' => ?_, fun normal => ?_, fun part locked => ⟨fun stays => ?_, fun leaves => ?_⟩⟩
  · rw [idle, none']
    rfl
  · rw [settle_idle _ free (idle.trans (if_pos some')), clock, answered.clock]
  · rw [exitDecision_normal (by rw [answered.working]; exact normal)]
    exact ⟨answered.working, answered.table⟩
  · rw [exitDecision_stays (answered.causeHolds_iff.2 stays)]
    exact ⟨answered.working, answered.table⟩
  · rw [exitDecision_leaves (by rw [answered.power]; exact part) (by rw [answered.working]; exact locked)
      (fun holds => leaves (answered.causeHolds_iff.1 holds))]
    obtain ⟨working, left, ranges⟩ := leave_leaves u
    exact ⟨working, left, fun r lockdown => ranges r (by rw [answered.table]; exact lockdown)⟩

/-- Settles O21: the store's close cell by cell, what the effects keep of it, and each request's close. -/
theorem closeMakesRecordsEffective : Obligations.CloseMakesRecordsEffective :=
  ⟨groupClose_takesEffect, groupClose_answers, groupClose_shadowConfig, groupClose_credPolicy, groupClose_credState, groupClose_triggerSet⟩

end Sys2Proof.Machine

namespace Sys2Proof.Machine

/-! ### What goes on beside the Binding Unit (R113 to R120, R129)

Firings, the exit decision and what falls in the same event leave the Binding Unit, but for its wake gate; they send messages behind those
sent before, and raise events. -/

/-- From `s` to `t` the Binding Unit stands but for the wake gate, and nothing said, raised or noted has been taken back. -/
structure Onward (s t : State) : Prop where
  binding : { t.binding with gated := [] } = { s.binding with gated := [] }
  sent : s.sent <+: t.sent
  pending : ∀ k ∈ s.events.pending, k ∈ t.events.pending
  detail : ∀ x ∈ s.events.detail, x ∈ t.events.detail

namespace Onward

theorem refl (s : State) : Onward s s := ⟨rfl, ⟨[], List.append_nil _⟩, fun _ => id, fun _ => id⟩

variable {s t u : State} (h : Onward s t)
include h

theorem trans (k : Onward t u) : Onward s u where
  binding := k.binding.trans h.binding
  sent := h.sent.trans k.sent
  pending x m := k.pending x (h.pending x m)
  detail x m := k.detail x (h.detail x m)

/-- What is left of the Binding Unit's fields. -/
theorem fields : t.binding.state = s.binding.state ∧ t.binding.exchange = s.binding.exchange ∧ t.binding.rounds = s.binding.rounds ∧
    t.binding.failures = s.binding.failures ∧ t.binding.freshSecret = s.binding.freshSecret ∧ t.binding.toggle = s.binding.toggle ∧
    t.binding.recheck = s.binding.recheck := by
  have e {α : Type} (field : Binding → α) := congrArg field h.binding
  exact ⟨e Binding.state, e Binding.exchange, e Binding.rounds, e Binding.failures, e Binding.freshSecret, e Binding.toggle,
    e Binding.recheck⟩

/-- An update of parts the relation does not see. -/
theorem quiet (binding : { u.binding with gated := [] } = { t.binding with gated := [] }) (sent : u.sent = t.sent)
    (events : u.events = t.events) : Onward s u :=
  h.trans ⟨binding, by rw [sent], by rw [events]; exact fun _ => id, by rw [events]; exact fun _ => id⟩

/-- An operation on ranges, transfers and keys. -/
theorem aside (e : Aside t u) : Onward s u := by
  have binding := congrArg State.binding e.frame
  have events := congrArg State.events e.frame
  obtain ⟨l, said, -⟩ := e.sent
  have quiet : Onward s { u with sent := t.sent } := h.quiet binding rfl events
  exact { quiet with sent := quiet.sent.trans ⟨l, said.symm⟩ }

theorem ite {c : Prop} [Decidable c] (k : Onward s u) : Onward s (if c then t else u) := by split <;> assumption

theorem forEach {α : Type} {f : α → State → State} (step : ∀ a {t : State}, Onward s t → Onward s (f a t)) (l : List α) :
    Onward s (Machine.forEach l f t) := by
  induction l generalizing t with
  | nil => exact h
  | cons a l ih => exact ih (step a h)

theorem say (m : Sent) : Onward s (t.say m) := h.trans ⟨rfl, ⟨[m], rfl⟩, fun _ => id, fun _ => id⟩

theorem raise (k : EventKind) : Onward s (t.raise k) :=
  h.trans ⟨rfl, ⟨[], List.append_nil _⟩, fun _ m => (mem_withEvent _ _ _).2 (.inr m), fun _ => id⟩

theorem noteFiring (x : Trigger) : Onward s (t.noteFiring x) :=
  (h.trans (u := t.addDetail x) ⟨rfl, ⟨[], List.append_nil _⟩, fun _ => id, fun _ m => (mem_withTrigger _ _ _).2 (.inr m)⟩).raise _

theorem draw : Onward s t.draw.2 := h.quiet rfl rfl rfl
theorem setLane (l : LaneId) (x : Lane) : Onward s (t.setLane l x) := h.quiet rfl rfl rfl
theorem setWipe (w : Wipe) : Onward s (t.setWipe w) := h.quiet rfl rfl rfl
theorem setLockdown (x : LockdownRecord) : Onward s (t.setLockdown x) := h.quiet rfl rfl rfl
theorem withPower (p : Power) : Onward s { t with power := p } := h.quiet rfl rfl rfl
theorem endAuthority : Onward s t.endAuthority := h.quiet rfl rfl rfl
theorem revokeAuthority : Onward s t.revokeAuthority := (h.endAuthority.raise _).ite h.endAuthority

theorem submit (g : Group) : Onward s (t.submit g) := by
  unfold State.submit
  split
  · exact h.quiet rfl rfl rfl
  · exact h

theorem reply (code : Code) (payload : Payload) : Onward s (t.reply code payload) := by
  unfold State.reply
  split
  · exact (h.say _).quiet rfl rfl rfl
  · exact h.quiet rfl rfl rfl
  · exact h

/-! #### Firings (R113 to R116) -/

theorem noteRelocked {f : State → State} (step : ∀ {t : State}, Onward s t → Onward s (f t)) : Onward s (noteRelocked f t) :=
  ((step h).withPower _).ite (step h)

theorem relock : Onward s t.relock := h.quiet (by rw [relock_frame]) (by rw [relock_frame]) (by rw [relock_frame])

theorem endCommit (code : Code) (payload : Payload) : Onward s (t.endCommit code payload) := by
  unfold State.endCommit
  split
  · next c _ =>
    have reverted : Onward s (t.revertCommit c) :=
      h.quiet (by rw [revertCommit_frame]) (by rw [revertCommit_frame]) (by rw [revertCommit_frame])
    exact reverted.reply _ _
  · exact h

theorem holdAgainst (r : RangeId) (x : Held) : Onward s (t.holdAgainst r x) := by
  unfold State.holdAgainst
  split
  · exact h.quiet rfl rfl rfl
  · exact h

theorem enterLockdown : Onward s t.enterLockdown := by
  refine ((h.endCommit _ _).ite h).forEach (fun r t h => ?_) _
  unfold State.lockdownRange
  split
  · exact h.aside (aside_lockRangeDown t r)
  · exact h.holdAgainst r _
  all_goals exact h

theorem markErasing (r : RangeId) : Onward s (t.markErasing r) := by
  have erased {t : State} (h : Onward s t) : Onward s (t.eraseRange r) := h.aside (aside_eraseRange t r)
  have ended := h.endCommit .slotState (.range (some r))
  unfold State.markErasing
  split
  · exact erased h
  · exact erased h
  · exact h
  · exact h
  · exact ((erased ended).ite ended).ite ((h.holdAgainst r _).aside (aside_ungate _ r))

theorem markAccepted (targets : List Owner) (full : Bool) : Onward s (t.markAccepted targets full) := by
  have target (o : Owner) {t : State} (h : Onward s t) : Onward s (t.markTarget o) := by
    cases o with
    | range r => exact h.markErasing r
    | shadow => exact h.aside (aside_abortOwner t .shadow .erase)
  have new := h.forEach (f := fun o s => s.markTarget o) (fun o _ h => target o h)
    (targets.filter (fun o => (t.wipe.intended.item o).isNone))
  have defined := new.forEach (f := fun r s => if s.defined r then s.markErasing r else s) (fun r _ h => (h.markErasing r).ite h) allRanges
  exact ((defined.aside (aside_abortOwner _ _ _)).ite defined).ite new

theorem act (x : Trigger) (a : Action) : Onward s (t.act x a) := by
  have entered (l : LockdownRecord) : Onward s (Machine.noteRelocked State.enterLockdown (t.setLockdown l)).revokeAuthority :=
    ((h.setLockdown l).noteRelocked fun h => h.enterLockdown).revokeAuthority
  cases a with
  | note => exact h
  | relock => exact (h.noteRelocked fun h => h.relock).revokeAuthority
  | lockdown => exact ((entered _).ite ((entered _).submit _)).ite (((entered _).raise _).submit _)
  | wipe =>
    refine revokeAuthority ?_
    unfold State.acceptWipe
    dsimp only
    split
    · exact h
    · exact ((h.noteRelocked fun h => h.markAccepted _ _).setWipe _).submit _

theorem carryOut (x : Trigger) : Onward s (t.carryOut x) := (h.noteFiring x).act x _

theorem fire (x : Trigger) : Onward s (t.fire x) := by
  unfold State.fire
  split
  · exact h.noteFiring x
  · exact (h.carryOut x).ite (h.quiet rfl rfl rfl)
  · exact h.carryOut x

theorem exitDecision : Onward s t.exitDecision := by
  have beside := leave_beside t
  have told := (h.setLockdown manufacturedLockdown).raise .lockdownLeft
  unfold State.exitDecision
  generalize t.leave = u at beside ⊢
  have binding := congrArg State.binding beside
  have sent := congrArg State.sent beside
  have events := congrArg State.events beside
  have left : Onward s u := told.quiet binding sent events
  exact (left.submit _).ite h

/-! #### The Wipe Engine, the lanes and the timers (R129) -/

theorem advanceWipe : Onward s t.advanceWipe := by
  have started : Onward s (if t.finalDue then t.startFinal else t) := by
    split
    · exact h.quiet rfl rfl rfl
    · exact h
  have submitted {t : State} (h : Onward s t) (salt : Word32) : Onward s (t.submitFinal salt) := (h.draw.draw.setWipe _).submit _
  have finished {t : State} (h : Onward s t) (o : Owner) : Onward s (t.finishOverwrite o) :=
    (((h.setWipe _).setWipe _).submit _).setWipe _
  unfold State.advanceWipe
  split
  · exact h
  · dsimp only
    generalize (if t.finalDue then t.startFinal else t) = u at started
    split
    · exact started.ite (submitted started _)
    · split
      · exact (finished started _).ite started
      · exact started

theorem issueOne (l : LaneId) : Onward s (t.issueOne l) := by
  have issued (x : Transfer) (g : Segment) (n : Nat) : Onward s (t.issueBlock l x g n) := by
    unfold State.issueBlock
    dsimp only
    split
    · exact (h.setLane l _).say _
    · exact (h.setLane l _).draw.say _
  unfold State.issueOne
  split
  · split
    · split
      · split
        · exact issued _ _ _
        · exact h
      · exact h
    · exact h
  · exact h

theorem issueOverwrite (l : LaneId) : Onward s (t.issueOverwrite l) := by
  unfold State.issueOverwrite
  split
  · exact ((h.setLane l _).say _).ite h
  · exact h

theorem grantLanes : Onward s t.grantLanes := by
  have transfer (l : LaneId) (g : Tag) (i : Nat) {t : State} (h : Onward s t) : Onward s (t.grantTransfer l g i) := by
    unfold State.grantTransfer
    split
    · exact h
    · refine forEach (quiet h ?_ ?_ ?_) (fun _ _ h => h.issueOne l) _ <;> rfl
  have wipe (l : LaneId) {t : State} (h : Onward s t) : Onward s (t.grantWipe l) := by
    unfold State.grantWipe
    split
    · exact h.setWipe _
    · split
      · exact h
      · refine forEach (quiet h ?_ ?_ ?_) (fun _ _ h => h.issueOverwrite l) _ <;> rfl
  refine h.forEach (fun l t h => ?_) _
  unfold State.grantLane
  refine h.ite ?_
  split
  · exact (wipe l h).ite (transfer l _ _ h)
  · exact (wipe l h).ite h

/-- The timers are tended; the recheck timer is not among those that change while an exchange is in progress (R99). -/
theorem tend (exchange : t.binding.exchange ≠ .none) (recheck : t.binding.recheck = none) :
    Onward s (settleAlert t.tendIdle.tendRecheck.tendAuthority) := by
  have idle : t.tendIdle.binding = t.binding ∧ Onward s t.tendIdle := by
    unfold State.tendIdle
    split
    · split
      · exact ⟨rfl, h.quiet rfl rfl rfl⟩
      · exact ⟨rfl, h⟩
      · exact ⟨rfl, h⟩
    · exact ⟨rfl, h.quiet rfl rfl rfl⟩
  obtain ⟨same, idle⟩ := idle
  have rests : t.tendIdle.tendRecheck = t.tendIdle := by
    rw [State.tendRecheck, if_neg (by simp [State.recheckRuns, same, exchange]), ← recheck, ← same]
    rfl
  have authority : Onward s t.tendIdle.tendAuthority := by
    unfold State.tendAuthority
    split
    · split
      · exact idle.quiet rfl rfl rfl
      · exact idle
    · exact idle.quiet rfl rfl rfl
  rw [rests]
  exact authority.trans ⟨rfl, ⟨[], List.append_nil _⟩, fun _ => id, fun _ => id⟩

end Onward

end Sys2Proof.Machine

namespace Sys2Proof.Machine

/-! ### The end of a check (R98) -/

/-- The Binding Unit at the end of a check with a result, before the firing (R98). -/
def State.checkOver (s : State) (result : BindingState) : State := s.setBinding { s.binding with
  state := result, exchange := .none, reference := none, challenge := none, firstHalf := none, recheck := none }

/-- The end of a check after the firing: the exit decision, the wake gate, and BINDING_CHANGED against the reference state (R98). -/
def State.checkConcluded (s : State) (result : BindingState) (reference : Option BindingState) : State :=
  let decided := if .unbound ∈ s.trigger.working.causes then s.exitDecision else s
  let gate := if result = .bound then decided.setBinding { decided.binding with gated := [] } else decided
  if reference = some result then gate else gate.raise .bindingChanged

section EndCheck

variable (s : State) (result : BindingState)

theorem endCheck_bound_eq : s.endCheck .bound = (s.checkOver .bound).checkConcluded .bound s.binding.reference := rfl

theorem endCheck_failed_eq {result : BindingState} (failed : result ≠ .bound) :
    s.endCheck result = ((s.checkOver result).fire .unbound).checkConcluded result s.binding.reference := by
  have fires : (if result = .bound then s.checkOver result else (s.checkOver result).fire .unbound) = (s.checkOver result).fire .unbound :=
    if_neg failed
  unfold State.endCheck
  rw [← fires]
  rfl

theorem onward_checkConcluded (reference : Option BindingState) : Onward s (s.checkConcluded result reference) := by
  have decided : Onward s (if .unbound ∈ s.trigger.working.causes then s.exitDecision else s) :=
    (Onward.refl s).exitDecision.ite (.refl s)
  unfold State.checkConcluded
  generalize (if .unbound ∈ s.trigger.working.causes then s.exitDecision else s) = u at decided
  have gate : Onward s (if result = .bound then u.setBinding { u.binding with gated := [] } else u) :=
    (decided.quiet rfl rfl rfl : Onward s (u.setBinding { u.binding with gated := [] })).ite decided
  exact gate.ite (gate.raise .bindingChanged)

theorem checkConcluded_changed {reference : Option BindingState} (changed : reference ≠ some result) :
    EventKind.bindingChanged ∈ (s.checkConcluded result reference).events.pending := by
  unfold State.checkConcluded
  rw [if_neg changed]
  exact (mem_withEvent _ _ _).2 (.inl rfl)

/-- The end of a check, whatever its result, beside the firing. -/
theorem onward_endCheck : Onward (s.checkOver result) (s.endCheck result) := by
  by_cases bound : result = .bound
  · subst bound
    exact onward_checkConcluded _ _ _
  · rw [endCheck_failed_eq s bound]
    exact ((Onward.refl _).fire .unbound).trans (onward_checkConcluded _ _ _)

theorem endCheck_fields : (s.endCheck result).binding.state = result ∧ (s.endCheck result).binding.exchange = .none ∧
    (s.endCheck result).binding.rounds = s.binding.rounds := by
  obtain ⟨state, exchange, rounds, -⟩ := (onward_endCheck s result).fields
  exact ⟨state, exchange, rounds⟩

theorem endCheck_changed (changed : s.binding.reference ≠ some result) :
    EventKind.bindingChanged ∈ (s.endCheck result).events.pending := by
  by_cases bound : result = .bound
  · subst bound
    exact checkConcluded_changed _ _ changed
  · rw [endCheck_failed_eq s bound]
    exact checkConcluded_changed _ _ changed

/-- A check that ends BOUND empties the wake gate and sends nothing (R98, R103). -/
theorem endCheck_bound : (s.endCheck .bound).binding.gated = [] ∧ (s.endCheck .bound).sent = s.sent := by
  have decided : (if .unbound ∈ (s.checkOver .bound).trigger.working.causes then (s.checkOver .bound).exitDecision
      else s.checkOver .bound).sent = s.sent := by
    split
    · exact (exitDecision_keeps (s.checkOver .bound)).2.1
    · rfl
  rw [endCheck_bound_eq, State.checkConcluded]
  dsimp only
  split
  · exact ⟨rfl, decided⟩
  · exact ⟨rfl, decided⟩

/-- In READY a check that does not end BOUND fires UNBOUND (R98, R113). -/
theorem endCheck_fires {result : BindingState} (failed : result ≠ .bound) (ready : s.power.part = .ready) :
    EventKind.triggerFired ∈ (s.endCheck result).events.pending ∧ Trigger.unbound ∈ (s.endCheck result).events.detail := by
  have fired : Onward ((s.checkOver result).noteFiring .unbound) (s.endCheck result) := by
    have acted : Onward ((s.checkOver result).noteFiring .unbound) ((s.checkOver result).carryOut .unbound) := (Onward.refl _).act _ _
    rw [endCheck_failed_eq s failed, fire_ready (s := s.checkOver result) ready]
    exact acted.trans (onward_checkConcluded _ _ _)
  exact ⟨fired.pending _ ((mem_withEvent _ _ _).2 (.inl rfl)), fired.detail _ ((mem_withTrigger _ _ _).2 (.inl rfl))⟩

/-- With UNBOUND's action NOTE the firing is all that follows in READY: MISMATCH and FAULT keep the cause active (R112, R114). -/
theorem endCheck_noted {result : BindingState} (failed : result = .mismatch ∨ result = .fault) (ready : s.power.part = .ready)
    (note : s.triggers.unbound.action = .note) : ∃ events, s.endCheck result = { s.checkOver result with events := events } := by
  have unbound : result ≠ .bound := by rcases failed with rfl | rfl <;> decide
  have noted : (s.checkOver result).fire .unbound = (s.checkOver result).noteFiring .unbound := by
    have act : (s.checkOver result).carryOut .unbound = ((s.checkOver result).noteFiring .unbound).act .unbound .note :=
      congrArg _ note
    rw [fire_ready (s := s.checkOver result) ready, act]
    rfl
  have stays : (if .unbound ∈ ((s.checkOver result).noteFiring .unbound).trigger.working.causes
      then ((s.checkOver result).noteFiring .unbound).exitDecision else (s.checkOver result).noteFiring .unbound) =
      (s.checkOver result).noteFiring .unbound := by
    split
    · next cause =>
      refine exitDecision_stays ⟨.unbound, cause, .inr ((causeActive_iff _ _).2 (.inr (.inr ⟨rfl, ?_⟩)))⟩
      rcases failed with rfl | rfl
      · exact .inl rfl
      · exact .inr (.inl rfl)
    · rfl
  rw [endCheck_failed_eq s unbound, noted, State.checkConcluded, stays]
  dsimp only
  rw [if_neg unbound]
  split
  · exact ⟨_, rfl⟩
  · exact ⟨_, rfl⟩

end EndCheck

/-! ### Failed rounds and enrolment exchanges (R96, R101) -/

section Fails

variable {s : State} {p : ExchangePhase}

/-- A round that fails short of the seventh is waited for (R96). -/
theorem failExchange_round (exchange : s.binding.exchange = .check p) (more : s.binding.rounds + 1 < 7) :
    s.failExchange = { s with binding := { s.binding with
      rounds := s.binding.rounds + 1, exchange := .check .pausing, challenge := none, firstHalf := none, waitSince := s.clock } } := by
  rw [State.failExchange, exchange]
  exact if_neg (Nat.not_le.2 more)

/-- The seventh failed round ends the check FAULT (R96, R98). -/
theorem failExchange_lastRound (exchange : s.binding.exchange = .check p) (last : 7 ≤ s.binding.rounds + 1)
    (ready : s.power.part = .ready) :
    s.failExchange.binding.state = .fault ∧ s.failExchange.binding.exchange = .none ∧
      s.failExchange.binding.rounds = s.binding.rounds + 1 ∧ Trigger.unbound ∈ s.failExchange.events.detail ∧
      EventKind.triggerFired ∈ s.failExchange.events.pending ∧
      (s.binding.reference ≠ some .fault → EventKind.bindingChanged ∈ s.failExchange.events.pending) := by
  obtain ⟨counted, fails, rounds, reference, part⟩ : ∃ counted : State, s.failExchange = counted.endCheck .fault ∧
      counted.binding.rounds = s.binding.rounds + 1 ∧ counted.binding.reference = s.binding.reference ∧
      counted.power.part = s.power.part := by
    rw [State.failExchange, exchange]
    exact ⟨_, if_pos last, rfl, rfl, rfl⟩
  obtain ⟨state, ended, same⟩ := endCheck_fields counted .fault
  obtain ⟨fired, detail⟩ := endCheck_fires counted (result := .fault) BindingState.noConfusion (part.trans ready)
  rw [fails, ← reference]
  exact ⟨state, ended, same.trans rounds, detail, fired, endCheck_changed counted .fault⟩

/-- An enrolment exchange that fails short of the seventh is waited for (R101). -/
theorem failExchange_enrolment (exchange : s.binding.exchange = .enrol p) (more : s.binding.failures + 1 < 7) :
    s.failExchange = { s with binding := { s.binding with
      failures := s.binding.failures + 1, exchange := .enrol .pausing, waitSince := s.clock } } := by
  rw [State.failExchange, exchange]
  exact if_neg (Nat.not_le.2 more)

/-- The seventh failed enrolment exchange erases the secret and answers FAILED (R101). -/
theorem failExchange_lastEnrolment (exchange : s.binding.exchange = .enrol p) (last : 7 ≤ s.binding.failures + 1)
    (executing : s.executor.status = .executing) : s.failExchange = { s with
      binding := { s.binding with failures := s.binding.failures + 1, exchange := .none, freshSecret := none }
      executor := freeExecutor, authTimer := none
      sent := s.sent ++ [replyTo s.executor.kind s.executor.tag .failed (.failed none none)] } := by
  have fails : s.failEnrolment =
      (s.setBinding { s.binding with failures := s.binding.failures + 1, exchange := .none, freshSecret := none }).reply .failed
        (.failed none none) := if_pos last
  rw [State.failExchange, exchange]
  dsimp only
  rw [fails]
  exact reply_eq _ _ _ executing

end Fails

/-- A tether fault and a page timeout fail the exchange in progress (R92). -/
theorem exec_exchangeFails {s : State} {c : Instr} {now : Nat} (powered : s.power.powered = true)
    (live : s.binding.exchange.live.isSome = true)
    (fails : (c = .tetherFault ∧ now = s.clock) ∨ (c = .pageTimeout ∧ now = max s.clock (s.binding.waitSince + 50))) :
    exec c s = .next (settle ({ s with clock := now } : State).failExchange) := by
  rcases fails with ⟨rfl, rfl⟩ | ⟨rfl, rfl⟩
  · show Host.Outcome.next (s.whilePowered _) = _
    rw [whilePowered_on _ powered, if_pos live]
  · show Host.Outcome.next (s.whilePowered _) = _
    rw [whilePowered_on _ powered, if_pos live]
    rfl

theorem live_check {p : ExchangePhase} (h : p ≠ .pausing) : (Exchange.check p).live = some p := by
  cases p with
  | pausing => exact absurd rfl h
  | _ => rfl

theorem live_enrol {p : ExchangePhase} (h : p ≠ .pausing) : (Exchange.enrol p).live = some p := by
  cases p with
  | pausing => exact absurd rfl h
  | _ => rfl

/-- The waits of 200 ms end, each with the next round or exchange (R96, R101). -/
theorem exec_roundWaitExpiry {s : State} (powered : s.power.powered = true) (pausing : s.binding.exchange = .check .pausing) :
    exec .roundWaitExpiry s = .next (settle (s.reachTime (s.binding.waitSince + 200)).startRound) := by
  show Host.Outcome.next (s.whilePowered _) = _
  rw [whilePowered_on _ powered, if_pos pausing]
  rfl

theorem exec_enrolRetryExpiry {s : State} {secret : Word32} (powered : s.power.powered = true)
    (pausing : s.binding.exchange = .enrol .pausing) (fresh : s.binding.freshSecret = some secret) :
    exec .enrolRetryExpiry s = .next (settle ((s.reachTime (s.binding.waitSince + 200)).startEnrolExchange secret)) := by
  show Host.Outcome.next (s.whilePowered _) = _
  rw [whilePowered_on _ powered, fresh]
  dsimp only
  rw [if_pos pausing]
  rfl

/-- What the start of a round changes (R94). -/
theorem startRound_eq (s : State) : s.startRound = { s with
    entropy := s.entropy + 1, binding := s.binding.inRound (Config.freshChallenge s.entropy) s.clock
    sent := s.sent ++ [firstChallenge (Config.freshChallenge s.entropy)] } := rfl

/-- What the start of an enrolment exchange changes (R101). -/
theorem startEnrolExchange_eq (s : State) (secret : Word32) : s.startEnrolExchange secret = { s with
    binding := { s.binding with
      toggle := true, exchange := .enrol (.sending 0), waitSince := s.clock, freshSecret := some secret }
    sent := s.sent ++ [.page
      { kind := .enrol, toggle := true, more := true, acknowledge := false, index := 0, payload := firstHalfOf secret }] } := rfl

/-- Settles O35: a failed round and a failed enrolment exchange, each short of the seventh and as the seventh, and the two waits. -/
theorem failedRoundsAreRetried : Obligations.FailedRoundsAreRetried := by
  refine ⟨fun s p c now powered exchange phase fails => ?_, fun s p c now powered exchange phase fails => ?_,
    fun s powered => ⟨fun pausing => ?_, fun secret pausing fresh => ?_⟩⟩
  · rw [exec_exchangeFails powered (by rw [exchange, live_check phase]; rfl) fails]
    refine ⟨fun more => ?_, fun last ready => ?_⟩
    · rw [failExchange_round (s := { s with clock := now }) exchange more]
    · exact ⟨_, rfl, failExchange_lastRound (s := { s with clock := now }) exchange last ready⟩
  · rw [exec_exchangeFails powered (by rw [exchange, live_enrol phase]; rfl) fails]
    refine ⟨fun more => ?_, fun last executing => ?_⟩
    · rw [failExchange_enrolment (s := { s with clock := now }) exchange more]
    · rw [failExchange_lastEnrolment (s := { s with clock := now }) exchange last executing]
  · rw [exec_roundWaitExpiry powered pausing, startRound_eq]
    rfl
  · rw [exec_enrolRetryExpiry powered pausing fresh, startEnrolExchange_eq]
    simp [State.reachTime, fresh]

end Sys2Proof.Machine

namespace Sys2Proof.Machine

/-! ### Pages of the module (R93 to R95, R101) -/

/-- An acknowledgement of the part (R92, R93). -/
theorem sendAck_eq (s : State) (toggle : Bool) (index : Nat) : s.sendAck toggle index = { s with
    entropy := s.entropy + 1
    sent := s.sent ++ [.page { kind := .ack, toggle := toggle, more := false, acknowledge := true, index := index
                               payload := Config.ackPayload s.entropy }] } := rfl

section Page

variable {s : State} {page : Vector Byte 20} (powered : s.power.powered = true)
include powered

theorem exec_badPage (read : readPage page.toList = .badCheck) : exec (.tetherPageReceived page) s = .next (settle s) := by
  show Host.Outcome.next (s.whilePowered _) = _
  rw [whilePowered_on _ powered, State.pageArrives, read]

theorem exec_unlistedPage (read : readPage page.toList = .unlisted) : exec (.tetherPageReceived page) s =
    .next (settle (if s.binding.exchange.live.isSome then s.failExchange else s)) := by
  show Host.Outcome.next (s.whilePowered _) = _
  rw [whilePowered_on _ powered, State.pageArrives, read]

theorem exec_page {p : TetherPage} (read : readPage page.toList = .page p) :
    exec (.tetherPageReceived page) s = .next (settle (s.receivePage p)) := by
  show Host.Outcome.next (s.whilePowered _) = _
  rw [whilePowered_on _ powered, State.pageArrives, read]

end Page

section Receive

variable {s : State} {p : TetherPage}

/-- The page acknowledges the part's page `i`. -/
def TetherPage.acknowledges (p : TetherPage) (s : State) (i : Nat) : Prop :=
  p.kind = .ack ∧ p.acknowledge = true ∧ p.index = i ∧ p.toggle = s.binding.toggle

/-- The page is page `i` of a kind of the module. -/
def TetherPage.answers (p : TetherPage) (s : State) (kind : PageKind) (i : Nat) : Prop :=
  p.kind = kind ∧ p.index = i ∧ p.acknowledge = false ∧ p.toggle ≠ s.binding.toggle ∧ p.more = decide (kind = .response ∧ i ≠ 2)

theorem accepts_check {e : ExchangePhase} (i : Nat) :
    (Exchange.check e).accepts s.binding.toggle i p = true ↔ p.answers s .response i := by
  unfold Exchange.accepts TetherPage.answers
  rw [decide_eq_true_iff]
  simp only [Exchange.expects, true_and]
  tauto

theorem accepts_enrol {e : ExchangePhase} (i : Nat) :
    (Exchange.enrol e).accepts s.binding.toggle i p = true ↔ p.answers s .enrol i := by
  unfold Exchange.accepts TetherPage.answers
  rw [decide_eq_true_iff]
  have last : decide (PageKind.enrol = .response ∧ i ≠ 2) = false := decide_eq_false fun h => PageKind.noConfusion h.1
  rw [last]
  simp only [Exchange.expects]
  tauto

theorem receivePage_acknowledges {i : Nat} (live : s.binding.exchange.live = some (.sending i)) (acknowledges : p.acknowledges s i) :
    s.receivePage p = s.acknowledged := by
  rw [State.receivePage, live]
  exact if_pos acknowledges

theorem receivePage_unacknowledged {i : Nat} (live : s.binding.exchange.live = some (.sending i)) (other : ¬ p.acknowledges s i) :
    s.receivePage p = s.failExchange := by
  rw [State.receivePage, live]
  exact if_neg other

/-- A repeat of the page taken last is acknowledged again (R93). -/
theorem receivePage_repeats {i : Nat} (live : s.binding.exchange.live = some (.awaiting i)) (kind : p.kind ≠ .ack)
    (toggle : p.toggle = s.binding.toggle) : s.receivePage p = s.sendAck p.toggle p.index := by
  rw [State.receivePage, live]
  exact if_pos ⟨kind, toggle⟩

theorem receivePage_takes {i : Nat} (live : s.binding.exchange.live = some (.awaiting i)) (turned : p.toggle ≠ s.binding.toggle)
    (accepts : s.binding.exchange.accepts s.binding.toggle i p = true) : s.receivePage p = s.takePage p := by
  rw [State.receivePage, live]
  exact (if_neg fun h => turned h.2).trans (if_pos accepts)

theorem receivePage_unexpected {i : Nat} (live : s.binding.exchange.live = some (.awaiting i))
    (fresh : p.kind = .ack ∨ p.toggle ≠ s.binding.toggle) (refuses : ¬ s.binding.exchange.accepts s.binding.toggle i p = true) :
    s.receivePage p = s.failExchange := by
  rw [State.receivePage, live]
  exact (if_neg fun h => fresh.elim h.1 fun turned => turned h.2).trans (if_neg refuses)

/-- Outside an exchange only a repeat of the page taken last is acknowledged (R93). -/
theorem receivePage_outside (outside : s.binding.exchange = .none) : s.receivePage p =
    if s.binding.lastPage = some { kind := p.kind, index := p.index, toggle := p.toggle } then s.sendAck p.toggle p.index else s := by
  rw [State.receivePage, outside]
  rfl

/-- The part with a page of the module taken and acknowledged, before the exchange goes on (R93). -/
def State.pageKept (s : State) (p : TetherPage) : State := { s with
  binding := { s.binding with toggle := p.toggle, lastPage := some { kind := p.kind, index := p.index, toggle := p.toggle } }
  entropy := s.entropy + 1
  sent := s.sent ++ [.page { kind := .ack, toggle := p.toggle, more := false, acknowledge := true, index := p.index
                             payload := Config.ackPayload s.entropy }] }

theorem takePage_eq (s : State) (p : TetherPage) : s.takePage p = (s.pageKept p).pageTaken p.payload := rfl

/-- A page of a round that the part waits for is taken (R93, R94). -/
theorem receivePage_check {i : Nat} (exchange : s.binding.exchange = .check (.awaiting i)) (answers : p.answers s .response i) :
    s.receivePage p = (s.pageKept p).pageTaken p.payload := by
  have accepts := (accepts_check (e := .awaiting i) i).2 answers
  obtain ⟨-, -, -, turned, -⟩ := answers
  rw [receivePage_takes (by rw [exchange]; rfl) turned (exchange ▸ accepts), takePage_eq]

theorem receivePage_enrol {i : Nat} (exchange : s.binding.exchange = .enrol (.awaiting i)) (answers : p.answers s .enrol i) :
    s.receivePage p = (s.pageKept p).pageTaken p.payload := by
  have accepts := (accepts_enrol (e := .awaiting i) i).2 answers
  obtain ⟨-, -, -, turned, -⟩ := answers
  rw [receivePage_takes (by rw [exchange]; rfl) turned (exchange ▸ accepts), takePage_eq]

/-- A page that a round does not wait for is a sequence error (R93). -/
theorem receivePage_failsCheck {i : Nat} (error : (s.binding.exchange = .check (.sending i) ∧ ¬ p.acknowledges s i) ∨
    (s.binding.exchange = .check (.awaiting i) ∧ ¬ p.answers s .response i ∧ (p.kind = .ack ∨ p.toggle ≠ s.binding.toggle))) :
    (∃ e, s.binding.exchange = .check e) ∧ s.receivePage p = s.failExchange := by
  rcases error with ⟨exchange, other⟩ | ⟨exchange, other, fresh⟩
  · exact ⟨⟨_, exchange⟩, receivePage_unacknowledged (by rw [exchange]; rfl) other⟩
  · refine ⟨⟨_, exchange⟩, receivePage_unexpected (by rw [exchange]; rfl) fresh ?_⟩
    rw [exchange, accepts_check]
    exact other

theorem receivePage_failsEnrol {i : Nat} (error : (s.binding.exchange = .enrol (.sending i) ∧ ¬ p.acknowledges s i) ∨
    (s.binding.exchange = .enrol (.awaiting i) ∧ ¬ p.answers s .enrol i ∧ (p.kind = .ack ∨ p.toggle ≠ s.binding.toggle))) :
    (∃ e, s.binding.exchange = .enrol e) ∧ s.receivePage p = s.failExchange := by
  rcases error with ⟨exchange, other⟩ | ⟨exchange, other, fresh⟩
  · exact ⟨⟨_, exchange⟩, receivePage_unacknowledged (by rw [exchange]; rfl) other⟩
  · refine ⟨⟨_, exchange⟩, receivePage_unexpected (by rw [exchange]; rfl) fresh ?_⟩
    rw [exchange, accepts_enrol]
    exact other

end Receive

section Steps

variable {s : State}

/-! #### What an acknowledgement moves on (R94, R101) -/

theorem acknowledged_challenge {challenge : Word32} (exchange : s.binding.exchange = .check (.sending 0))
    (drawn : s.binding.challenge = some challenge) : s.acknowledged = { s with
      binding := { s.binding with toggle := !s.binding.toggle, exchange := .check (.sending 1), waitSince := s.clock }
      sent := s.sent ++ [.page { kind := .challenge, toggle := !s.binding.toggle, more := false, acknowledge := false, index := 1
                                 payload := secondHalfOf challenge }] } := by
  have value : s.binding.challenge.getD 0 = challenge := by rw [drawn]; rfl
  rw [State.acknowledged, exchange, value]
  rfl

theorem acknowledged_lastChallenge (exchange : s.binding.exchange = .check (.sending 1)) :
    s.acknowledged = { s with binding := { s.binding with exchange := .check (.awaiting 0), waitSince := s.clock } } := by
  rw [State.acknowledged, exchange]
  rfl

theorem acknowledged_secret {secret : Word32} (exchange : s.binding.exchange = .enrol (.sending 0))
    (fresh : s.binding.freshSecret = some secret) : s.acknowledged = { s with
      binding := { s.binding with toggle := !s.binding.toggle, exchange := .enrol (.sending 1), waitSince := s.clock }
      sent := s.sent ++ [.page { kind := .enrol, toggle := !s.binding.toggle, more := false, acknowledge := false, index := 1
                                 payload := secondHalfOf secret }] } := by
  have value : s.binding.freshSecret.getD 0 = secret := by rw [fresh]; rfl
  rw [State.acknowledged, exchange, value]
  rfl

theorem acknowledged_lastSecret (exchange : s.binding.exchange = .enrol (.sending 1)) :
    s.acknowledged = { s with binding := { s.binding with exchange := .enrol (.awaiting 2), waitSince := s.clock } } := by
  rw [State.acknowledged, exchange]
  rfl

/-! #### What a page taken moves on (R95, R101) -/

theorem pageTaken_enrolledDigest {payload : Word16} (exchange : s.binding.exchange = .check (.awaiting 0))
    (digest : s.bindingRecord.enrolled.map (·.digest) = some payload) : s.pageTaken payload =
      { s with binding := { s.binding with exchange := .check (.awaiting 1), waitSince := s.clock } } := by
  rw [State.pageTaken, exchange]
  exact if_pos digest

theorem pageTaken_otherDigest {payload : Word16} {enrolled : Enrolment} (exchange : s.binding.exchange = .check (.awaiting 0))
    (record : s.bindingRecord.enrolled = some enrolled) (other : payload ≠ enrolled.digest) :
    s.pageTaken payload = s.endCheck .mismatch := by
  rw [State.pageTaken, exchange]
  refine if_neg fun same => other ?_
  rw [record] at same
  exact (Option.some.inj same).symm

theorem pageTaken_half (payload : Word16) (exchange : s.binding.exchange = .check (.awaiting 1)) : s.pageTaken payload = { s with
    binding := { s.binding with exchange := .check (.awaiting 2), firstHalf := some payload, waitSince := s.clock } } := by
  rw [State.pageTaken, exchange]
  rfl

theorem pageTaken_response {challenge secret : Word32} {half digest : Word16} (payload : Word16)
    (exchange : s.binding.exchange = .check (.awaiting 2)) (drawn : s.binding.challenge = some challenge)
    (first : s.binding.firstHalf = some half) (enrolled : s.bindingRecord.enrolled = some { digest := digest, secret := secret }) :
    s.pageTaken payload = s.endCheck (if half ++ payload = Config.response challenge secret then .bound else .mismatch) := by
  rw [State.pageTaken, exchange]
  dsimp only
  rw [State.expectedResponse, drawn, first, enrolled, apply_ite s.endCheck]
  rfl

theorem pageTaken_enrol {recheck : Option Nat} (payload : Word16) (exchange : s.binding.exchange = .enrol (.awaiting 2))
    (job : s.executor.job = .enrol recheck none) : s.pageTaken payload = { s with
      binding := { s.binding with exchange := .none }
      executor := { s.executor with job := .enrol recheck (some payload), stage := .wanted } } := by
  rw [State.pageTaken, exchange]
  dsimp only
  rw [State.enrolTaken, job]

/-- A check that ends MISMATCH (R95, R98). -/
theorem endCheck_mismatch (s : State) : ∃ after : List Sent,
    (s.endCheck .mismatch).binding.state = .mismatch ∧ (s.endCheck .mismatch).binding.exchange = .none ∧
      (s.endCheck .mismatch).binding.rounds = s.binding.rounds ∧
      (s.binding.reference ≠ some .mismatch → EventKind.bindingChanged ∈ (s.endCheck .mismatch).events.pending) ∧
      (s.power.part = .ready → EventKind.triggerFired ∈ (s.endCheck .mismatch).events.pending ∧
        Trigger.unbound ∈ (s.endCheck .mismatch).events.detail) ∧
      (s.power.part = .ready → s.triggers.unbound.action = .note → (s.endCheck .mismatch).table = s.table ∧
        (s.endCheck .mismatch).binding.gated = s.binding.gated ∧ after = []) ∧
      (s.endCheck .mismatch).sent = s.sent ++ after := by
  obtain ⟨state, ended, rounds⟩ := endCheck_fields s .mismatch
  obtain ⟨after, said⟩ := (onward_endCheck s .mismatch).sent
  refine ⟨after, state, ended, rounds, endCheck_changed s .mismatch, endCheck_fires s BindingState.noConfusion, fun ready note => ?_,
    said.symm⟩
  obtain ⟨events, noted⟩ := endCheck_noted s (.inl rfl) ready note
  rw [noted] at said ⊢
  exact ⟨rfl, rfl, List.append_right_eq_self.1 said⟩

/-- The pages that end a check MISMATCH (R95). -/
theorem receivePage_mismatch {p : TetherPage}
    (wrong : ∃ digest secret, s.bindingRecord.enrolled = some { digest := digest, secret := secret } ∧
      ((s.binding.exchange = .check (.awaiting 0) ∧ p.answers s .response 0 ∧ p.payload ≠ digest) ∨
      ∃ challenge half, s.binding.exchange = .check (.awaiting 2) ∧ p.answers s .response 2 ∧ s.binding.challenge = some challenge ∧
        s.binding.firstHalf = some half ∧ half ++ p.payload ≠ Config.response challenge secret)) :
    s.receivePage p = (s.pageKept p).endCheck .mismatch := by
  obtain ⟨digest, secret, enrolled, ⟨exchange, page, other⟩ | ⟨challenge, half, exchange, page, drawn, first, other⟩⟩ := wrong
  · exact (receivePage_check exchange page).trans (pageTaken_otherDigest (s := s.pageKept p) exchange enrolled other)
  · rw [receivePage_check exchange page, pageTaken_response (s := s.pageKept p) _ exchange drawn first enrolled, if_neg other]

end Steps

/-- Settles O36: each page by what the part does with it, then what the exchange makes of an acknowledgement or of a page taken. -/
theorem tetherPageMovesRound : Obligations.TetherPageMovesRound := by
  intro s page powered roundFailed exchangeFailed enrolmentFailed
  have round {e : ExchangePhase} (exchange : s.binding.exchange = .check e) (few : s.binding.rounds < 6) :
      s.failExchange = roundFailed := failExchange_round exchange (Nat.succ_lt_succ few)
  have enrolment {e : ExchangePhase} (exchange : s.binding.exchange = .enrol e) (few : s.binding.failures < 6) :
      s.failExchange = exchangeFailed := failExchange_enrolment exchange (Nat.succ_lt_succ few)
  have lastEnrolment {e : ExchangePhase} (exchange : s.binding.exchange = .enrol e) (many : 6 ≤ s.binding.failures)
      (executing : s.executor.status = .executing) : s.failExchange = enrolmentFailed :=
    failExchange_lastEnrolment exchange (Nat.succ_le_succ many) executing
  refine ⟨exec_badPage powered, fun read => ?_, fun p read => ?_⟩
  · rw [exec_unlistedPage powered read]
    refine ⟨fun outside => by rw [outside]; rfl, fun i inside few => ?_, fun i inside => ?_⟩
    · rcases inside with exchange | exchange <;> rw [if_pos (by rw [exchange]; rfl), round exchange few]
    · obtain ⟨e, exchange, live⟩ : ∃ e, s.binding.exchange = .enrol e ∧ s.binding.exchange.live.isSome = true := by
        rcases inside with exchange | exchange <;> exact ⟨_, exchange, by rw [exchange]; rfl⟩
      rw [if_pos live]
      exact ⟨fun few => by rw [enrolment exchange few], fun many executing => by rw [lastEnrolment exchange many executing]⟩
  · rw [exec_page powered read]
    intro acknowledges answers taken acknowledged
    refine ⟨fun challenge exchange drawn acks => ?_, fun exchange acks => ?_, fun secret exchange fresh acks => ?_,
      fun exchange acks => ?_, fun exchange page digest => ?_, fun exchange page => ?_,
      fun challenge half digest secret exchange drawn first enrolled page right => ?_, fun wrong => ?_,
      fun recheck exchange page job => ?_, fun i => ⟨fun exchange kind toggle => ?_, fun error few => ?_, fun error => ?_⟩,
      fun outside => ⟨fun again => ?_, fun other => ?_⟩⟩
    · rw [receivePage_acknowledges (by rw [exchange]; rfl) acks, acknowledged_challenge exchange drawn]
    · rw [receivePage_acknowledges (by rw [exchange]; rfl) acks, acknowledged_lastChallenge exchange]
    · rw [receivePage_acknowledges (by rw [exchange]; rfl) acks, acknowledged_secret exchange fresh]
    · rw [receivePage_acknowledges (by rw [exchange]; rfl) acks, acknowledged_lastSecret exchange]
    · rw [receivePage_check exchange page, pageTaken_enrolledDigest (s := s.pageKept p) exchange digest]
      exact ⟨_, rfl⟩
    · rw [receivePage_check exchange page, pageTaken_half (s := s.pageKept p) _ exchange]
      exact ⟨_, rfl⟩
    · rw [receivePage_check exchange page, pageTaken_response (s := s.pageKept p) _ exchange drawn first enrolled, if_pos right]
      obtain ⟨state, ended, rounds⟩ := endCheck_fields (s.pageKept p) .bound
      obtain ⟨gated, sent⟩ := endCheck_bound (s.pageKept p)
      exact ⟨_, _, rfl, state, ended, gated, rounds, endCheck_changed (s.pageKept p) .bound, sent⟩
    · have mismatch := receivePage_mismatch wrong
      obtain ⟨after, state, ended, rounds, changed, fires, noted, sent⟩ := endCheck_mismatch (s.pageKept p)
      rw [mismatch]
      exact ⟨_, _, after, rfl, state, ended, rounds, changed, fires, noted, sent.trans (List.append_assoc _ _ _)⟩
    · rw [receivePage_enrol exchange page, pageTaken_enrol (s := s.pageKept p) _ exchange job]
      exact ⟨_, rfl⟩
    · have live : s.binding.exchange.live = some (.awaiting i) := by
        rcases exchange with exchange | exchange <;> rw [exchange] <;> rfl
      rw [receivePage_repeats live kind toggle, sendAck_eq]
      exact ⟨_, rfl⟩
    · obtain ⟨⟨e, exchange⟩, fails⟩ := receivePage_failsCheck error
      rw [fails, round exchange few]
    · obtain ⟨⟨e, exchange⟩, fails⟩ := receivePage_failsEnrol error
      rw [fails]
      exact ⟨fun few => by rw [enrolment exchange few], fun many executing => by rw [lastEnrolment exchange many executing]⟩
    · rw [receivePage_outside outside, if_pos again, sendAck_eq]
      exact ⟨_, rfl⟩
    · rw [receivePage_outside outside, if_neg other]

end Sys2Proof.Machine

namespace Sys2Proof.Machine

/-! ### The start of a check and of an enrolment (R94, R97, R101) -/

section Starts

variable {s : State}

/-- A check starts where none runs and the drive is ENROLLED (R94, R97). -/
theorem startCheck_starts (enrolled : s.enrolled = true) (outside : s.binding.exchange = .none) (reference : BindingState) :
    s.startCheck reference = { s with
      entropy := s.entropy + 1
      binding := Binding.inRound { s.binding with
          rounds := 0, reference := some reference, recheck := none
          state := if s.binding.state = .mismatch ∨ s.binding.state = .fault then s.binding.state else .checking }
        (Config.freshChallenge s.entropy) s.clock
      sent := s.sent ++ [firstChallenge (Config.freshChallenge s.entropy)] } :=
  (if_pos ⟨enrolled, outside⟩).trans (startRound_eq _)

/-- A check that a request starts. -/
theorem take_startCheck (kind : Nat) (tag : Byte) (enrolled : s.enrolled = true) (outside : s.binding.exchange = .none)
    (reference : BindingState) : (s.take kind tag).startCheck reference = (s.startCheck reference).take kind tag := by
  have known : (s.take kind tag).enrolled = true := by
    rw [State.enrolled, State.bindingRecord, take_store]
    exact enrolled
  have starts := startCheck_starts enrolled outside reference
  rw [startCheck_starts known (by rw [take_binding]; exact outside), take_eq (s.startCheck reference),
    restartIdle_trigger s (s.startCheck reference) (by rw [starts]) (by rw [starts]), starts, take_eq s]

theorem exec_recheckTimerExpiry {since : Nat} (powered : s.power.powered = true) (running : s.binding.recheck = some since) :
    exec .recheckTimerExpiry s =
      .next (settle ((s.reachTime (since + s.bindingRecord.recheck * 60000)).startCheck s.binding.state)) := by
  show Host.Outcome.next (s.whilePowered State.recheckExpires) = _
  rw [whilePowered_on _ powered, State.recheckExpires, running]

/-- BIND-CHECK on an ENROLLED drive starts a check if it can, and is answered OK (R100). -/
theorem exec_bindCheck (tag : Byte) (takes : s.takesRequest) (admin : s.admin = true) (enrolled : s.enrolled = true) :
    exec (.bindCheck tag (.fits ())) s =
      .next (settle (((s.take 19 tag).startCheck s.binding.state).reply .ok)) := by
  have known : (s.take 19 tag).enrolled = true := by
    rw [State.enrolled, State.bindingRecord, take_store]
    exact enrolled
  show Host.Outcome.next (s.whilePowered fun s => s.request 19 tag _ (adminOnly State.bindCheck)) = _
  rw [exec_admin _ _ _ _ _ takes admin, State.bindCheck, if_neg (by rw [known]; decide), take_binding]

theorem exec_bindEnroll (tag : Byte) (recheck : Option Nat) (takes : s.takesRequest) (admin : s.admin = true) :
    exec (.bindEnroll tag (.fits recheck)) s =
      .next (settle ((s.take 18 tag).startJob (.enrol (recheck.map clampRecheck) none) .working)) := by
  show Host.Outcome.next (s.whilePowered fun s => s.request 18 tag _ (adminOnly State.bindEnroll)) = _
  rw [exec_admin _ _ _ _ _ takes admin, State.bindEnroll]

/-- What the beginning of an enrolment changes (R101). -/
theorem startEnrolment_eq (s : State) : s.startEnrolment = { s with
    entropy := s.entropy + 1
    binding := { s.binding with
      failures := 0, recheck := none, toggle := true, freshSecret := some (Config.freshBindingSecret s.entropy)
      exchange := .enrol (.sending 0), waitSince := s.clock }
    sent := s.sent ++ [.page
      { kind := .enrol, toggle := true, more := true, acknowledge := false, index := 0
        payload := firstHalfOf (Config.freshBindingSecret s.entropy) }] } :=
  startEnrolExchange_eq ({ s with entropy := s.entropy + 1, binding := { s.binding with failures := 0, recheck := none } } : State) _

/-- A BIND-ENROLL in execution begins its exchange in the same event, where no check is in progress (R101). -/
theorem settle_startsEnrolment {recheck : Option Nat} (part : s.power.part = .ready) (status : s.executor.status = .executing)
    (stage : s.executor.stage = .working) (job : s.executor.job = .enrol recheck none) (outside : s.binding.exchange = .none) :
    Onward s.startEnrolment (settle s) ∧ (settle s).executor = s.executor := by
  have drain : s.endDrainWait = s := by rw [State.endDrainWait, State.commit, job]
  have begins : s.advanceEnrolment = s.startEnrolment := by
    rw [State.advanceEnrolment, job]
    exact if_pos ⟨stage, status, outside⟩
  have waits : s.startEnrolment.advanceExecutor = s.startEnrolment := if_pos (by
    show s.executor.stage ≠ .wanted
    rw [stage]
    decide)
  have same : s.startEnrolment.power = s.power ∧ s.startEnrolment.executor = s.executor ∧
      s.startEnrolment.binding.exchange ≠ .none ∧ s.startEnrolment.binding.recheck = none := by
    rw [startEnrolment_eq]
    exact ⟨rfl, rfl, Exchange.noConfusion, rfl⟩
  unfold settle
  rw [drain, begins, waits]
  generalize s.startEnrolment = y at same ⊢
  obtain ⟨power, executor, exchange, recheck⟩ := same
  have early := (steady_advanceWipe y).trans (steady_grantLanes _)
  have sleepless : y.advanceWipe.grantLanes.advanceSleep = y.advanceWipe.grantLanes :=
    advanceSleep_busy _ (by rw [early.power, power]; exact part) (by rw [early.executor, executor, status]; decide)
  have worked := (Onward.refl y).advanceWipe.grantLanes.advanceWipe
  obtain ⟨-, sameExchange, -, -, -, -, sameRecheck⟩ := worked.fields
  dsimp only
  rw [sleepless]
  exact ⟨worked.tend (by rw [sameExchange]; exact exchange) (sameRecheck.trans recheck),
    ((early.trans (steady_advanceWipe _)).trans (steady_tend _)).executor.trans executor⟩

end Starts

/-- Settles O34: the recheck timer, BIND-CHECK and BIND-ENROLL, each by the command's own effect and what its exchange starts with. -/
theorem exchangesStart : Obligations.ExchangesStart := by
  refine ⟨fun s enrolled outside => ⟨fun since powered running => ?_, fun tag takes admin => ?_⟩,
    fun s tag recheck takes admin outside => ?_⟩
  · rw [exec_recheckTimerExpiry powered running,
      startCheck_starts (s := s.reachTime (since + s.bindingRecord.recheck * 60000)) enrolled outside]
    rfl
  · rw [exec_bindCheck tag takes admin enrolled, take_startCheck 19 tag enrolled outside, reply_take, startCheck_starts enrolled outside]
  · rw [exec_bindEnroll tag recheck takes admin]
    obtain ⟨-, part, -⟩ := takes
    obtain ⟨goesOn, executor⟩ := settle_startsEnrolment (s := (s.take 18 tag).startJob (.enrol (recheck.map clampRecheck) none) .working)
      (by simpa using part) (by simp) rfl rfl (by simpa using outside)
    obtain ⟨state, exchange, -, failures, secret, toggle, timer⟩ := goesOn.fields
    obtain ⟨more, said⟩ := goesOn.sent
    rw [startEnrolment_eq] at state exchange failures secret toggle timer said
    simp only [State.startJob_binding, State.startJob_entropy, State.startJob_sent, take_binding, take_entropy, take_sent]
      at state secret said
    refine ⟨_, more, rfl, ?_, ?_, exchange, secret, toggle, failures, timer, state, ?_⟩
    · rw [executor]; simp
    · have interval : clampRecheck = fun n => max 1 (min 60 n) := funext fun n => clamp_eq (by decide) n
      rw [executor, ← interval]
      rfl
    · rw [← said, List.append_assoc]; rfl

end Sys2Proof.Machine

namespace Sys2Proof.Machine

/-! ### The close of a BIND-ENROLL (R102) -/

theorem bindingRecord_of_keepsCells {s t : State} (h : KeepsCells s t) : t.bindingRecord = s.bindingRecord := by
  have cell := congrArg Store.binding h
  exact congrArg (fun x => CellPair.read x manufacturedBinding) cell

/-- The part at the close of a BIND-ENROLL's group: BOUND, with the exit decision made (R102, R118). -/
def State.enrolBound (s : State) : State :=
  (s.setBinding { s.binding with state := .bound, rounds := 0, freshSecret := none, recheck := none }).exitIfCleared s .unbound

theorem enrolBound_binding (s : State) :
    s.enrolBound.binding.state = .bound ∧ s.enrolBound.binding.rounds = 0 ∧ s.enrolBound.binding.freshSecret = none := by
  have goesOn : Onward (s.setBinding { s.binding with state := .bound, rounds := 0, freshSecret := none, recheck := none }) s.enrolBound :=
    (Onward.refl _).exitDecision.ite (.refl _)
  obtain ⟨state, -, rounds, -, secret, -⟩ := goesOn.fields
  exact ⟨state, rounds, secret⟩

theorem enrolBound_keeps (s : State) : s.enrolBound.executor = s.executor ∧ s.enrolBound.sent = s.sent ∧
    s.enrolBound.authority = s.authority ∧ s.enrolBound.bindingRecord = s.bindingRecord := by
  have cells : KeepsCells s s.enrolBound := ((KeepsCells.refl s).setBinding _).exitIfCleared s .unbound
  have record := bindingRecord_of_keepsCells cells
  unfold State.enrolBound State.exitIfCleared at record ⊢
  split
  · next leaves =>
    rw [if_pos leaves] at record
    obtain ⟨executor, sent, authority, -⟩ :=
      exitDecision_keeps (s.setBinding { s.binding with state := .bound, rounds := 0, freshSecret := none, recheck := none })
    exact ⟨executor, sent, authority, record⟩
  · exact ⟨rfl, rfl, rfl, rfl⟩

/-- What follows the exit decision at that close: the wake gate, BINDING_CHANGED and the reply (R102). -/
theorem enrolClosed_eq {s : State} (digest : Word16) (executing : s.executor.status = .executing) :
    ∃ events, (s.binding.state ≠ .bound → EventKind.bindingChanged ∈ events.pending) ∧ s.enrolClosed digest = { s.enrolBound with
      binding := { s.enrolBound.binding with gated := [] }, events := events, executor := freeExecutor, authTimer := none
      sent := s.sent ++ [replyTo s.executor.kind s.executor.tag .ok (.enrolment digest s.bindingRecord.recheck)] } := by
  obtain ⟨executor, sent, -, record⟩ := enrolBound_keeps s
  have closed : s.enrolClosed digest =
      let changed := if s.binding.state = .bound then s.enrolBound.setBinding { s.enrolBound.binding with gated := [] }
        else (s.enrolBound.setBinding { s.enrolBound.binding with gated := [] }).raise .bindingChanged
      changed.reply .ok (.enrolment digest changed.bindingRecord.recheck) := rfl
  generalize s.enrolBound = bound at *
  have answered (events : Events) : State.reply { bound with binding := { bound.binding with gated := [] }, events := events } .ok
      (.enrolment digest bound.bindingRecord.recheck) = { bound with
        binding := { bound.binding with gated := [] }, events := events, executor := freeExecutor, authTimer := none
        sent := s.sent ++ [replyTo s.executor.kind s.executor.tag .ok (.enrolment digest s.bindingRecord.recheck)] } := by
    rw [reply_eq _ _ _ (by rw [executor]; exact executing), executor, sent, record]
  rw [closed]
  split
  · next before => exact ⟨_, fun other => absurd before other, answered bound.events⟩
  · exact ⟨_, fun _ => (mem_withEvent _ _ _).2 (.inl rfl), answered (bound.raise .bindingChanged).events⟩

/-- What the close of a BIND-ENROLL's group makes of the part (R102). -/
theorem enrolClosed_spec {s : State} (digest : Word16) (executing : s.executor.status = .executing) :
    (s.enrolClosed digest).binding.state = .bound ∧ (s.enrolClosed digest).binding.rounds = 0 ∧
      (s.enrolClosed digest).binding.gated = [] ∧ (s.enrolClosed digest).binding.freshSecret = none ∧
      (s.binding.state ≠ .bound → EventKind.bindingChanged ∈ (s.enrolClosed digest).events.pending) ∧
      (s.enrolClosed digest).executor = freeExecutor ∧ (s.enrolClosed digest).authority = s.authority ∧
      (s.enrolClosed digest).bindingRecord = s.bindingRecord ∧ (s.enrolClosed digest).sent = s.sent ++
        [replyTo s.executor.kind s.executor.tag .ok (.enrolment digest s.bindingRecord.recheck)] := by
  obtain ⟨events, changed, closed⟩ := enrolClosed_eq digest executing
  obtain ⟨state, rounds, secret⟩ := enrolBound_binding s
  obtain ⟨-, -, authority, record⟩ := enrolBound_keeps s
  rw [closed]
  exact ⟨state, rounds, rfl, secret, changed, rfl, authority, record, rfl⟩

theorem groupClose_enrol (s : State) (scan : ScanFindings) (recheck : Option Nat) (digest : Word16) (record : BindingRecord)
    (executing : s.executor.status = .executing) (job : s.executor.job = .enrol recheck (some digest))
    (ready : s.readyToClose (requestGroup [.binding record])) :
    ∃ x, exec (.groupClose scan) s = .next (settle x) ∧ x.bindingRecord = record ∧ x.binding.state = .bound ∧
      x.binding.rounds = 0 ∧ x.binding.gated = [] ∧ x.binding.freshSecret = none ∧
      (s.binding.state ≠ .bound → EventKind.bindingChanged ∈ x.events.pending) ∧ x.executor = freeExecutor ∧
      x.authority = s.authority ∧
      x.sent = s.sent ++ [replyTo s.executor.kind s.executor.tag .ok (.enrolment digest record.recheck)] := by
  obtain ⟨w, t, group, at', closes⟩ := exec_groupClose_one scan ready rfl (by simp [requestGroup, Group.cells, Record.cell])
  have effective : t.bindingRecord = record := at'.record (r := .binding record) (by rw [group]; rfl)
  obtain ⟨state, rounds, gated, secret, changed, free, authority, kept, sent⟩ :=
    enrolClosed_spec (s := t) digest (by rw [at'.executor]; exact executing)
  rw [State.closeEffect, State.requestClosed, at'.executor, job] at closes
  rw [effective, at'.executor, show t.sent = s.sent by rw [at'.rest]] at sent
  rw [show t.binding = s.binding by rw [at'.rest]] at changed
  exact ⟨_, closes, kept.trans effective, state, rounds, gated, secret, changed, free, authority.trans at'.authority, sent⟩

/-! ### The group of a CRED-SET and its close (R66, R67) -/

/-- At the end of the derivation of a CRED-SET its group is ready (R66). -/
theorem exec_derivationComplete_credSet {s : State} {j : CredSetJob} {rest : List DerivationUser} (powered : s.power.powered = true)
    (first : s.derivations = .executor :: rest) (job : s.executor.job = .credSet j) (stage : s.executor.stage = .working) :
    exec .derivationComplete s = .next (settle (({ s with derivations := rest } : State).startJob (.credSet j) .wanted)) := by
  have ends : s.derivationEnds = ({ s with derivations := rest } : State).startJob (.credSet j) .wanted := by
    rw [State.derivationEnds, first]
    show State.executorDerived _ = _
    rw [State.executorDerived]
    simp only [job]
    exact if_pos stage
  show Host.Outcome.next (s.whilePowered State.derivationEnds) = _
  rw [whilePowered_on _ powered, ends]

theorem derivationComplete_credSet (s : State) (j : CredSetJob) (rest : List DerivationUser) (powered : s.power.powered = true)
    (part : s.power.part = .ready) (idle : s.store.idle = true) (first : s.derivations = .executor :: rest)
    (status : s.executor.status = .executing) (stage : s.executor.stage = .working) (job : s.executor.job = .credSet j) :
    ∃ t, exec .derivationComplete s = .next t ∧ t.authority = s.authority ∧ t.table = s.table ∧
      beginsGroup s t (s.credSetRecords j) := by
  obtain ⟨begins, authority, table, -, -⟩ := settle_begins (({ s with derivations := rest } : State).startJob (.credSet j) .wanted)
    (s.credSetRecords j) part status rfl idle rfl rfl rfl (List.cons_ne_nil _ _)
  exact ⟨_, exec_derivationComplete_credSet powered first job stage, authority, table, begins⟩

/-- Restaging some ranges changes their staging entries alone (R14). -/
theorem restaged_eq (l : List RangeId) (s : State) : forEach l (fun r s => s.restage r) s =
    { s with staging := (forEach l (fun r s => s.restage r) s).staging } := by
  have h := forEach_keeps (fun t : State => { t with staging := s.staging }) (fun (r : RangeId) s => s.restage r) (fun _ _ => rfl) l s
  generalize forEach l (fun r s => s.restage r) s = t at h ⊢
  exact congrArg (fun u : State => { u with staging := t.staging }) h

theorem restaged_staging (l : List RangeId) (s : State) (r : RangeId) : (forEach l (fun r s => s.restage r) s).staging[r] =
    if r ∈ l then { fields := (s.range r).fields, newKey := false } else s.staging[r] := by
  induction l generalizing s with
  | nil => rfl
  | cons q l ih =>
    refine (ih (s.restage q)).trans ?_
    by_cases among : r ∈ l
    · rw [if_pos among, if_pos (List.mem_cons_of_mem _ among)]
      rfl
    · rw [if_neg among]
      by_cases same : r = q
      · subst same
        rw [if_pos List.mem_cons_self]
        exact restage_here s r
      · rw [if_neg (by simp [same, among])]
        exact restage_there s q r same

theorem renewUnwrap_eq (s : State) (i : SlotId) (u : Unwrap) : s.renewUnwrap i u =
    { s with authority := s.authority.map fun a => if a.slot = i then { a with unwrap := u } else a } := by
  unfold State.renewUnwrap
  split
  · next a held =>
    rw [held]
    split
    · next own => rw [Option.map_some, if_pos own]
    · next other => rw [Option.map_some, if_neg other, ← held]
  · next none' => rw [none', Option.map_none, ← none']

/-- What the close of a CRED-SET's group changes (R66, R67). -/
theorem credSetClosed_eq {s : State} (j : CredSetJob) (executing : s.executor.status = .executing) : s.credSetClosed j = { s with
    openAt := (s.setOpenAt j.slot s.clock).openAt
    staging := (forEach j.dropped (fun r s => s.restage r) (s.setOpenAt j.slot s.clock)).staging
    authority := s.authority.map fun a => if a.slot = j.slot then { a with unwrap := j.unwrap } else a
    executor := freeExecutor, authTimer := none
    sent := s.sent ++ [replyTo s.executor.kind s.executor.tag .ok (.credSet j.policy j.dropped)] } := by
  have staged := restaged_eq j.dropped (s.setOpenAt j.slot s.clock)
  unfold State.credSetClosed
  dsimp only
  generalize forEach j.dropped (fun r s => s.restage r) (s.setOpenAt j.slot s.clock) = t at staged ⊢
  rw [renewUnwrap_eq, reply_eq _ _ _ (by rw [staged]; exact executing), staged]
  rfl

theorem groupClose_credSet (s : State) (scan : ScanFindings) (j : CredSetJob) (record : CredRecord) (ranges : List (RangeId × RangeRecord))
    (executing : s.executor.status = .executing) (job : s.executor.job = .credSet j)
    (ready : s.readyToClose (requestGroup (.cred j.slot record :: ranges.map (fun p => .range p.1 p.2)))) :
    ∃ x, exec (.groupClose scan) s = .next (settle x) ∧ x.cred j.slot = record ∧ x.openAt[j.slot] = s.clock ∧
      (∀ i : SlotId, i ≠ j.slot → x.openAt[i] = s.openAt[i]) ∧
      x.authority = s.authority.map (fun a => if a.slot = j.slot
        then { a with unwrap := { secret := j.secret, salt := j.salt, e := j.policy.e } } else a) ∧
      (∀ r ∈ j.dropped, x.staging[r] = { fields := (x.range r).fields, newKey := false }) ∧
      (∀ r, r ∉ j.dropped → x.staging[r] = s.staging[r]) ∧ x.table = s.table ∧ x.cache = s.cache ∧ x.executor = freeExecutor ∧
      x.sent = s.sent ++ [replyTo s.executor.kind s.executor.tag .ok (.credSet j.policy j.dropped)] := by
  obtain ⟨w, t, group, at', closes⟩ := exec_groupClose_one scan ready rfl (by simp [requestGroup, Group.cells, Record.cell])
  have effective : t.cred j.slot = record := at'.records (.cred j.slot record) (by rw [group]; exact List.mem_cons_self)
  rw [State.closeEffect, State.requestClosed, at'.executor, job] at closes
  dsimp only at closes
  rw [credSetClosed_eq j (by rw [at'.executor]; exact executing)] at closes
  refine ⟨_, closes, effective, ?_, fun i other => ?_, ?_, fun r among => ?_, fun r other => ?_, at'.table, ?_, rfl, ?_⟩
  · exact (setOpenAt_here t j.slot t.clock).trans at'.clock
  · exact (setOpenAt_there t t.clock other).trans (by rw [at'.rest])
  · exact congrArg (Option.map _) at'.authority
  · exact (restaged_staging j.dropped _ r).trans (if_pos among)
  · exact ((restaged_staging j.dropped _ r).trans (if_neg other)).trans (by rw [at'.rest]; rfl)
  · exact (congrArg State.cache at'.rest :)
  · show t.sent ++ _ = _
    rw [at'.executor, show t.sent = s.sent by rw [at'.rest]]

/-- Settles O52: the close of a BIND-ENROLL, and of a CRED-SET the group and the close. -/
theorem enrolmentAndCredSetClose : Obligations.EnrolmentAndCredSetClose :=
  ⟨groupClose_enrol, derivationComplete_credSet, groupClose_credSet⟩

end Sys2Proof.Machine
